-- ==== Sys2Proof/Word.lean ====
section
/-!
DEFINITION. The plain words of the JD2416: bytes, audio samples, sets of speaker zones, and the
small vector helpers every block uses. A bit vector stands here only for what the manual itself
treats as bits (R175, R181): bytes of the ring, 16-bit samples and the 24-entry zone bitmap.
-/

namespace Sys2Proof

/-- One byte of the ring (R175, R181). -/
abbrev Byte := BitVec 8

/-- One 16-bit linear audio sample (R123, R175). -/
abbrev Sample := BitVec 16

/-- A speaker zone, 0–23. -/
abbrev Zone := Fin 24

/-- A set of speaker zones as its 24-entry bitmap: bit n set means zone n is a member (R181). -/
abbrev ZoneSet := BitVec 24

/-- An originator class, 0–7: the upper three bits of header byte 2 (R181). -/
abbrev Class := Fin 8

/-- Membership of a speaker zone in a zone set. -/
def inSet (zs : ZoneSet) (z : Zone) : Bool := zs.getLsbD z

/-- The zone set that holds every zone. -/
def allSet : ZoneSet := BitVec.allOnes 24

/-- The 24 speaker zones in zone order, the order in which every rule settles them. -/
def allZones : List Zone := List.finRange 24

/-- One entry of a fixed table changed, the others kept. -/
def upd {α : Type} {n : Nat} (v : Vector α n) (i : Fin n) (f : α → α) : Vector α n :=
  v.set i (f v[i])

/-- One entry of a fixed table changed, where the index is only known as a number; an index outside
the table changes nothing. -/
def updNat {α : Type} {n : Nat} (v : Vector α n) (i : Nat) (f : α → α) : Vector α n :=
  if h : i < n then v.set i (f v[i]) else v

/-- Every entry of a fixed table changed. -/
def updAll {α β : Type} {n : Nat} (v : Vector α n) (f : α → β) : Vector β n :=
  Vector.ofFn fun i => f v[i]

/-- The set of zones at which a test holds, as a bitmap (R181). -/
def zoneSetOf (p : Zone → Bool) : ZoneSet :=
  allZones.foldl (fun acc z => if p z then acc ||| (1#24 <<< z.val) else acc) 0#24

end Sys2Proof
end

