-- ==== Sys2Proof/Syntax.lean ====
section
/-!
DEFINITION. The records of the JD2416 and its commands. `Instr` has one constructor for each row of
spec/opcode_table.json: each row is one whole, indivisible step of the router. The records that the
steps carry (tables, messages, frames, claims, reports, replies) stand before it.
-/

namespace Sys2Proof

/-- A field that names one of a fixed set of values, or, in a write or in an entry stored as
written while not in use (R35), some other code. -/
inductive Coded (α : Type) where
  | named (a : α)
  | other (code : Nat)
deriving DecidableEq, Repr

/-- A level of the building: a number, or `none` for the marker unknown (R1). -/
abbrev Level := Option Nat

/-! ## The twelve tables -/

/-- One entry of the Detection Zone Map (1.2). -/
structure DetZone where
  inUse  : Bool
  level  : Level
  sector : Option Nat
deriving DecidableEq, Repr

/-- The kind of space a speaker zone serves (1.3). -/
inductive Kind where
  | floor | stair | lift | refuge
deriving DecidableEq, Repr

/-- Which speaker lines carry a zone (1.3). -/
inductive LineCfg where
  | aOnly | aAndB
deriving DecidableEq, Repr

/-- One entry of the Speaker Zone Map (1.3). -/
structure SpkZone where
  inUse    : Bool
  levelLo  : Level
  levelHi  : Level
  sector   : Nat
  kind     : Coded Kind
  trim     : Nat
  lineCfg  : LineCfg
  eligible : Bool
deriving DecidableEq, Repr

/-- One entry of the Local Input Map (1.4). -/
structure LocalIn where
  inUse      : Bool
  dz         : Nat
  activeHigh : Bool
  latch      : Bool
deriving DecidableEq, Repr

/-- The phase of evacuation of an effect or of a cause claim. -/
inductive Stage where
  | alert | evacuate
deriving DecidableEq, Repr

/-- How an effect finds the zones it reaches (3.1). -/
inductive Scope where
  | relative (offLo offHi : Int)
  | fixed (zones : ZoneSet)
deriving DecidableEq, Repr

/-- The sector filter of an effect (3.1). -/
inductive SectorFilter where
  | any | same
deriving DecidableEq, Repr

/-- The kind filter of an effect: a subset of the four kinds (3.1). -/
structure KindSet where
  floor  : Bool
  stair  : Bool
  lift   : Bool
  refuge : Bool
deriving DecidableEq, Repr

/-- One effect of a cause-and-effect entry (3.1); `delay` in seconds. -/
structure Effect where
  scope    : Coded Scope
  kinds    : KindSet
  sector   : Coded SectorFilter
  first    : Coded Stage
  delay    : Nat
  alert    : Nat
  evacuate : Nat
deriving DecidableEq, Repr

/-- One entry of the Cause-and-Effect Table (3.1); the effect count is the length of `effects`. -/
structure CeEntry where
  inUse   : Bool
  dzLo    : Nat
  dzHi    : Nat
  latch   : Bool
  effects : List Effect
deriving DecidableEq, Repr

/-- The audio a claim asks for (R77). -/
inductive Source where
  | ring (slot : Nat)
  | playout (channel : Nat)
  | tone (cadence : Nat)
  | warden
  | none
deriving DecidableEq, Repr

/-- The stand-in for a ring source while the router is ISOLATED (R77). -/
inductive Fallback where
  | playout (channel : Nat)
  | tone (cadence : Nat)
deriving DecidableEq, Repr

/-- One claim template (3.2). -/
structure Template where
  inUse    : Bool
  source   : Coded Source
  prio     : Nat
  atten    : Nat
  fallback : Option (Coded Fallback)
deriving DecidableEq, Repr

/-- The command groups that a permission set may hold (5.6). READ is no member. -/
structure Groups where
  cause   : Bool
  reset   : Bool
  zone    : Bool
  silence : Bool
  stage   : Bool
  play    : Bool
  config  : Bool
deriving DecidableEq, Repr

/-- One entry of the Originator Table (5.6). `outside` says that a written permission set names a
group outside the seven listed; such a write is refused (R91), so a working entry holds `false`. -/
structure OrigEntry where
  reach   : ZoneSet
  preset  : Nat
  perms   : Groups
  outside : Bool
deriving DecidableEq, Repr

/-- One tone cadence (6.7). -/
structure Cadence where
  inUse  : Bool
  freq   : Nat
  on     : Nat
  off    : Nat
  bursts : Nat
  pause  : Nat
deriving DecidableEq, Repr

/-- One entry of the Phrase Directory (7.2). -/
structure Phrase where
  start    : Nat
  capacity : Nat
  length   : Nat
  valid    : Bool
deriving DecidableEq, Repr

/-- How a channel is started, repeated and stopped (7.3). -/
inductive Mode where
  | once | repeat | demand
deriving DecidableEq, Repr

/-- One step of a playout program (7.3). -/
inductive PStep where
  | phrase (n : Nat)
  | gap (ms : Nat)
deriving DecidableEq, Repr

/-- One playout program (7.3); the step count is the length of `steps`. -/
structure Program where
  inUse : Bool
  mode  : Coded Mode
  steps : List (Coded PStep)
deriving DecidableEq, Repr

/-- One zone entry of the Supervision Limits (9.1). -/
structure Limits where
  aLower : Nat
  aUpper : Nat
  bLower : Nat
  bUpper : Nat
deriving DecidableEq, Repr

/-- The Warden Settings (8.1); `maxTalk` in seconds. -/
structure WardenSettings where
  enabled  : Bool
  maxTalk  : Nat
  announce : Bool
deriving DecidableEq, Repr

/-- The Node Identity (R183); `isoDelay` in seconds (R68). -/
structure NodeIdentity where
  addr     : Nat
  master   : Bool
  groups   : List Nat
  report   : Nat
  isoDelay : Nat
deriving DecidableEq, Repr

/-- One copy of the twelve tables (R200). -/
structure Tables where
  node     : NodeIdentity
  dzMap    : Vector DetZone 512
  spk      : Vector SpkZone 24
  inputs   : Vector LocalIn 8
  ce       : Vector CeEntry 256
  templ    : Vector Template 32
  orig     : Vector OrigEntry 8
  cad      : Vector Cadence 4
  phrases  : Vector Phrase 64
  progs    : Vector Program 4
  limits   : Vector Limits 24
  window   : Nat
  warden   : WardenSettings
deriving DecidableEq, Repr

/-- The contents that a TABLE WRITE carries and that a TABLE READ returns: one entry of one table. -/
inductive Contents where
  | node (e : NodeIdentity)
  | detZone (e : DetZone)
  | spkZone (e : SpkZone)
  | localIn (e : LocalIn)
  | ceEntry (e : CeEntry)
  | template (e : Template)
  | originator (e : OrigEntry)
  | cadence (e : Cadence)
  | phrase (e : Phrase)
  | program (e : Program)
  | limits (e : Limits)
  | window (ms : Nat)
  | warden (e : WardenSettings)
deriving DecidableEq, Repr

/-! ## Claims and activation records -/

/-- Owner kind and owner identity of a claim in one (R77): two claims have the same owner when both
are equal. -/
inductive Owner where
  | cause (dz : Nat)
  | command (cls : Class)
  | silence (cls : Class)
  | warden
  | overflow
deriving DecidableEq, Repr

/-- A claim held in, or offered to, one zone's claim list (R77). -/
structure Claim where
  owner    : Owner
  source   : Source
  fallback : Option Fallback
  prio     : Nat
  atten    : Nat
  stage    : Option Stage
  placed   : Nat
deriving DecidableEq, Repr

/-- An effect reference of an activation record (R16); `timer` is the stage timer's remaining ms. `due` is
the model's own: the millisecond that ends the timer has passed and its expiry, which brings the timer to
0, is the next thing to reach the record (R58, log entry 4). -/
structure Ref where
  entry  : Nat
  effect : Nat
  stage  : Stage
  timer  : Option Nat
  due    : Bool
deriving DecidableEq, Repr

/-- An activation record (R15). -/
structure ActRecord where
  dz        : Nat
  cls       : Class
  origin    : Nat
  time      : Nat
  level     : Level
  sector    : Option Nat
  latched   : Bool
  restored  : Bool
  truncated : Bool
  refs      : List Ref
deriving DecidableEq, Repr

/-! ## Supervision names -/

/-- One of a zone's two speaker lines. -/
inductive Line where
  | a | b
deriving DecidableEq, Repr

/-- A line's supervised state (R161). -/
inductive LineState where
  | untested | normal | opened | short
deriving DecidableEq, Repr

/-- An amplifier channel: one of the 24 zone channels or of the 2 standby channels (R165). -/
inductive AmpChannel where
  | zone (z : Zone)
  | standby (k : Fin 2)
deriving DecidableEq, Repr

/-- The state of a standby channel in the pool (R166). -/
inductive PoolState where
  | free
  | serving (z : Zone)
  | failed
deriving DecidableEq, Repr

/-- The standby standing of a zone that ZONE READ shows (R173). -/
inductive Standing where
  | notFailed
  | served (k : Fin 2)
  | waiting
deriving DecidableEq, Repr

/-! ## Reports -/

/-- The subject of FAULT RAISED and FAULT CLEARED (R173). -/
inductive FaultSubject where
  | line (z : Zone) (l : Line)
  | channel (c : AmpChannel)
deriving DecidableEq, Repr

/-- The detail of FAULT RAISED and FAULT CLEARED (R173). -/
inductive FaultDetail where
  | opened | short | ampFailed
deriving DecidableEq, Repr

/-- The detail of STANDBY CHANGE (R168, R169). -/
inductive StandbyDetail where
  | assigned (z : Zone)
  | released (z : Zone)
  | preempted (givenUp taken : Zone)
  | channelFailed (z : Zone)
deriving DecidableEq, Repr

/-- The detail of WARDEN LOCAL ONLY (R152–R154); CLEARED names the slot and the label. -/
inductive LocalOnly where
  | noRoom
  | denied (free : Nat)
  | noAnswer
  | cleared (slot label : Nat)
deriving DecidableEq, Repr

/-- Kind, subject and detail of a report (R206). -/
inductive ReportBody where
  | coldStart (failing : List Nat) (node : Nat)
  | warmRestart (discarded : Nat) (commitCompleted : Bool)
  | overflow (dz : Nat) (cls : Class)
  | causeEscalated (dz entry effect : Nat)
  | claimDisplaced (z : Zone) (owner : Owner) (prio : Nat)
  | claimRejected (z : Zone) (owner : Owner) (prio : Nat)
  | faultRaised (subject : FaultSubject) (detail : FaultDetail)
  | faultCleared (subject : FaultSubject) (detail : FaultDetail)
  | outputLost (z : Zone) (lineA : LineState) (lineB : Option LineState)
  | standbyChange (k : Fin 2) (detail : StandbyDetail)
  | forcedRelease (maxTalk : Nat)
  | wardenOnAir (slot label : Nat)
  | wardenLocalOnly (detail : LocalOnly)
  | phraseMissing (channel phrase step : Nat)
  | isolationEntered
  | isolationLeft (length : Nat)
deriving DecidableEq, Repr

/-- A report as it waits in the report queue (R206). -/
structure Report where
  body : ReportBody
  time : Nat
deriving DecidableEq, Repr

/-! ## Commands of the control stream and their replies -/

/-- What stands in the header of a COMMAND message beside its code: origin, class and tag; `formOk`
says whether the body's length and form fit the code (R198 step 4). -/
structure Request where
  origin : Nat
  cls    : Class
  tag    : Nat
  formOk : Bool
deriving DecidableEq, Repr

/-- The code and body of a COMMAND message. The manual gives the codes no numbers and the bodies no
byte layout, so a command stands here by its name and its arguments. -/
inductive CmdBody where
  | causeOn (dz : Nat)
  | causeOff (dz : Nat)
  | causeReset (dz : Nat)
  | causeResetAll
  | escalateNow (dz : Nat)
  | escalateNowAll
  | holdStages
  | releaseStages
  | zoneSet (zones : ZoneSet) (yield : Bool)
  | zoneClear (zones : ZoneSet)
  | silence (zones : ZoneSet)
  | resound (zones : ZoneSet)
  | playStart (channel : Nat)
  | playStop (channel : Nat)
  | capture (phrase slot maxMs : Nat)
  | captureStop
  | tableWrite (table index : Nat) (contents : Contents)
  | commit
  | restart
  | clearFaults
  | slotClearAll
  | statusRead
  | zoneRead (zone : Nat)
  | causeRead (index : Nat)
  | tableRead (table index : Nat)
  | slotRequest (count : Nat)
  | slotRelease (label : Nat)
  | unknown (code : Nat)
deriving DecidableEq, Repr

/-- An entry of the command queue: the whole message (R196). -/
structure Entry where
  req  : Request
  body : CmdBody
deriving DecidableEq, Repr

/-- The command whose code a reply carries (R197). -/
inductive CmdCode where
  | causeOn | causeOff | causeReset | escalateNow | holdStages | releaseStages
  | zoneSet | zoneClear | silence | resound | playStart | playStop
  | capture | captureStop | tableWrite | commit | restart | clearFaults | slotClearAll
  | statusRead | zoneRead | causeRead | tableRead | slotRequest | slotRelease
  | unknown (code : Nat)
deriving DecidableEq, Repr

/-- The result a reply carries (R197). -/
inductive Result where
  | done | doneTrimmed | notPermitted | locked | busy | badArgument | inUse
  | notMaster | notHolder | aborted | granted | denied | badCount
deriving DecidableEq, Repr

/-- The ring state (10.2). -/
inductive RingState where
  | bypass | seeking | locked | lost | isolated
deriving DecidableEq, Repr

/-- The fault summary of the node status record (R173). -/
structure FaultSummary where
  linesOpen     : Nat
  linesShort    : Nat
  ampFailed     : ZoneSet
  outputLost    : ZoneSet
  standby       : Vector PoolState 2
  phraseMissing : Bool
  lockedOut     : Bool
  indicator     : Bool
deriving DecidableEq, Repr

/-- The node status record (R205). -/
structure StatusRecord where
  ring           : RingState
  master         : Bool
  node           : Nat
  alarmLock      : Bool
  overflow       : Bool
  defaultMode    : Bool
  count          : Nat
  hold           : Bool
  commit         : Option (Nat × Nat)
  capture        : Option (Nat × Nat × Nat)
  faults         : FaultSummary
  tableInvalid   : Vector Bool 12
  lost           : Nat
  reportOverflow : Bool
deriving DecidableEq, Repr

/-- What ZONE READ returns (R100, R113, R173). -/
structure ZoneReading where
  inUse       : Bool
  claims      : List Claim
  effective   : Source
  substituted : Bool
  target      : Nat
  current     : Nat
  lineCfg     : LineCfg
  lineA       : LineState × Option Nat
  lineB       : Option (LineState × Option Nat)
  outputLost  : Bool
  ampFailed   : Bool
  standing    : Standing
deriving DecidableEq, Repr

/-- The data a reply carries (R197). -/
inductive ReplyData where
  | none
  | trimmed (count : Nat)
  | overflowed
  | freeCount (count : Nat)
  | captured (samples : Nat)
  | written (tables : Nat)
  | granted (slots : List Nat) (label free : Nat)
  | status (r : StatusRecord)
  | zone (r : ZoneReading)
  | cause (r : Option ActRecord)
  | table (c : Contents) (invalid uncommitted : Bool)
  | share (bytes : List Byte)
deriving DecidableEq, Repr

/-- A reply message's body, whole or one part of several (R197): a part carries its share of the bytes of
the data. -/
structure Reply where
  code   : CmdCode
  tag    : Nat
  result : Result
  data   : ReplyData
  part   : Nat
  parts  : Nat
deriving DecidableEq, Repr

/-! ## Ring messages and frames -/

/-- The labels a SLOTS CLEARED notice names, or the marker ALL (R193). -/
inductive Cleared where
  | all
  | labels (ls : List Nat)
deriving DecidableEq, Repr

/-- A NOTICE message's code and body. -/
inductive Notice where
  | slotsCleared (c : Cleared)
  | other (code : Nat)
deriving DecidableEq, Repr

/-- Kind, code and body of a ring message (R181). A reply or report that no JD2416 sends stands by its code
alone. -/
inductive Content where
  | command (formOk : Bool) (body : CmdBody)
  | reply (r : Reply)
  | report (r : Report)
  | notice (n : Notice)
  | foreignReply (code : Nat)
  | foreignReport (code : Nat)
deriving DecidableEq, Repr

/-- The kind of a ring message (R181). -/
inductive MsgKind where
  | command | reply | report | notice
deriving DecidableEq, Repr

/-- The kind of a report (R206). -/
inductive ReportKind where
  | coldStart | warmRestart | overflow | causeEscalated | claimDisplaced | claimRejected
  | faultRaised | faultCleared | outputLost | standbyChange | forcedRelease | wardenOnAir
  | wardenLocalOnly | phraseMissing | isolationEntered | isolationLeft
deriving DecidableEq, Repr

/-- The code of a ring message (R181), by its name, or by its number where this manual gives it none. -/
inductive MsgCode where
  | command (c : CmdCode)
  | report (k : ReportKind)
  | slotsCleared
  | other (code : Nat)
deriving DecidableEq, Repr

/-- A ring message (R181). `low` holds the three bits of header byte 2 that carry neither class nor kind, and
`spare` the four bits of header byte 7 that hold no flag; `body` and `check` are the body and the message
check as they travel. The acknowledgement union holds TAKEN and FULL, each with its complement. -/
structure Message where
  dest     : Nat
  origin   : Nat
  cls      : Class
  low      : BitVec 3
  content  : Content
  tag      : Nat
  hops     : Nat
  taken    : Bool
  takenBar : Bool
  full     : Bool
  fullBar  : Bool
  spare    : BitVec 4
  body     : List Byte
  check    : BitVec 16
deriving DecidableEq, Repr

/-- A message of the node's own as it waits in the outbound queue: origin, class, tag and hops are
given to it when its insertion begins (R187). `named` is the model's own: the slots that a SLOTS CLEARED
notice has made announced, each with the label it was taken from (R193, log entry 28). -/
structure OutMsg where
  dest    : Nat
  content : Content
  named   : List (Fin 16 × Option Nat) := []
deriving DecidableEq, Repr

/-- The control state of a frame (R176). -/
inductive Control where
  | idle | start | continue | void
deriving DecidableEq, Repr

/-- A ring frame, field by field (R175). Byte 2 has the fields count and control and no other: what else it
may hold, and a received byte 2 that no count and control state spell, the manual does not give, and such a
frame cannot be written (model's choice, log entry 72). -/
structure Frame where
  marker   : Byte × Byte
  count    : BitVec 4
  control  : Control
  presence : BitVec 32
  relay    : BitVec 32
  slots    : Vector Sample 32
  ctl      : Vector Byte 4
  check    : BitVec 16
deriving DecidableEq, Repr

/-- What completes a millisecond of the timebase: a valid frame of count 0, or the router's local
oscillator (R176). -/
inductive MsOrigin where
  | frame | oscillator
deriving DecidableEq, Repr

/-! ## The commands of the block -/

/-- The steps of the JD2416, one constructor for each row of spec/opcode_table.json. A row that is a
command of the control stream carries the request and the arguments of the command it begins. -/
inductive Instr where
  | coldStart (straps : BitVec 8)
  | startUpLoadComplete
  | timebaseMillisecond (origin : MsOrigin)
  | ringFrameReceived (f : Frame) (gap : Bool) (mic : Sample)
  | masterFrameOriginate (mic : Sample)
  | ringMessageComplete (m : Message)
  | forwardHoldSend
  | insertionBegin
  | returnRecordExpiry
  | ringLock
  | isolatedRelock
  | ringLoss
  | ringIsolation
  | isolationEscalation
  | slotsClearedNotice
  | staleReclaim (label : Nat)
  | deferredReplyPlace
  | causeOn (q : Request) (dz : Nat)
  | causeOff (q : Request) (dz : Nat)
  | causeReset (q : Request) (dz : Nat)
  | causeResetAll (q : Request)
  | localInputEdge (n : Fin 8) (high : Bool)
  | localInputTaken (n : Fin 8)
  | stageTimerExpiry (dz ref : Nat)
  | escalateNow (q : Request) (dz : Nat)
  | escalateNowAll (q : Request)
  | holdStages (q : Request)
  | releaseStages (q : Request)
  | zoneSet (q : Request) (zones : ZoneSet) (yield : Bool)
  | zoneClear (q : Request) (zones : ZoneSet)
  | silence (q : Request) (zones : ZoneSet)
  | resound (q : Request) (zones : ZoneSet)
  | cadencePhaseEnd (n : Fin 4)
  | playoutStepEnd (n : Fin 4)
  | playStart (q : Request) (channel : Nat)
  | playStop (q : Request) (channel : Nat)
  | capture (q : Request) (phrase slot maxMs : Nat)
  | captureLimit
  | captureStop (q : Request)
  | keyEdge (closed : Bool)
  | keyPress
  | keyRelease
  | forcedRelease
  | slotAnswerDeadline
  | wardenFreshTake
  | pilotPulse (z : Zone) (line : Line)
  | healthInputChange (c : AmpChannel) (active : Bool)
  | windowEnd
  | clearFaults (q : Request)
  | tableWrite (q : Request) (table index : Nat) (contents : Contents)
  | commit (q : Request)
  | commitStepEnd
  | restart (q : Request)
  | restartEffect
  | slotClearAll (q : Request)
  | statusRead (q : Request)
  | zoneRead (q : Request) (zone : Nat)
  | causeRead (q : Request) (index : Nat)
  | tableRead (q : Request) (table index : Nat)
  | powerLoss
  | unknownCommandCode (q : Request) (code : Nat)
deriving DecidableEq, Repr

end Sys2Proof
end

