-- ==== Sys2Proof/Decode.lean ====
section
/-!
DEFINITION. Commands spelled by words. The JD2416 has no instruction words: spec/opcode_table.json
gives no row any bits, so no word spells a command (log entry 1).
-/

namespace Sys2Proof

/-- The command that a word of `nbits` bits spells: none, as the table gives no row any bits. -/
def decodeTableWord (_nbits _w : Nat) : Option Instr := none

end Sys2Proof
end

