-- ==== Sys2Proof/Config.lean ====
section
/-!
DEFINITION. What the JD2416 fixes: the sizes of its lists and queues, its durations, the factory
defaults of the twelve tables; and the free values: what the manual leaves to the implementation and
no proof may know (opaque constants without a body).
-/

namespace Sys2Proof.Config

/-! ## Sizes -/

/-- The Activation List holds at most 32 records (R17). -/
def actMax : Nat := 32
/-- A record holds at most 16 effect references (R42). -/
def refMax : Nat := 16
/-- A zone claim list holds at most 6 claims (R78). -/
def claimMax : Nat := 6
/-- The command queue holds at most 8 commands (R196). -/
def cmdMax : Nat := 8
/-- The outbound queue holds at most 12 messages (R187). -/
def outMax : Nat := 12
/-- The report queue holds at most 16 reports (R206). -/
def reportMax : Nat := 16
/-- The forward hold holds at most 2 messages (R182). -/
def holdMax : Nat := 2
/-- At most 16 return records are held (R188). -/
def returnMax : Nat := 16
/-- The message store holds 4,194,304 samples (R123). -/
def storeSize : Nat := 4194304

/-! ## Levels -/

/-- The attenuation that mutes (scope, Conventions). -/
def muted : Nat := 120
/-- The ceiling of the target attenuation of an alarm-band winner (R106). -/
def alarmCeiling : Nat := 36
/-- The lowest priority of the alarm band (scope, Conventions). -/
def alarmBand : Nat := 8
/-- The priority of every SILENCE claim (R98). -/
def silencePrio : Nat := 13

/-! ## Durations, in ms -/

/-- Local input debounce (R11). -/
def inputMs : Nat := 200
/-- Key debounce and the fresh take after a RESTART (R146, R158). -/
def keyMs : Nat := 50
/-- The warden's answer deadline (8.4). -/
def answerMs : Nat := 100
/-- The silence of a MISSING step (R130). -/
def missingMs : Nat := 500
/-- The loss deadline of LOCKED (R179). -/
def lossMs : Nat := 4
/-- LOST before ISOLATED (R179). -/
def isolationMs : Nat := 2000
/-- Uninterrupted valid frames that relock from ISOLATED (R179). -/
def relockMs : Nat := 1000
/-- Consecutive valid frames that lock from SEEKING or LOST (R179). -/
def lockFrames : Nat := 32
/-- The deadline of a return record (R188). -/
def returnMs : Nat := 50
/-- The absence that makes a label stale (R192). -/
def staleMs : Nat := 5000
/-- The step of a table written by COMMIT (R202). -/
def commitMs : Nat := 100

/-! ## Factory defaults -/

/-- Node Identity (R183). -/
def defNode : NodeIdentity :=
  { addr := 0, master := false, groups := [], report := 255, isoDelay := 0 }

/-- Detection Zone Map entry (R4). -/
def defDetZone : DetZone := { inUse := false, level := none, sector := none }

/-- Speaker Zone Map entry (R9). -/
def defSpkZone : SpkZone :=
  { inUse := true, levelLo := none, levelHi := none, sector := 7, kind := .named .floor,
    trim := 0, lineCfg := .aOnly, eligible := true }

/-- Local Input Map entry (R10). -/
def defLocalIn : LocalIn := { inUse := false, dz := 0, activeHigh := true, latch := true }

/-- Cause-and-Effect Table entry (R37). -/
def defCeEntry : CeEntry :=
  { inUse := false, dzLo := 0, dzHi := 0, latch := true,
    effects :=
      [{ scope := .named (.fixed 0#24), kinds := ⟨true, false, false, false⟩,
         sector := .named .any, first := .named .evacuate, delay := 0, alert := 0,
         evacuate := 0 }] }

/-- Claim template 0, which the OVERFLOW claim also takes when template 0 is not in use (R23, R40). -/
def defTemplate0 : Template :=
  { inUse := true, source := .named (.tone 0), prio := 12, atten := 0, fallback := none }

/-- Claim templates 1–31 (R40). -/
def defTemplate : Template :=
  { inUse := false, source := .named .none, prio := 0, atten := 0, fallback := none }

/-- No command group. -/
def noGroups : Groups := ⟨false, false, false, false, false, false, false⟩

/-- Originator Table entries 0 and 1 (R92). -/
def defOrigFull : OrigEntry :=
  { reach := allSet, preset := 0, perms := ⟨true, true, true, true, true, true, false⟩,
    outside := false }

/-- Originator Table entry 3 (R92). -/
def defOrigConfig : OrigEntry :=
  { reach := 0#24, preset := 0, perms := { noGroups with config := true }, outside := false }

/-- Originator Table entries 2 and 4–7 (R92). -/
def defOrigNone : OrigEntry := { reach := 0#24, preset := 0, perms := noGroups, outside := false }

/-- Tone cadence 0 (R116). -/
def defCadence0 : Cadence :=
  { inUse := true, freq := 1000, on := 800, off := 200, bursts := 0, pause := 0 }

/-- Tone cadence 1 (R116). -/
def defCadence1 : Cadence :=
  { inUse := true, freq := 1000, on := 500, off := 500, bursts := 0, pause := 0 }

/-- Tone cadences 2 and 3 (R116). -/
def defCadence : Cadence :=
  { inUse := false, freq := 1000, on := 500, off := 500, bursts := 0, pause := 0 }

/-- Phrase Directory entry (R124). -/
def defPhrase : Phrase := { start := 0, capacity := 0, length := 0, valid := false }

/-- Playout program (R126). -/
def defProgram : Program :=
  { inUse := false, mode := .named .demand, steps := [.named (.gap 10)] }

/-- Supervision Limits of one zone (R159). -/
def defLimits : Limits := { aLower := 0, aUpper := 65535, bLower := 0, bUpper := 65535 }

/-- The supervision window in ms (R159). -/
def defWindow : Nat := 100

/-- Warden Settings (R145). -/
def defWarden : WardenSettings := { enabled := false, maxTalk := 60, announce := false }

/-- The factory default of every table. -/
def factory : Tables :=
  { node := defNode
    dzMap := Vector.replicate 512 defDetZone
    spk := Vector.replicate 24 defSpkZone
    inputs := Vector.replicate 8 defLocalIn
    ce := Vector.replicate 256 defCeEntry
    templ := (Vector.replicate 32 defTemplate).set 0 defTemplate0
    orig := #v[defOrigFull, defOrigFull, defOrigNone, defOrigConfig,
               defOrigNone, defOrigNone, defOrigNone, defOrigNone]
    cad := #v[defCadence0, defCadence1, defCadence, defCadence]
    phrases := Vector.replicate 64 defPhrase
    progs := Vector.replicate 4 defProgram
    limits := Vector.replicate 24 defLimits
    window := defWindow
    warden := defWarden }

/-! ## Free values

The manual gives a frame its bytes (R175) but no places for the count, the control state and the flags
within them, and no pattern of idle fill. It gives a ring message a header layout (R181) but no code
numbers, no number for a message kind, no meaning for the last three bits of byte 2, and no place for the
four bits of the acknowledgement union nor a meaning for the other four bits of its byte. It gives the bodies the order of their bytes and the form of a zone set
(R181) but no width of a number and no number for a named value. Each is a free value here, as are the
contents of a non-volatile copy cut short: opaque constants that no proof can look into (log entries 6, 7,
8, 25, 40, 44 and 64). What each of them depends on is the model's choice (log entries 72 and 73). -/

/-- Byte 2 of a frame, from its count and its control state (R175, log entry 7). R175 does not say whether the
byte holds anything beside the two. Model's choice (log entry 72): it is a function of the two alone, so a frame
whose byte 2 no count and state spell cannot be written. -/
opaque byte2 : BitVec 4 → Control → Byte
/-- The four bytes of one flag per slot, presence flags and relay marks alike (R175, log entry 7). -/
opaque flagBytes : BitVec 32 → Vector Byte 4
/-- Idle fill (R175, log entry 8). -/
opaque idleFill : Vector Byte 4
/-- The code byte of a message (header byte 3) for a code that the manual gives by name. -/
opaque codeByte : MsgCode → Byte
/-- The two bits of a message kind (header byte 2). -/
opaque kindBits : MsgKind → BitVec 2
/-- The last three bits of header byte 2 in a message of the node's own (log entry 44). -/
opaque lowBits : BitVec 3
/-- The acknowledgement union byte for TAKEN, its complement, FULL and its complement, and the four bits of
the byte that hold none of them (header byte 7). -/
opaque unionByte : Bool → Bool → Bool → Bool → BitVec 4 → Byte
/-- The four bits of header byte 7 beside the flags in a message of the node's own (log entry 64). -/
opaque spareBits : BitVec 4
/-- How many bytes more than its range needs a number takes in a body, by code and position alone. Model's
choice (log entry 73): numbers at one position under one code share their width, an argument of a command and a
value of its reply's data among them. -/
opaque extraBytes : MsgCode → Nat → Nat
/-- The byte of a value that the manual gives by its name, the k-th of its list, by code and position alone.
Model's choice (log entry 73): the k-th names of two lists share their byte at one position under one code, a
reply's result and the first value of its data among them. -/
opaque nameByte : MsgCode → Nat → Nat → Byte
/-- The byte of a level offset, which may be negative (R46). -/
opaque offsetByte : Int → Byte
/-- The non-volatile contents of a table whose write was cut short, from the former contents and those
being written; `none` stands for the former contents. The manual says only that their check fails
(R201, R202, log entry 40). -/
opaque cutShort : Tables → Tables → Option Tables

end Sys2Proof.Config
end

