-- ==== Sys2Proof/Machine/State.lean ====
section
/-!
DEFINITION. The state of the JD2416: every table, list, queue, timer, flag, counter and pin the
manual gives its thirteen blocks, as plain data, and the state after reset. Relays, feed selectors,
the fault indicator, the alarm-band count and the free slot count follow from these fields and are
computed in Machine/Flags.lean and Machine/Ring.lean (log entry 34).
-/

namespace Sys2Proof.Machine

/-- Whether the router is without power or held in reset, loading its tables, or running (R203). -/
inductive Phase where
  | off | loading | running
deriving DecidableEq, Repr

/-- The pins whose electrical level the router reads: address straps, local cause inputs, the
press-to-talk key. The amplifier health inputs stand in `Health`. -/
structure Pins where
  straps    : BitVec 8
  inputHigh : Vector Bool 8
  keyClosed : Bool
deriving DecidableEq, Repr

/-- The debounce record of one local input (R11): the taken state and the pending change's
deadline. -/
structure Debounce where
  active : Bool
  due    : Option Nat
deriving DecidableEq, Repr

/-- One zone output record (R103). -/
structure ZoneOut where
  source      : Source
  fallback    : Option Fallback
  prio        : Option Nat
  atten       : Option Nat
  effective   : Source
  substituted : Bool
  target      : Nat
  current     : Nat
deriving DecidableEq, Repr

/-- The phase of a cadence (R117). -/
inductive CadPhase where
  | on | off | pause
deriving DecidableEq, Repr

/-- The run state of one cadence (R118). -/
structure CadRun where
  listeners : Nat
  running   : Bool
  phase     : CadPhase
  burst     : Nat
  remaining : Nat
deriving DecidableEq, Repr

/-- The state of a playout channel (R128). -/
inductive ChanState where
  | idle | running | waiting | ended
deriving DecidableEq, Repr

/-- What the current step of a running channel is doing (R128). -/
inductive StepKind where
  | phrase | gap | missing
deriving DecidableEq, Repr

/-- The run state of one playout channel (R128). `late`, `owed` and `due` are the model's own (log entry 19):
the sample times by which a GAP or MISSING step ends after its last millisecond, as it began after one, the
sample times that have passed since the step ended, which the next step still has to give, and the mark that a
PHRASE step has given its last sample, so that PLAYOUT_STEP_END, in which remaining reaches 0, is what comes
next. -/
structure ChanRun where
  state     : ChanState
  step      : Nat
  kind      : StepKind
  addr      : Nat
  remaining : Nat
  late      : Nat
  owed      : Nat
  due       : Bool
  listeners : Nat
deriving DecidableEq, Repr

/-- The message store: (address, sample) pairs at strictly rising addresses, none of them the value
an unlisted address reads as (R123, log entry 14). -/
abbrev Store := List (Nat × Sample)

/-- The capture record (R140). -/
structure Capture where
  phrase     : Nat
  slot       : Nat
  maxSamples : Nat
  recorded   : Nat
  requester  : Request
deriving DecidableEq, Repr

/-- The key state of the warden station (R147). -/
inductive KeyState where
  | released | pressed | lockedOut
deriving DecidableEq, Repr

/-- The warden slot record (8.4): a request awaited or cancelled carries its answer deadline. -/
inductive SlotState where
  | none
  | requested (deadline : Nat)
  | cancelled (deadline : Nat)
  | holding (slot label : Nat)
deriving DecidableEq, Repr

/-- The fresh take set by a RESTART (R158): its deadline, and whether the key has stood closed since
the RESTART. -/
structure FreshTake where
  deadline : Nat
  closed   : Bool
deriving DecidableEq, Repr

/-- The Warden Unit (R146, R147, R150, 8.4, R158); `cleared` says that a SLOTS CLEARED notice has taken the
slot of the press taken last, for which no new request is made (R154). -/
structure Warden where
  taken   : Bool
  due     : Option Nat
  key     : KeyState
  talk    : Option Nat
  slot    : SlotState
  cleared : Bool
  fresh   : Option FreshTake
deriving DecidableEq, Repr

/-- The verdict on a line at a window end (R161). -/
inductive LineVerdict where
  | low | inBand | high
deriving DecidableEq, Repr

/-- One line monitor (R161). -/
structure LineMon where
  state     : LineState
  pulses    : Nat
  hold      : Option Nat
  candidate : Option LineVerdict
  run       : Nat
  whole     : Bool
deriving DecidableEq, Repr

/-- The lines of one zone: the monitor of line A, the monitor of line B where the zone has one, and
OUTPUT LOST (R161, R164). -/
structure ZoneLines where
  a    : LineMon
  b    : Option LineMon
  lost : Bool
deriving DecidableEq, Repr

/-- The health input and record of one amplifier channel (R165): the input's level, whether it was
inactive at any moment of the window, the failed flag and the debounce. -/
structure Health where
  active    : Bool
  dropped   : Bool
  failed    : Bool
  candidate : Option Bool
  run       : Nat
  whole     : Bool
deriving DecidableEq, Repr

/-- A return record (R188). -/
structure ReturnRec where
  tag      : Nat
  deadline : Nat
deriving DecidableEq, Repr

/-- A message that ring-out is carrying: the bytes still to be sent, whether its START frame is still
to come, whether it is the node's own, and when its sending began (R182, R187, R188). -/
structure Tx where
  tag   : Nat
  own   : Bool
  fresh : Bool
  begun : Nat
  rest  : List Byte
deriving DecidableEq, Repr

/-- The Ring Interface (chapter 10). `rx` is the part of a message received so far; `arrived` holds the
bytes of the messages that are complete and still to be acted on, oldest first (R176, R182). -/
structure Rif where
  ring     : RingState
  since    : Nat
  run      : Nat
  runStart : Option Nat
  lastOk   : Nat
  lossAt   : Nat
  heard    : Vector (Option Sample) 32
  addr     : Nat
  master   : Bool
  rx       : Option (List Byte)
  arrived  : List (List Byte)
  passing  : Bool
  fwd      : List Message
  tx       : Option Tx
  tag      : Nat
  returns  : List ReturnRec
  lost     : Nat
  ringOut  : Option Frame
  count    : BitVec 4
  carry    : Option Frame
deriving DecidableEq, Repr

/-- One entry of the Slot Allocation Table (R189): label and holder while HELD; the announced flag
while FREE; the absence time. `freedFrom` is the model's own: the label a FREE slot was taken from,
kept so that a notice names its slots (log entry 28). -/
structure DynSlot where
  held      : Option (Nat × Nat)
  announced : Bool
  absence   : Nat
  freedFrom : Option Nat
deriving DecidableEq, Repr

/-- The Slot Allocation Table: entry i is slot 16 + i (R189). -/
structure SlotTable where
  entries : Vector DynSlot 16
  pending : Cleared
deriving DecidableEq, Repr

/-- A commit in flight (R202): its requester, the table in its step with the end of the step and the
contents being written, and the number of tables written. -/
structure Commit where
  requester : Request
  table     : Nat
  deadline  : Nat
  image     : Tables
  written   : Nat
deriving DecidableEq, Repr

/-- The state of the router. `reserved` is the model's own: the places of the outbound queue that the
command in execution holds for its reply, and 0 between steps (R187, R196, log entry 41). So is
`sampleTimes`: the frames taken while LOCKED since the last millisecond (R129, log entry 19). `pending` is
the queue of steps that wait to be taken (log entry 1). -/
structure State where
  phase          : Phase
  now            : Nat
  msDue          : Bool
  sampleTimes    : Nat
  pins           : Pins
  work           : Tables
  nv             : Tables
  nvOk           : Vector Bool 12
  invalid        : Vector Bool 12
  acts           : List ActRecord
  overflow       : Bool
  defaultMode    : Bool
  inputs         : Vector Debounce 8
  hold           : Bool
  isoTimer       : Option Nat
  isoEscalated   : Bool
  lists          : Vector (List Claim) 24
  outs           : Vector ZoneOut 24
  cads           : Vector CadRun 4
  chans          : Vector ChanRun 4
  store          : Store
  capture        : Option Capture
  phraseMissing  : Bool
  warden         : Warden
  lines          : Vector ZoneLines 24
  amps           : Vector Health 24
  standbyAmps    : Vector Health 2
  serving        : Vector (Option Zone) 2
  windowEnd      : Option Nat
  rif            : Rif
  slots          : SlotTable
  cmdQueue       : List Entry
  deferred       : List OutMsg
  outbound       : List OutMsg
  reserved       : Nat
  reports        : List Report
  reportOverflow : Bool
  alarmLock      : Bool
  commit         : Option Commit
  restart        : Option Bool
  pending        : List Instr
deriving DecidableEq, Repr

/-- The faults of the router. No step of the JD2416 ends in one: the manual gives every step an
effect, and a condition it calls a fault is a flag, a state or a report (inventory, Faults). The
type is closed and holds nothing, so a fault cannot be raised; this is safe. -/
inductive Fault where
deriving DecidableEq, Repr

/-- The refusals of the router. -/
inductive Refusal where
  /-- Raised by `exec` for a row that has no meaning yet, and by nothing else; safe, as a run stops
  there. No arm of `exec` raises it now. -/
  | notModelled (mnemonic : String)
deriving DecidableEq, Repr

/-! ## Values at cold start -/

/-- A zone output record at cold start, and of a zone not in use (R103). -/
def mutedOut : ZoneOut :=
  { source := .none, fallback := none, prio := none, atten := none, effective := .none,
    substituted := false, target := Config.muted, current := Config.muted }

/-- A stopped cadence with its stored on-time (R122); it stands at the start of ON, as R119 says of an entry
not in use, and as the model chooses for one in use (log entry 35). -/
def stoppedCad (on : Nat) : CadRun :=
  { listeners := 0, running := false, phase := .on, burst := 1, remaining := on }

/-- An idle channel (R128); the fields of a step not in progress hold zeros (log entry 35). -/
def idleChan : ChanRun :=
  { state := .idle, step := 0, kind := .gap, addr := 0, remaining := 0, late := 0, owed := 0, due := false,
    listeners := 0 }

/-- A line monitor at cold start, and the line states of a zone not in use (R6, R174). -/
def freshMon (whole : Bool) : LineMon :=
  { state := .untested, pulses := 0, hold := none, candidate := none, run := 0, whole := whole }

/-- A health record at cold start over its input's level (R174). -/
def freshHealth (active whole : Bool) : Health :=
  { active := active, dropped := !active, failed := false, candidate := none, run := 0,
    whole := whole }

/-- The Warden Unit at cold start (R158). -/
def coldWarden : Warden :=
  { taken := false, due := none, key := .released, talk := none, slot := .none, cleared := false,
    fresh := none }

/-- The Ring Interface at cold start (R195); counters of the frames received hold zeros (log entry 36). The
node address in use and the master role are fixed when the load completes (R183); until then the node is
unaddressed and not the master, which is the model's choice (log entry 71). -/
def coldRif : Rif :=
  { ring := .bypass, since := 0, run := 0, runStart := none, lastOk := 0, lossAt := 0,
    heard := Vector.replicate 32 none, addr := 0, master := false, rx := none, arrived := [],
    passing := false, fwd := [], tx := none, tag := 0, returns := [], lost := 0, ringOut := none, count := 0#4,
    carry := none }

/-- The Slot Allocation Table at cold start: every slot FREE and not announced, pending ALL (R189). -/
def coldSlots : SlotTable :=
  { entries := Vector.replicate 16
      { held := none, announced := false, absence := 0, freedFrom := none }
    pending := .all }

/-- The router as a cold start leaves it (R203): loading, in BYPASS, every block at its cold start
values, over the non-volatile copies, the message store and the pins, which a cold start does not
change (R123, R202). The working copies stand at the factory default until the load completes (log
entry 13). -/
def coldState (pins : Pins) (nv : Tables) (nvOk : Vector Bool 12) (store : Store)
    (amps : Vector Bool 24) (standby : Vector Bool 2) (pending : List Instr) : State :=
  { phase := .loading
    now := 0
    msDue := false
    sampleTimes := 0
    pins := pins
    work := Config.factory
    nv := nv
    nvOk := nvOk
    invalid := Vector.replicate 12 false
    acts := []
    overflow := false
    defaultMode := false
    inputs := Vector.replicate 8 { active := false, due := none }
    hold := false
    isoTimer := none
    isoEscalated := false
    lists := Vector.replicate 24 []
    outs := Vector.replicate 24 mutedOut
    cads := updAll Config.factory.cad fun c => stoppedCad c.on
    chans := Vector.replicate 4 idleChan
    store := store
    capture := none
    phraseMissing := false
    warden := coldWarden
    lines := Vector.replicate 24 { a := freshMon true, b := none, lost := false }
    amps := updAll amps fun a => freshHealth a true
    standbyAmps := updAll standby fun a => freshHealth a true
    serving := Vector.replicate 2 none
    windowEnd := none
    rif := coldRif
    slots := coldSlots
    cmdQueue := []
    deferred := []
    outbound := []
    reserved := 0
    reports := []
    reportOverflow := false
    alarmLock := false
    commit := none
    restart := none
    pending := pending }

/-- The machine right after reset: the cold start of a router whose non-volatile copies have never
been written, so that every check fails (R201); straps 0, local inputs low, the key open, every
amplifier reporting itself working (log entries 11 and 12). -/
def State.reset : State :=
  coldState { straps := 0#8, inputHigh := Vector.replicate 8 false, keyClosed := false }
    Config.factory (Vector.replicate 12 false) [] (Vector.replicate 24 true)
    (Vector.replicate 2 true) []

end Sys2Proof.Machine
end

