-- ==== Sys2Proof/Machine/Bodies.lean ====
section
/-!
DEFINITION. The bodies of ring messages (R181, R197, R206): the bytes of numbers and zone sets, the
values each body carries in the order its rule lists them, and the code and kind of a message. Widths of
numbers and the numbers of named values are free (log entry 6).
-/

namespace Sys2Proof.Machine

/-! ## Values and their bytes (R181) -/

/-- One value of a body: a whole number whose range needs `least` bytes, a set of speaker zones, a value
that the manual gives by its name as the k-th of its list, or a level offset. -/
inductive Item where
  | number (least n : Nat)
  | zones (zs : ZoneSet)
  | named (k : Nat)
  | offset (d : Int)
deriving DecidableEq, Repr

/-- A number in `w` bytes, most significant byte first (R181). -/
def numBytes (w n : Nat) : List Byte :=
  (List.range w).map fun i => BitVec.ofNat 8 (n / 256 ^ (w - 1 - i))

/-- A set of speaker zones in 3 bytes: zone n is bit n mod 8 of byte n / 8 (R181). -/
def zoneBytes (zs : ZoneSet) : List Byte :=
  [zs.extractLsb' 0 8, zs.extractLsb' 8 8, zs.extractLsb' 16 8]

/-- The bytes of the value at a position of a body; the free width and the free name byte are those of the code
and the position alone (model's choice, log entry 73). -/
def itemBytes (c : MsgCode) : Item × Nat → List Byte
  | (.number least n, i) => numBytes (least + Config.extraBytes c i) n
  | (.zones zs, _) => zoneBytes zs
  | (.named k, i) => [Config.nameByte c i k]
  | (.offset d, _) => [Config.offsetByte d]

/-- The bytes of a run of values, in order (R181); the positions of a run begin at 0 (log entry 73). -/
def itemsBytes (c : MsgCode) (l : List Item) : List Byte := l.zipIdx.flatMap (itemBytes c)

/-- Yes or no. -/
def flagItem (b : Bool) : Item := .named (if b then 1 else 0)

/-- A value that may be absent: whether it is there, and the value. -/
def optItems {α : Type} (f : α → List Item) : Option α → List Item
  | none => [flagItem false]
  | some a => flagItem true :: f a

/-- A list of values: how many, and each in its order. -/
def listItems {α : Type} (f : α → List Item) (l : List α) : List Item :=
  .number 1 l.length :: l.flatMap f

/-- A coded field: the value it names, or the code as it stands. -/
def codedItems {α : Type} (f : α → List Item) : Coded α → List Item
  | .named a => f a
  | .other n => [.number 1 n]

/-- A whole number that may be absent, an unknown level or sector among them (R1, log entry 70). -/
def optNumber (least : Nat) (n : Option Nat) : List Item := optItems (fun k => [.number least k]) n

/-! ## Named values -/

/-- A kind of zone (R5). -/
def kindItem : Kind → Item
  | .floor => .named 0
  | .stair => .named 1
  | .lift => .named 2
  | .refuge => .named 3

/-- A line configuration (R5). -/
def lineCfgItem : LineCfg → Item
  | .aOnly => .named 0
  | .aAndB => .named 1

/-- A stage (R36). -/
def stageItem : Stage → Item
  | .alert => .named 0
  | .evacuate => .named 1

/-- A source, with its number where it has one (R77; the form is log entry 70). -/
def sourceItems : Source → List Item
  | .ring n => [.named 0, .number 1 n]
  | .playout n => [.named 1, .number 1 n]
  | .tone n => [.named 2, .number 1 n]
  | .warden => [.named 3]
  | .none => [.named 4]

/-- A fallback (R77; the form is log entry 70). -/
def fallbackItems : Fallback → List Item
  | .playout n => [.named 1, .number 1 n]
  | .tone n => [.named 2, .number 1 n]

/-- Owner kind and owner identity (R77; the form is log entry 70). -/
def ownerItems : Owner → List Item
  | .cause dz => [.named 0, .number 2 dz]
  | .command cls => [.named 1, .number 1 cls.val]
  | .silence cls => [.named 2, .number 1 cls.val]
  | .warden => [.named 3]
  | .overflow => [.named 4]

/-- A line state (R161). -/
def lineStateItem : LineState → Item
  | .untested => .named 0
  | .normal => .named 1
  | .opened => .named 2
  | .short => .named 3

/-- One of a zone's lines. -/
def lineItem : Line → Item
  | .a => .named 0
  | .b => .named 1

/-- A speaker zone by its number. -/
def zoneItem (z : Zone) : Item := .number 1 z.val

/-- An amplifier channel (R165). -/
def channelItems : AmpChannel → List Item
  | .zone z => [.named 0, zoneItem z]
  | .standby k => [.named 1, .number 1 k.val]

/-- A standby channel's state (R166). -/
def poolItems : PoolState → List Item
  | .free => [.named 0]
  | .serving z => [.named 1, zoneItem z]
  | .failed => [.named 2]

/-- A zone's standby standing (R173). -/
def standingItems : Standing → List Item
  | .notFailed => [.named 0]
  | .served k => [.named 1, .number 1 k.val]
  | .waiting => [.named 2]

/-- A ring state (10.2). -/
def ringStateItem : RingState → Item
  | .bypass => .named 0
  | .seeking => .named 1
  | .locked => .named 2
  | .lost => .named 3
  | .isolated => .named 4

/-- A result (R197). -/
def resultItem : Result → Item
  | .done => .named 0
  | .doneTrimmed => .named 1
  | .notPermitted => .named 2
  | .locked => .named 3
  | .busy => .named 4
  | .badArgument => .named 5
  | .inUse => .named 6
  | .notMaster => .named 7
  | .notHolder => .named 8
  | .aborted => .named 9
  | .granted => .named 10
  | .denied => .named 11
  | .badCount => .named 12

/-! ## The entries of the tables -/

/-- Whether each of the four kinds is in a kind filter (R36), a named value per kind in the order FLOOR,
STAIR, LIFT, REFUGE. The manual gives a kind filter no form in a body: model's choice, log entry 69. -/
def kindSetItems (k : KindSet) : List Item :=
  [flagItem k.floor, flagItem k.stair, flagItem k.lift, flagItem k.refuge]

/-- The scope of an effect (R36; the form is log entry 70). -/
def scopeItems : Scope → List Item
  | .relative lo hi => [.named 0, .offset lo, .offset hi]
  | .fixed zs => [.named 1, .zones zs]

/-- A sector filter (R36). -/
def sectorItems : SectorFilter → List Item
  | .any => [.named 0]
  | .same => [.named 1]

/-- An effect (3.1). -/
def effectItems (e : Effect) : List Item :=
  codedItems scopeItems e.scope ++ kindSetItems e.kinds ++ codedItems sectorItems e.sector ++
    codedItems (fun st => [stageItem st]) e.first ++
    [.number 2 e.delay, .number 1 e.alert, .number 1 e.evacuate]

/-- The command groups of a permission set (5.6), each by a value that says whether it is in the set (log
entry 56). -/
def groupItems (g : Groups) : List Item :=
  [flagItem g.cause, flagItem g.reset, flagItem g.zone, flagItem g.silence, flagItem g.stage,
   flagItem g.play, flagItem g.config]

/-- A mode (7.3). -/
def modeItems : Mode → List Item
  | .once => [.named 0]
  | .repeat => [.named 1]
  | .demand => [.named 2]

/-- A step of a program (7.3). -/
def stepItems : PStep → List Item
  | .phrase n => [.named 0, .number 1 n]
  | .gap ms => [.named 1, .number 2 ms]

/-- The contents of one entry, its fields in the order of its table (R200). A permission set ends with whether
it names a group outside the seven (R91, log entry 56). -/
def contentsItems : Contents → List Item
  | .node e =>
    [.number 1 e.addr, flagItem e.master] ++ listItems (fun g => [.number 1 g]) e.groups ++
      [.number 1 e.report, .number 2 e.isoDelay]
  | .detZone e => flagItem e.inUse :: (optNumber 1 e.level ++ optNumber 1 e.sector)
  | .spkZone e =>
    flagItem e.inUse :: (optNumber 1 e.levelLo ++ optNumber 1 e.levelHi ++ [.number 1 e.sector] ++
      codedItems (fun k => [kindItem k]) e.kind ++
      [.number 1 e.trim, lineCfgItem e.lineCfg, flagItem e.eligible])
  | .localIn e => [flagItem e.inUse, .number 2 e.dz, flagItem e.activeHigh, flagItem e.latch]
  | .ceEntry e =>
    [flagItem e.inUse, .number 2 e.dzLo, .number 2 e.dzHi, flagItem e.latch] ++
      listItems effectItems e.effects
  | .template e =>
    flagItem e.inUse :: (codedItems sourceItems e.source ++ [.number 1 e.prio, .number 1 e.atten] ++
      optItems (codedItems fallbackItems) e.fallback)
  | .originator e => [.zones e.reach, .number 1 e.preset] ++ groupItems e.perms ++ [flagItem e.outside]
  | .cadence e =>
    [flagItem e.inUse, .number 2 e.freq, .number 2 e.on, .number 2 e.off, .number 1 e.bursts,
     .number 2 e.pause]
  | .phrase e => [.number 3 e.start, .number 3 e.capacity, .number 3 e.length, flagItem e.valid]
  | .program e =>
    flagItem e.inUse :: (codedItems modeItems e.mode ++ listItems (codedItems stepItems) e.steps)
  | .limits e => [.number 2 e.aLower, .number 2 e.aUpper, .number 2 e.bLower, .number 2 e.bUpper]
  | .window ms => [.number 2 ms]
  | .warden e => [flagItem e.enabled, .number 2 e.maxTalk, flagItem e.announce]

/-! ## Commands -/

/-- The arguments of a command, in the order its rule names them. CAUSE RESET and ESCALATE NOW carry a
detection zone or ALL (R29, R64). The manual gives ALL no form there: it stands as an absent detection zone,
which is the model's choice (log entry 68). -/
def commandItems : CmdBody → List Item
  | .causeOn dz | .causeOff dz => [.number 2 dz]
  | .causeReset dz | .escalateNow dz => optNumber 2 (some dz)
  | .causeResetAll | .escalateNowAll => optNumber 2 none
  | .holdStages | .releaseStages | .captureStop | .commit | .restart | .clearFaults | .slotClearAll
  | .statusRead | .unknown _ => []
  | .zoneSet zs yield => [.zones zs, flagItem yield]
  | .zoneClear zs | .silence zs | .resound zs => [.zones zs]
  | .playStart n | .playStop n => [.number 1 n]
  | .capture p slot ms => [.number 1 p, .number 1 slot, .number 3 ms]
  | .tableWrite t i c => [.number 1 t, .number 2 i] ++ contentsItems c
  | .zoneRead z => [.number 1 z]
  | .causeRead i => [.number 1 i]
  | .tableRead t i => [.number 1 t, .number 2 i]
  | .slotRequest n => [.number 1 n]
  | .slotRelease l => [.number 1 l]

/-- The command whose code a COMMAND message or a reply carries (R197). -/
def codeOf : CmdBody → CmdCode
  | .causeOn _ => .causeOn
  | .causeOff _ => .causeOff
  | .causeReset _ => .causeReset
  | .causeResetAll => .causeReset
  | .escalateNow _ => .escalateNow
  | .escalateNowAll => .escalateNow
  | .holdStages => .holdStages
  | .releaseStages => .releaseStages
  | .zoneSet _ _ => .zoneSet
  | .zoneClear _ => .zoneClear
  | .silence _ => .silence
  | .resound _ => .resound
  | .playStart _ => .playStart
  | .playStop _ => .playStop
  | .capture _ _ _ => .capture
  | .captureStop => .captureStop
  | .tableWrite _ _ _ => .tableWrite
  | .commit => .commit
  | .restart => .restart
  | .clearFaults => .clearFaults
  | .slotClearAll => .slotClearAll
  | .statusRead => .statusRead
  | .zoneRead _ => .zoneRead
  | .causeRead _ => .causeRead
  | .tableRead _ _ => .tableRead
  | .slotRequest _ => .slotRequest
  | .slotRelease _ => .slotRelease
  | .unknown n => .unknown n

/-- A command's code as a message code; a code that names no command stands by its number. -/
def cmdMsgCode : CmdCode → MsgCode
  | .unknown n => .other n
  | c => .command c

/-! ## The records that reads return (R34, R100, R113, R173, R205) -/

/-- The fault summary, in the order of R173, which lists OUTPUT LOST before the standby channels (log entry
67). -/
def faultItems (f : FaultSummary) : List Item :=
  [.number 1 f.linesOpen, .number 1 f.linesShort, .zones f.ampFailed, .zones f.outputLost] ++
    poolItems f.standby[(0 : Fin 2)] ++ poolItems f.standby[(1 : Fin 2)] ++
    [flagItem f.phraseMissing, flagItem f.lockedOut, flagItem f.indicator]

/-- The node status record, in the order of R205. -/
def statusItems (r : StatusRecord) : List Item :=
  [ringStateItem r.ring, flagItem r.master, .number 1 r.node, flagItem r.alarmLock,
   flagItem r.overflow, flagItem r.defaultMode, .number 1 r.count, flagItem r.hold] ++
    optItems (fun c => [.number 1 c.1, .number 1 c.2]) r.commit ++
    optItems (fun c => [.number 1 c.1, .number 1 c.2.1, .number 3 c.2.2]) r.capture ++
    faultItems r.faults ++ r.tableInvalid.toList.map flagItem ++
    [.number 1 r.lost, flagItem r.reportOverflow]

/-- A claim as ZONE READ shows it (R100). -/
def claimItems (c : Claim) : List Item :=
  ownerItems c.owner ++ sourceItems c.source ++ optItems fallbackItems c.fallback ++
    [.number 1 c.prio, .number 1 c.atten] ++ optItems (fun st => [stageItem st]) c.stage ++
    [.number 1 c.placed]

/-- A line's state and hold value (R173). -/
def lineItems (l : LineState × Option Nat) : List Item := lineStateItem l.1 :: optNumber 2 l.2

/-- A zone's reading: the list of R100, the output fields of R113, the line fields of R173. -/
def zoneItems (r : ZoneReading) : List Item :=
  flagItem r.inUse :: (listItems claimItems r.claims ++ sourceItems r.effective ++
    [flagItem r.substituted, .number 1 r.target, .number 1 r.current, lineCfgItem r.lineCfg] ++
    lineItems r.lineA ++ optItems lineItems r.lineB ++
    [flagItem r.outputLost, flagItem r.ampFailed] ++ standingItems r.standing)

/-- An effect reference as CAUSE READ shows it (R34). -/
def refItems (f : Ref) : List Item :=
  [.number 1 f.entry, .number 1 f.effect, stageItem f.stage] ++ optNumber 3 f.timer

/-- An activation record as CAUSE READ shows it (R15, R34). -/
def recordItems (r : ActRecord) : List Item :=
  [.number 2 r.dz, .number 1 r.cls.val, .number 1 r.origin, .number 1 r.time] ++
    optNumber 1 r.level ++ optNumber 1 r.sector ++
    [flagItem r.latched, flagItem r.restored, flagItem r.truncated] ++ listItems refItems r.refs

/-- The data of a reply, in the order the owning rule lists them (R197). A share of a reply in parts is
bytes already and holds no value of its own. -/
def dataItems : ReplyData → List Item
  | .none | .overflowed | .share _ => []
  | .trimmed n | .freeCount n | .written n => [.number 1 n]
  | .captured n => [.number 3 n]
  | .granted slots label free =>
    listItems (fun n => [.number 1 n]) slots ++ [.number 1 label, .number 1 free]
  | .status r => statusItems r
  | .zone r => zoneItems r
  | .cause r => optItems recordItems r
  | .table c invalid uncommitted => contentsItems c ++ [flagItem invalid, flagItem uncommitted]

/-- The bytes of a reply's data. Twelve parts carry 336 bytes at most, and a reply of more could never be
placed (R187, R196, log entry 25). The overflow indication of CAUSE ON is one value where it is set, and no
byte where it is not (R21, log entry 65). -/
def dataBytes (c : CmdCode) : ReplyData → List Byte
  | .share bs => bs
  | .overflowed => itemsBytes (cmdMsgCode c) [flagItem true]
  | d => (itemsBytes (cmdMsgCode c) (dataItems d)).take 336

/-- The body of a reply: tag and result, in a reply of several parts the part number and the number of
parts, and the data or the part's share of them (R197). The result and the data are each a run of values whose
positions begin at 0, as those of the command's arguments do under the same code. R197 gives no bytes; that the
k-th result so shares a byte with the k-th name of the first data value, and an argument its width with the
value of the data at its position, is the model's choice (log entry 73). -/
def replyBytes (r : Reply) : List Byte :=
  let head := BitVec.ofNat 8 r.tag :: itemsBytes (cmdMsgCode r.code) [resultItem r.result]
  let part := if r.parts ≤ 1 then [] else [BitVec.ofNat 8 r.part, BitVec.ofNat 8 r.parts]
  head ++ part ++ dataBytes r.code r.data

/-! ## Reports and notices (R101, R193, R206) -/

/-- The detail of a fault (R173). -/
def faultDetailItem : FaultDetail → Item
  | .opened => .named 0
  | .short => .named 1
  | .ampFailed => .named 2

/-- The subject of a fault (R173). -/
def faultSubjectItems : FaultSubject → List Item
  | .line z l => [.named 0, zoneItem z, lineItem l]
  | .channel c => .named 1 :: channelItems c

/-- The detail of a STANDBY CHANGE (R168, R169). -/
def standbyItems : StandbyDetail → List Item
  | .assigned z => [.named 0, zoneItem z]
  | .released z => [.named 1, zoneItem z]
  | .preempted y z => [.named 2, zoneItem y, zoneItem z]
  | .channelFailed z => [.named 3, zoneItem z]

/-- Subject and detail of a WARDEN LOCAL ONLY (R152–R154); CLEARED alone has a subject, the slot. -/
def localOnlyItems : LocalOnly → List Item
  | .noRoom => [.named 0]
  | .denied n => [.named 1, .number 1 n]
  | .noAnswer => [.named 2]
  | .cleared slot label => [.number 1 slot, .named 3, .number 1 label]

/-- Subject and detail of a report (R206). -/
def reportItems : ReportBody → List Item
  | .coldStart failing node => listItems (fun n => [.number 1 n]) failing ++ [.number 1 node]
  | .warmRestart n done => [.number 1 n, flagItem done]
  | .overflow dz cls => [.number 2 dz, .number 1 cls.val]
  | .causeEscalated dz entry effect => [.number 2 dz, .number 1 entry, .number 1 effect]
  | .claimDisplaced z o prio | .claimRejected z o prio => zoneItem z :: (ownerItems o ++ [.number 1 prio])
  | .faultRaised s d | .faultCleared s d => faultSubjectItems s ++ [faultDetailItem d]
  | .outputLost z a b => [zoneItem z, lineStateItem a] ++ optItems (fun st => [lineStateItem st]) b
  | .standbyChange k d => .number 1 k.val :: standbyItems d
  | .forcedRelease t => [.number 2 t]
  | .wardenOnAir slot label => [.number 1 slot, .number 1 label]
  | .wardenLocalOnly d => localOnlyItems d
  | .phraseMissing ch p st => [.number 1 ch, .number 1 p, .number 1 st]
  | .isolationEntered => []
  | .isolationLeft ms => [.number 1 ms]

/-- The kind of a report (R206). -/
def reportKind : ReportBody → ReportKind
  | .coldStart _ _ => .coldStart
  | .warmRestart _ _ => .warmRestart
  | .overflow _ _ => .overflow
  | .causeEscalated _ _ _ => .causeEscalated
  | .claimDisplaced _ _ _ => .claimDisplaced
  | .claimRejected _ _ _ => .claimRejected
  | .faultRaised _ _ => .faultRaised
  | .faultCleared _ _ => .faultCleared
  | .outputLost _ _ _ => .outputLost
  | .standbyChange _ _ => .standbyChange
  | .forcedRelease _ => .forcedRelease
  | .wardenOnAir _ _ => .wardenOnAir
  | .wardenLocalOnly _ => .wardenLocalOnly
  | .phraseMissing _ _ _ => .phraseMissing
  | .isolationEntered => .isolationEntered
  | .isolationLeft _ => .isolationLeft

/-- The labels a notice carries, or the marker ALL (R193; the form is log entry 70). -/
def clearedItems : Cleared → List Item
  | .all => [.named 0]
  | .labels ls => .named 1 :: listItems (fun l => [.number 1 l]) ls

/-! ## Kind, code and body of a message -/

/-- The kind of a message (R181). -/
def kindOf : Content → MsgKind
  | .command _ _ => .command
  | .reply _ | .foreignReply _ => .reply
  | .report _ | .foreignReport _ => .report
  | .notice _ => .notice

/-- The code of a message (R181). -/
def msgCodeOf : Content → MsgCode
  | .command _ b => cmdMsgCode (codeOf b)
  | .reply r => cmdMsgCode r.code
  | .report r => .report (reportKind r.body)
  | .notice (.slotsCleared _) => .slotsCleared
  | .notice (.other n) | .foreignReply n | .foreignReport n => .other n

/-- The code byte of a message: a free value for a code that the manual names, the number itself for
another (R181). -/
def codeByteOf (c : Content) : Byte :=
  match msgCodeOf c with
  | .other n => BitVec.ofNat 8 n
  | k => Config.codeByte k

/-- The body that a message's kind, code and values call for, at most 32 bytes long (R181, log entry 6);
none where the manual gives the body no content: a malformed command, an unknown code. -/
def bodyOf : Content → Option (List Byte)
  | .command formOk b =>
    match formOk, b with
    | false, _ | true, .unknown _ => none
    | true, b => some ((itemsBytes (cmdMsgCode (codeOf b)) (commandItems b)).take 32)
  | .reply r => some ((replyBytes r).take 32)
  | .report r =>
    some ((itemsBytes (.report (reportKind r.body))
      (reportItems r.body ++ [.number 1 r.time])).take 32)
  | .notice (.slotsCleared c) => some ((itemsBytes .slotsCleared (clearedItems c)).take 32)
  | .notice (.other _) | .foreignReply _ | .foreignReport _ => none

/-- A message's body is the one its content calls for, where the manual gives the body a content. -/
def bodyFitsContent (c : Content) (body : List Byte) : Bool :=
  match bodyOf c with
  | some b => body == b
  | none => true

end Sys2Proof.Machine
end

