-- ==== Sys2Proof/Machine/Ops.lean ====
section
/-!
DEFINITION. The named operations that every block shares: the outcome of a step whose condition may
not hold, the report queue, the outbound queue with its deferred replies, the replies of the Command
Engine, and the message store.
-/

namespace Sys2Proof.Machine

/-- What a step of the router answers. -/
abbrev Out := Host.Outcome State Fault Refusal

/-- A step that comes about only while its condition holds. Where the condition does not hold the
router has no such step, and the command leaves the state as it stands (log entry 3). -/
def whenever (p : Bool) (f : State → State) (s : State) : Out :=
  .next (if p then f s else s)

/-- The start-up load has completed and the router is running (R203). -/
def State.running (s : State) : Bool := s.phase == .running

/-- The RIF is LOCKED. -/
def State.locked (s : State) : Bool := s.rif.ring == .locked

/-! ## Reports -/

/-- A block queues a report: a report that finds 16 held is dropped and sets REPORT OVERFLOW
(R206). -/
def report (b : ReportBody) (s : State) : State :=
  if s.reports.length < Config.reportMax then
    { s with reports := s.reports ++ [{ body := b, time := s.now }] }
  else { s with reportOverflow := true }

/-! ## The outbound queue -/

/-- The number of free places of the outbound queue, without those that the command in execution holds
for its reply (R187, R196). -/
def State.room (s : State) : Nat := Config.outMax - s.outbound.length - s.reserved

/-- A message put at the end of the outbound queue. -/
def place (m : OutMsg) (s : State) : State := { s with outbound := s.outbound ++ [m] }

/-- A reply of a commit or a capture: placed where there is room and none waits before it, else held
until room opens (R197). -/
def placeOrDefer (m : OutMsg) (s : State) : State :=
  if s.deferred.isEmpty && decide (0 < s.room) then place m s
  else { s with deferred := s.deferred ++ [m] }

/-! ## Replies -/

/-- The command whose reply returns a record; the data of the others fit one body (log entry 25). -/
def recordCode : ReplyData → Option CmdCode
  | .status _ => some .statusRead
  | .zone _ => some .zoneRead
  | .cause _ => some .causeRead
  | .table _ _ _ => some .tableRead
  | _ => none

/-- The number of parts that data of a size take: one where tag, result and data fit a body of 32 bytes,
else as many as carry the data 28 bytes at a time beside tag, result, part number and number of parts
(R197). -/
def partsFor (size : Nat) : Nat := if 32 < 2 + size then (size + 27) / 28 else 1

/-- The number of parts of a reply (R197). -/
def partsOf (d : ReplyData) : Nat :=
  match recordCode d with
  | some c => partsFor (dataBytes c d).length
  | none => 1

/-- What part `i` of a reply carries: the whole of the data where they fit one part, else its share of
their bytes, as much as fits, in order (R197). -/
def partData (c : CmdCode) (d : ReplyData) (i : Nat) : ReplyData :=
  if partsOf d ≤ 1 then d else .share (((dataBytes c d).drop (28 * i)).take 28)

/-- The messages of a reply, in order, addressed to the origin of the request (R197). R197 says that each part
carries its part number and the number of parts; that the parts are numbered from 0, and not from 1, is the
model's choice (log entry 25). -/
def replyMsgs (q : Request) (c : CmdCode) (r : Result) (d : ReplyData) : List OutMsg :=
  (List.range (partsOf d)).map fun i =>
    { dest := q.origin
      content := .reply
        { code := c, tag := q.tag, result := r, data := partData c d i, part := i
          parts := partsOf d } }

/-- The one message of a reply that is not a record. -/
def replyMsg (q : Request) (c : CmdCode) (r : Result) (d : ReplyData) : OutMsg :=
  { dest := q.origin
    content := .reply { code := c, tag := q.tag, result := r, data := d, part := 0, parts := 1 } }

/-- The reply to a command is placed, its parts together (R197). The engine has begun the command
with room for it (R196). -/
def reply (e : Entry) (r : Result) (d : ReplyData) (s : State) : State :=
  { s with outbound := s.outbound ++ replyMsgs e.req (codeOf e.body) r d }

/-- The reply DONE without data. -/
def replyDone (e : Entry) (s : State) : State := reply e .done .none s

/-! ## The message store -/

/-- What an address of the store that nothing has written reads as (log entry 14). -/
def storeBlank : Sample := 0#16

/-- The sample at an address (R123). -/
def storeRead : Store → Nat → Sample
  | [], _ => storeBlank
  | (k, v) :: rest, a => if k = a then v else storeRead rest a

/-- One sample written (R140), keeping the canonical form. -/
def storeWrite : Store → Nat → Sample → Store
  | [], a, v => if v = storeBlank then [] else [(a, v)]
  | (k, w) :: rest, a, v =>
    if a < k then (if v = storeBlank then (k, w) :: rest else (a, v) :: (k, w) :: rest)
    else if a = k then (if v = storeBlank then rest else (a, v) :: rest)
    else (k, w) :: storeWrite rest a v

/-- The canonical form: addresses strictly rising, no entry that an unlisted address reads as. -/
def storeWf : Store → Bool
  | [] => true
  | (k, v) :: rest => v != storeBlank && rest.all (fun p => decide (k < p.1)) && storeWf rest

end Sys2Proof.Machine
end

