-- ==== Sys2Proof/Machine/Flags.lean ====
section
/-!
DEFINITION. The conditions that follow from the state: the alarm lock with what its setting brings
about, DEFAULT MODE, the claim condition, the line relays, OUTPUT LOST, the standby pool and the
fault indicator.
-/

namespace Sys2Proof.Machine

/-! ## The alarm lock -/

/-- A claim of the alarm band, priority 8 to 15. -/
def isAlarmClaim (c : Claim) : Bool := decide (Config.alarmBand ≤ c.prio)

/-- The number of alarm-band claims held across all 24 lists (R90). -/
def alarmCount (s : State) : Nat :=
  (allZones.map fun z => (s.lists[z].filter isAlarmClaim).length).sum

/-- The condition under which the alarm lock is set (R199). -/
def lockCondition (s : State) : Bool := !s.acts.isEmpty || decide (0 < alarmCount s)

/-- A capture in flight is aborted by the alarm lock or by the ring: the record is removed, the
phrase stays as the capture's beginning left it, and ABORTED is placed for the requester (R142). -/
def abortCapture (s : State) : State :=
  match s.capture with
  | none => s
  | some c =>
    placeOrDefer (replyMsg c.requester .capture .aborted .none) { s with capture := none }

/-- The Cause Unit or the Zone Claim Table tells the Command Engine: the lock follows its condition,
and its setting aborts a capture in flight (R31, R90, R199). -/
def updateLock (s : State) : State :=
  let l := lockCondition s
  if l && !s.alarmLock then abortCapture { s with alarmLock := l } else { s with alarmLock := l }

/-! ## DEFAULT MODE and the claim condition -/

/-- The working Cause-and-Effect Table has no entry in use (R24). -/
def ceEmpty (t : Tables) : Bool := t.ce.toList.all fun e => !e.inUse

/-- The claim condition of the OVERFLOW claim (R23). -/
def claimCondition (s : State) : Bool := s.overflow || (s.defaultMode && !s.acts.isEmpty)

/-! ## Zones, lines and relays -/

/-- A speaker zone's working map entry. -/
def spk (s : State) (z : Zone) : SpkZone := s.work.spk[z]

/-- Whether a speaker zone is in use (R6). -/
def zoneInUse (s : State) (z : Zone) : Bool := (spk s z).inUse

/-- Whether a line relay is connected: every relay from cold start until the load completes (R174), and
from then on line A unless it is SHORT, line B while the zone is configured A and B and line B is not
SHORT, and both relays of a zone not in use (R163). -/
def relayConnected (s : State) (z : Zone) : Line → Bool
  | .a => s.phase == .loading || !zoneInUse s z || s.lines[z].a.state != .short
  | .b => s.phase == .loading || !zoneInUse s z ||
      match s.lines[z].b with
      | none => false
      | some m => m.state != .short

/-- A zone in use has OUTPUT LOST while none of its lines is connected (R164). -/
def outputLostNow (s : State) (z : Zone) : Bool :=
  zoneInUse s z && !relayConnected s z .a && !relayConnected s z .b

/-- OUTPUT LOST of one zone is evaluated: its coming to hold queues a report, its end does not
(R164). -/
def evalOutputLost (z : Zone) (s : State) : State :=
  let l := outputLostNow s z
  let old := s.lines[z]
  let s1 := { s with lines := s.lines.set z { old with lost := l } }
  if l && !old.lost then
    report (.outputLost z old.a.state (old.b.map fun m => m.state)) s1
  else s1

/-! ## The standby pool -/

/-- The state of a standby channel (R166). -/
def poolState (s : State) (k : Fin 2) : PoolState :=
  if s.standbyAmps[k].failed then .failed
  else match s.serving[k] with
    | some z => .serving z
    | none => .free

/-- A failed zone: in use, its channel AMP FAILED, standby eligible, with a winner (R166). -/
def failedZone (s : State) (z : Zone) : Bool :=
  zoneInUse s z && s.amps[z].failed && (spk s z).eligible && !s.lists[z].isEmpty

/-- The standby channel that serves a zone: its feed selector stands at that channel, and at OWN
where there is none (R163, R166). -/
def feedOf (s : State) (z : Zone) : Option (Fin 2) :=
  if s.serving[(0 : Fin 2)] = some z then some 0
  else if s.serving[(1 : Fin 2)] = some z then some 1
  else none

/-- The standby standing of a zone (R173). -/
def standingOf (s : State) (z : Zone) : Standing :=
  match feedOf s z with
  | some k => .served k
  | none => if failedZone s z then .waiting else .notFailed

/-! ## The fault indicator -/

/-- The number of a zone's lines in a state; the lines of a zone not in use are UNTESTED (R6). -/
def linesIn (st : LineState) (s : State) (z : Zone) : Nat :=
  if zoneInUse s z then
    (if s.lines[z].a.state = st then 1 else 0) +
      (match s.lines[z].b with
       | some m => if m.state = st then 1 else 0
       | none => 0)
  else 0

/-- The number of lines of in-use zones in a state (R173). -/
def lineCount (st : LineState) (s : State) : Nat := (allZones.map fun z => linesIn st s z).sum

/-- The fault indicator: active from cold start until the load completes, and from then on while a
condition holds (R172). Without power, or held in reset, it is inactive (log entry 32). -/
def faultIndicator (s : State) : Bool :=
  match s.phase with
  | .off => false
  | .loading => true
  | .running =>
    decide (0 < lineCount .opened s) || decide (0 < lineCount .short s) ||
    allZones.any (fun z => zoneInUse s z && s.amps[z].failed) ||
    s.standbyAmps[(0 : Fin 2)].failed || s.standbyAmps[(1 : Fin 2)].failed ||
    allZones.any (fun z => s.lines[z].lost) ||
    s.invalid.toList.any id || s.phraseMissing || s.rif.ring == .isolated

end Sys2Proof.Machine
end

