-- ==== Sys2Proof/Machine/Expansion.lean ====
section
/-!
DEFINITION. The Expansion Unit (chapter 3) with the level and sector tests of the Geometry Maps:
matching, the reach of an effect, the merge, and the building of claims from templates. Everything
here is computed from a record, the tables and the maps alone (R56).
-/

namespace Sys2Proof.Machine

/-! ## Claims built from templates -/

/-- The source a template names; a working template in use always names one (R38). -/
def sourceOf : Coded Source → Source
  | .named s => s
  | .other _ => .none

/-- The fallback a template names, or its absence. -/
def fallbackOf : Option (Coded Fallback) → Option Fallback
  | some (.named f) => some f
  | _ => none

/-- A claim built from a template: source, fallback, priority and attenuation as they stand in the
working copy (R39). -/
def claimFrom (o : Owner) (t : Template) (st : Option Stage) (now : Nat) : Claim :=
  { owner := o, source := sourceOf t.source, fallback := fallbackOf t.fallback, prio := t.prio,
    atten := t.atten, stage := st, placed := now }

/-- A template in use, by its number. -/
def templateInUse (t : Tables) (n : Nat) : Option Template :=
  match t.templ[n]? with
  | some m => if m.inUse then some m else none
  | none => none

/-- The OVERFLOW claim: template 0, or its factory default where it is not in use (R23). -/
def overflowClaim (s : State) : Claim :=
  claimFrom .overflow ((templateInUse s.work 0).getD Config.defTemplate0) none s.now

/-- A SILENCE claim of a class (R98). -/
def silenceClaim (cls : Class) (now : Nat) : Claim :=
  { owner := .silence cls, source := .none, fallback := none, prio := Config.silencePrio,
    atten := 0, stage := none, placed := now }

/-! ## Matching (3.3) -/

/-- An entry matches a detection zone: in use, the zone within its range (R41). -/
def matchesDz (e : CeEntry) (dz : Nat) : Bool :=
  e.inUse && decide (e.dzLo ≤ dz) && decide (dz ≤ e.dzHi)

/-- The reference an effect gives when it is appended (R43). -/
def refOf (entry effect : Nat) (e : Effect) : Ref :=
  match e.first with
  | .named .alert =>
    { entry := entry, effect := effect, stage := .alert,
      timer := if e.delay = 0 then none else some (e.delay * 1000), due := false }
  | _ => { entry := entry, effect := effect, stage := .evacuate, timer := none, due := false }

/-- Every effect of every matching entry, in index order, each as its reference (R41). -/
def allRefs (t : Tables) (dz : Nat) : List Ref :=
  (List.finRange 256).flatMap fun i =>
    if matchesDz t.ce[i] dz then
      (t.ce[i].effects.zipIdx).map fun p => refOf i.val p.2 p.1
    else []

/-- The references a record takes: the first 16 (R42). -/
def matchRefs (t : Tables) (dz : Nat) : List Ref := (allRefs t dz).take Config.refMax

/-- Whether matching dropped an effect (R42). -/
def matchTruncated (t : Tables) (dz : Nat) : Bool :=
  decide (Config.refMax < (allRefs t dz).length)

/-- The latch flag of the first matching entry, yes where none matches (R20). -/
def matchLatch (t : Tables) (dz : Nat) : Bool :=
  match t.ce.toList.find? fun e => matchesDz e dz with
  | some e => e.latch
  | none => true

/-! ## The reach of an effect (3.4) -/

/-- One end of a band: the cause level plus an offset, clamped to 0–127 (R46). -/
def bandEnd (l : Nat) (off : Int) : Nat := (min 127 (max 0 ((l : Int) + off))).toNat

/-- A zone's level span overlaps a band; an unknown span overlaps none (R1, R47). -/
def spanOverlaps (z : SpkZone) (lo hi : Nat) : Bool :=
  match z.levelLo, z.levelHi with
  | some a, some b => decide (a ≤ hi) && decide (lo ≤ b)
  | _, _ => false

/-- The scope test (R46–R48). -/
def scopeTest (e : Effect) (level : Level) (m : SpkZone) (z : Zone) : Bool :=
  match e.scope with
  | .named (.relative lo hi) =>
    match level with
    | none => false
    | some l => spanOverlaps m (bandEnd l lo) (bandEnd l hi)
  | .named (.fixed zs) => inSet zs z
  | .other _ => false

/-- The kind test (R49). -/
def kindTest (k : KindSet) : Coded Kind → Bool
  | .named .floor => k.floor
  | .named .stair => k.stair
  | .named .lift => k.lift
  | .named .refuge => k.refuge
  | .other _ => false

/-- The same-sector test between a zone's sector and a cause sector (R2). -/
def sameSector (zoneSector : Nat) : Option Nat → Bool
  | none => false
  | some c => zoneSector == 7 || zoneSector == c

/-- The sector test (R50). -/
def sectorTest (e : Effect) (zoneSector : Nat) (cause : Option Nat) : Bool :=
  match e.sector with
  | .named .any => true
  | .named .same => sameSector zoneSector cause
  | .other _ => false

/-- The reach of a class in the working Originator Table (R51). -/
def reachOf (t : Tables) (c : Class) (z : Zone) : Bool := inSet t.orig[c].reach z

/-- An effect reaches a zone for a record when the zone is in use and all four tests pass (R45). -/
def effectReaches (t : Tables) (r : ActRecord) (e : Effect) (z : Zone) : Bool :=
  let m := t.spk[z]
  m.inUse && scopeTest e r.level m z && kindTest e.kinds m.kind &&
    sectorTest e m.sector r.sector && reachOf t r.cls z

/-- The effect a reference names (R16). -/
def effectOf (t : Tables) (f : Ref) : Option Effect :=
  match t.ce[f.entry]? with
  | some e => e.effects[f.effect]?
  | none => none

/-- A reference reaches a zone when the effect it names does. -/
def refReaches (t : Tables) (r : ActRecord) (f : Ref) (z : Zone) : Bool :=
  match effectOf t f with
  | some e => effectReaches t r e z
  | none => false

/-! ## The merge (3.5) -/

/-- The current-stage template of a reference, where it is in use (R52). -/
def stageTemplate (t : Tables) (f : Ref) : Option Template :=
  match effectOf t f with
  | none => none
  | some e =>
    templateInUse t (match f.stage with
      | .alert => e.alert
      | .evacuate => e.evacuate)

/-- The reference chosen by a merge, with its template: the highest priority, the earliest in the
list among equals (R52). -/
def chooseRef (t : Tables) (r : ActRecord) (z : Zone) : Option (Ref × Template) :=
  r.refs.foldl (fun best f =>
    if refReaches t r f z then
      match stageTemplate t f, best with
      | none, _ => best
      | some m, none => some (f, m)
      | some m, some b => if b.2.prio < m.prio then some (f, m) else best
    else best) none

/-- The merged claim of a record for a zone (R52, R53). -/
def mergeClaim (t : Tables) (now : Nat) (r : ActRecord) (z : Zone) : Option Claim :=
  (chooseRef t r z).map fun p => claimFrom (.cause r.dz) p.2 (some p.1.stage) now

end Sys2Proof.Machine
end

