-- ==== Sys2Proof/Machine/Channels.lean ====
section
/-!
DEFINITION. The run states of the tone cadences (6.7) and of the playout channels (7.4–7.6), and what
each does when its listener count changes.
-/

namespace Sys2Proof.Machine

/-! ## Cadences -/

/-- A cadence's run state put at the beginning of its on-time (R118, R121, R122). -/
def cadStart (on : Nat) (c : CadRun) : CadRun :=
  { c with running := true, phase := .on, burst := 1, remaining := on }

/-- A cadence stopped, the phase in progress abandoned (R118). It stands at the start of ON with its stored
on-time, as R119 says of an entry not in use, and as the model chooses for one in use (log entry 35). -/
def cadStop (on : Nat) (c : CadRun) : CadRun :=
  { c with running := false, phase := .on, burst := 1, remaining := on }

/-- A cadence takes a new listener count (R118). -/
def cadCount (on n : Nat) (c : CadRun) : CadRun :=
  if c.listeners = 0 ∧ 0 < n then cadStart on { c with listeners := n }
  else if 0 < c.listeners ∧ n = 0 then cadStop on { c with listeners := n }
  else { c with listeners := n }

/-- The phase after ON, after OFF or after PAUSE has ended, with its burst, before phases of length 0
are passed over (R119). -/
def cadNext (c : Cadence) (ph : CadPhase) (burst : Nat) : CadPhase × Nat :=
  match ph with
  | .on => (.off, burst)
  | .off =>
    if c.bursts = 0 then (.on, burst)
    else if burst < c.bursts then (.on, burst + 1) else (.pause, burst)
  | .pause => (.on, 1)

/-- The length of a phase (R117). -/
def cadLength (c : Cadence) : CadPhase → Nat
  | .on => c.on
  | .off => c.off
  | .pause => c.pause

/-- The next phase of a cadence, passing over each phase of length 0; at most OFF and PAUSE are
passed over, as an on-time is never 0 in a working cadence in use (R115, R119). -/
def cadAdvance (c : Cadence) : Nat → CadPhase × Nat → CadPhase × Nat
  | 0, p => p
  | k + 1, p =>
    let q := cadNext c p.1 p.2
    if cadLength c q.1 = 0 then cadAdvance c k q else q

/-- A cadence whose phase has ended moves to its next phase (R119). -/
def cadPhaseEnd (c : Cadence) (r : CadRun) : CadRun :=
  let q := cadAdvance c 3 (r.phase, r.burst)
  { r with phase := q.1, burst := q.2, remaining := cadLength c q.1 }

/-! ## Beginning a step of a channel -/

/-- The sample times that have passed since the last millisecond: the frames taken while LOCKED; outside it
a millisecond's sample times pass with the millisecond (R129, log entry 19). -/
def samplePhase (s : State) : Nat := if s.locked then s.sampleTimes else 0

/-- A channel's run state changed. -/
def setChan (n : Fin 4) (f : ChanRun → ChanRun) (s : State) : State :=
  { s with chans := upd s.chans n f }

/-- A silence of `ms` begins in a channel: it began the owed sample times before the present one, and its
milliseconds count from the last millisecond, so that it ends by the difference of the two late or early,
and lasts exactly `ms` (R130, R131, log entry 19). -/
def silentStep (phase idx : Nat) (kind : StepKind) (ms : Nat) (c : ChanRun) : ChanRun :=
  { c with state := .running, step := idx, kind := kind, addr := 0, remaining := ms
           late := phase - c.owed, owed := c.owed - phase, due := false }

/-- A MISSING step begins: 500 ms of silence, the PHRASE MISSING flag and its report (R130). -/
def beginMissing (n : Fin 4) (idx phrase : Nat) (s : State) : State :=
  report (.phraseMissing n.val phrase idx)
    (setChan n (silentStep (samplePhase s) idx .missing Config.missingMs)
      { s with phraseMissing := true })

/-- A PHRASE step gives `k` sample times (R129): the address advances and the remaining samples fall, as long
as samples are left after them. The last sample makes the end of the step due, at which remaining reaches 0:
the address never leaves the phrase's extent. What the step does not take is owed to the next (log entry 19).
-/
def phraseGive (k : Nat) (c : ChanRun) : ChanRun :=
  if c.due then { c with owed := c.owed + k }
  else if k < c.remaining then { c with addr := c.addr + k, remaining := c.remaining - k }
  else { c with addr := c.addr + (c.remaining - 1), remaining := 1, due := true
                owed := c.owed + (k - c.remaining) }

/-- A phrase begins in a channel at its first sample: the sample times that have passed since the last step
ended are given at once (R129, R131, log entry 19). -/
def phraseStep (idx : Nat) (p : Phrase) (c : ChanRun) : ChanRun :=
  phraseGive c.owed { c with
    state := .running, step := idx, kind := .phrase, addr := p.start, remaining := p.length
    late := 0, owed := 0, due := false }

/-- A PHRASE step of a usable phrase begins (R129). -/
def beginPhrase (n : Fin 4) (idx : Nat) (p : Phrase) (s : State) : State :=
  setChan n (phraseStep idx p) s

/-- A GAP step begins (R130). -/
def beginGap (n : Fin 4) (idx ms : Nat) (s : State) : State :=
  setChan n (silentStep (samplePhase s) idx .gap ms) s

/-- Step `idx` of a channel's working program begins (R129, R130). A working program in use holds
only PHRASE and GAP steps (R126). -/
def beginStep (n : Fin 4) (idx : Nat) (s : State) : State :=
  match s.work.progs[n].steps[idx]? with
  | some (.named (.phrase p)) =>
    match s.work.phrases[p]? with
    | some ph =>
      if ph.valid && decide (0 < ph.length) then beginPhrase n idx ph s else beginMissing n idx p s
    | none => beginMissing n idx p s
  | some (.named (.gap ms)) => beginGap n idx ms s
  | _ => s

/-- A channel starts at step 0, no sample time having passed since (log entry 19). -/
def startChan (n : Fin 4) (s : State) : State :=
  beginStep n 0 (setChan n (fun c => { c with owed := 0 }) s)

/-- A channel stops in a state at step 0, the step in progress abandoned. -/
def stopChan (n : Fin 4) (st : ChanState) (s : State) : State :=
  setChan n
    (fun c => { c with state := st, step := 0, kind := .gap, addr := 0, remaining := 0,
                       late := 0, owed := 0, due := false }) s

/-! ## Listeners -/

/-- A channel takes a new listener count and acts on it by its mode (R132, R133, R135, R136): a rise
from 0 starts a DEMAND channel that is not running and a ONCE channel that is IDLE. -/
def chanCount (n : Fin 4) (count : Nat) (s : State) : State :=
  let old := s.chans[n]
  let p := s.work.progs[n]
  let s1 := setChan n (fun c => { c with listeners := count }) s
  if p.inUse && decide (old.listeners = 0) && decide (0 < count) then
    match p.mode with
    | .named .demand => if old.state = .running then s1 else startChan n s1
    | .named .once => if old.state = .idle then startChan n s1 else s1
    | _ => s1
  else s1

/-- A zone counted on or off a cadence (R118). -/
def countCad (n : Nat) (f : Nat → Nat) (s : State) : State :=
  if h : n < 4 then
    let i : Fin 4 := ⟨n, h⟩
    { s with cads := upd s.cads i fun c => cadCount s.work.cad[i].on (f c.listeners) c }
  else s

/-- A zone counted on or off a playout channel (R132). -/
def countChan (n : Nat) (f : Nat → Nat) (s : State) : State :=
  if h : n < 4 then chanCount ⟨n, h⟩ (f s.chans[n].listeners) s else s

/-- An effective source counted on or off; sources of kind RING, WARDEN and NONE are counted against
nothing (R89). -/
def countSource (src : Source) (f : Nat → Nat) (s : State) : State :=
  match src with
  | .tone n => countCad n f s
  | .playout n => countChan n f s
  | _ => s

/-- The net change of a zone's effective source: nil where old and new name the same cadence or
channel, else the old counted off and the new counted on (R89, R111). -/
def listenerChange (old new : Source) (s : State) : State :=
  if old = new then s
  else countSource new (fun k => k + 1) (countSource old (fun k => k - 1) s)

end Sys2Proof.Machine
end

