-- ==== Sys2Proof/Machine/Outputs.lean ====
section
/-!
DEFINITION. The Zone Output Unit (6.1–6.6): effective source, target attenuation, ramp, substitution
at changes of ring state, and the audio each zone delivers.
-/

namespace Sys2Proof.Machine

/-- The source a fallback names. -/
def Fallback.asSource : Fallback → Source
  | .playout n => .playout n
  | .tone n => .tone n

/-- The effective source and whether a fallback stands in (R104). -/
def effectiveOf (ring : RingState) (src : Source) (fb : Option Fallback) : Source × Bool :=
  match src, fb, ring with
  | .ring _, some f, .isolated => (Fallback.asSource f, true)
  | _, _, _ => (src, false)

/-- The target attenuation of a zone from its winner fields and its trim (R106). -/
def targetOf (src : Source) (prio atten : Option Nat) (trim : Nat) : Nat :=
  match src, prio, atten with
  | .none, _, _ => Config.muted
  | _, some p, some a =>
    if Config.alarmBand ≤ p then min (a + trim) Config.alarmCeiling else a + trim
  | _, _, _ => Config.muted

/-- One millisecond's move of the current attenuation toward the target (R108). -/
def rampStep (target current : Nat) : Nat :=
  if target < current then current - min 2 (current - target)
  else current + min 2 (target - current)

/-- A zone's output record replaced. -/
def setOut (z : Zone) (o : ZoneOut) (s : State) : State := { s with outs := s.outs.set z o }

/-- The winner fields of a zone output for a winner or for none (R103). -/
def winnerFields (w : Option Claim) (o : ZoneOut) : ZoneOut :=
  match w with
  | none => { o with source := .none, fallback := none, prio := none, atten := none }
  | some c =>
    { o with source := c.source, fallback := c.fallback, prio := some c.prio,
             atten := some c.atten }

/-- The effective source and substitution settled for a ring state: a change of effective source sets
the current attenuation to 120 (R104, R109). -/
def settleSource (ring : RingState) (o : ZoneOut) : ZoneOut :=
  let e := effectiveOf ring o.source o.fallback
  { o with effective := e.1, substituted := e.2,
           current := if e.1 = o.effective then o.current else Config.muted }

/-- The target computed anew from the winner fields and the zone's trim (R107). -/
def retarget (trim : Nat) (o : ZoneOut) : ZoneOut :=
  { o with target := targetOf o.source o.prio o.atten trim }

/-- The record of a zone after a winner change (R103, R104, R106, R109). -/
def outAfterWinner (ring : RingState) (trim : Nat) (w : Option Claim) (o : ZoneOut) : ZoneOut :=
  retarget trim (settleSource ring (winnerFields w o))

/-- A change of ring state reaches one zone: its effective source is settled anew and the listener
change is handed on (R110, R111). -/
def ringToZone (z : Zone) (s : State) : State :=
  let o := s.outs[z]
  let o' := settleSource s.rif.ring o
  if zoneInUse s z then listenerChange o.effective o'.effective (setOut z o' s) else s

/-- A change of ring state reaches the Zone Output Unit, zone by zone (R110). -/
def ringToOutputs (s : State) : State := allZones.foldl (fun t z => ringToZone z t) s

/-! ## The audio delivered -/

/-- What a zone plays at a moment: silence, a sample, a cadence's tone at its frequency in Hz, or the
warden microphone. -/
inductive Audio where
  | silence
  | sample (v : Sample)
  | tone (hz : Nat)
  | microphone
deriving DecidableEq, Repr

/-- The output of a cadence: its tone during ON while it runs and is in use (R118, R120). -/
def cadenceAudio (s : State) (n : Nat) : Audio :=
  match s.cads[n]?, s.work.cad[n]? with
  | some r, some c => if r.running && c.inUse && r.phase == .on then .tone c.freq else .silence
  | _, _ => .silence

/-- The output of a playout channel (R128): in a PHRASE step the sample at its current address (R129). -/
def channelAudio (s : State) (n : Nat) : Audio :=
  match s.chans[n]? with
  | some c =>
    if c.state = .running ∧ c.kind = .phrase then .sample (storeRead s.store c.addr) else .silence
  | none => .silence

/-- The audio of a source; a ring slot gives the sample of the last frame taken while LOCKED where
its presence flag was set, and silence otherwise (R105). Between two frames, and in LOCKED until the loss
deadline where none arrives, the zone plays the last frame's sample (log entry 45). -/
def sourceAudio (s : State) : Source → Audio
  | .ring n =>
    match s.rif.heard[n]? with
    | some (some v) => .sample v
    | _ => .silence
  | .playout n => channelAudio s n
  | .tone n => cadenceAudio s n
  | .warden => .microphone
  | .none => .silence

/-- The audio and the attenuation delivered to a zone's own amplifier channel (R112). -/
def zoneAudio (s : State) (z : Zone) : Audio × Nat :=
  (sourceAudio s s.outs[z].effective, s.outs[z].current)

/-- The audio and the attenuation delivered to a standby channel: the same as its zone's own channel
while it serves one, and nothing otherwise (R112). -/
def standbyAudio (s : State) (k : Fin 2) : Option (Audio × Nat) :=
  match poolState s k with
  | .serving z => some (zoneAudio s z)
  | _ => none

end Sys2Proof.Machine
end

