-- ==== Sys2Proof/Machine/Supervision.lean ====
section
/-!
DEFINITION. Line Supervision (chapter 9): the standby arbiter, the window end, the line and health
debounce, and the meanings of PILOT_PULSE, HEALTH_INPUT_CHANGE, WINDOW_END.
-/

namespace Sys2Proof.Machine

/-! ## The standby arbiter (R168) -/

/-- A zone's rank: its winner's priority (R166). -/
def rankOf (s : State) (z : Zone) : Nat :=
  match s.lists[z].head? with
  | some c => c.prio
  | none => 0

/-- A failed zone that no standby channel serves (R166). -/
def waitingZone (s : State) (z : Zone) : Bool := failedZone s z && (feedOf s z).isNone

/-- The highest-ranked waiting zone: the highest winner priority, the lowest zone number among equals
(R166). -/
def bestWaiting (s : State) : Option Zone :=
  allZones.foldl (fun best z =>
    if waitingZone s z then
      match best with
      | none => some z
      | some b => if rankOf s b < rankOf s z then some z else best
    else best) none

/-- A standby channel given to a zone, or taken from every zone. -/
def setServing (k : Fin 2) (z : Option Zone) (s : State) : State :=
  { s with serving := s.serving.set k z }

/-- Step 1 for one channel: a SERVING channel whose zone is no longer a failed zone becomes FREE. -/
def arbRelease (k : Fin 2) (s : State) : State :=
  match poolState s k with
  | .serving z =>
    if failedZone s z then s else report (.standbyChange k (.released z)) (setServing k none s)
  | _ => s

/-- The lowest-numbered FREE channel. -/
def freeChannel (s : State) : Option (Fin 2) :=
  if poolState s 0 = .free then some 0 else if poolState s 1 = .free then some 1 else none

/-- Step 2: FREE channels go to waiting zones, one at a time. -/
def arbAssign : Nat → State → State
  | 0, s => s
  | n + 1, s =>
    match freeChannel s, bestWaiting s with
    | some k, some z =>
      arbAssign n (report (.standbyChange k (.assigned z)) (setServing k (some z) s))
    | _, _ => s

/-- The channel whose served zone has the lowest winner priority, the higher zone number among
equals. -/
def preemptable (s : State) : Option (Fin 2 × Zone) :=
  match poolState s 0, poolState s 1 with
  | .serving y, .serving z =>
    if rankOf s y < rankOf s z ∨ (rankOf s y = rankOf s z ∧ z < y) then some (0, y)
    else some (1, z)
  | .serving y, _ => some (0, y)
  | _, .serving z => some (1, z)
  | _, _ => none

/-- Step 3: a waiting zone of strictly higher priority takes the channel of the lowest served one. -/
def arbPreempt : Nat → State → State
  | 0, s => s
  | n + 1, s =>
    match bestWaiting s, preemptable s with
    | some w, some p =>
      if rankOf s p.2 < rankOf s w then
        arbPreempt n
          (report (.standbyChange p.1 (.preempted p.2 w)) (setServing p.1 (some w) s))
      else s
    | _, _ => s

/-- One run of the standby arbiter (R168): release, of channel 0 before channel 1 (log entry 53),
assignment, preemption. Two channels take at most
two assignments, and after two preemptions the two highest-ranked zones are served. -/
def arbiter (s : State) : State :=
  arbPreempt 2 (arbAssign 2 (arbRelease 1 (arbRelease 0 s)))

/-! ## Line monitors (R161, R162) -/

/-- Whether a monitor is measured: every state but SHORT (R161). -/
def measured (m : LineMon) : Bool := m.state != .short

/-- The verdict of a count against a band (R161). -/
def lineVerdict (count lower upper : Nat) : LineVerdict :=
  if count < lower then .low else if upper < count then .high else .inBand

/-- The state a verdict calls for (R162). -/
def calledFor : LineVerdict → LineState
  | .low => .opened
  | .inBand => .normal
  | .high => .short

/-- A monitor as an evaluated window leaves it, before a state change (R161, R162). -/
def monCounted (m : LineMon) (v : LineVerdict) : LineMon :=
  { m with hold := some m.pulses, pulses := 0, candidate := some v,
           run := if m.candidate = some v then min 3 (m.run + 1) else 1 }

/-- A monitor at a window end: a measured line measured over the whole window is evaluated, another
measured line begins its first whole window; a SHORT line is not measured and keeps its hold value
(R161, R162). -/
def monWindow (lower upper : Nat) (m : LineMon) : LineMon :=
  if !measured m then m
  else if !m.whole then { m with pulses := 0, whole := true }
  else
    let v := lineVerdict m.pulses lower upper
    let c := monCounted m v
    if c.run = 3 ∧ calledFor v ≠ m.state then
      if calledFor v = .short then { c with state := .short, candidate := none, run := 0 }
      else { c with state := calledFor v }
    else c

/-- The report a line's change of state queues (R162). -/
def lineReport (z : Zone) (l : Line) (before after : LineState) : Option ReportBody :=
  if before = after then none
  else match after with
    | .opened => some (.faultRaised (.line z l) .opened)
    | .short => some (.faultRaised (.line z l) .short)
    | .normal => if before = .opened then some (.faultCleared (.line z l) .opened) else none
    | .untested => none

/-- A report that may be absent. -/
def reportOpt (b : Option ReportBody) (s : State) : State :=
  match b with
  | some r => report r s
  | none => s

/-- Line A of a zone in use at a window end (R162–R164). -/
def windowLineA (z : Zone) (s : State) : State :=
  let l := s.lines[z]
  let m := monWindow s.work.limits[z].aLower s.work.limits[z].aUpper l.a
  let s1 := { s with lines := s.lines.set z { l with a := m } }
  evalOutputLost z (reportOpt (lineReport z .a l.a.state m.state) s1)

/-- Line B of a zone in use, where it has one, at a window end (R162–R164). -/
def windowLineB (z : Zone) (s : State) : State :=
  let l := s.lines[z]
  match l.b with
  | none => s
  | some b =>
    let m := monWindow s.work.limits[z].bLower s.work.limits[z].bUpper b
    let s1 := { s with lines := s.lines.set z { l with b := some m } }
    evalOutputLost z (reportOpt (lineReport z .b b.state m.state) s1)

/-- The lines of one zone at a window end, line A before line B; a zone not in use has no monitor
(R161, R170). -/
def windowZone (z : Zone) (s : State) : State :=
  if zoneInUse s z then windowLineB z (windowLineA z s) else s

/-! ## Amplifier health (R165) -/

/-- A health record as a window end leaves it, observing the next window afresh (R165). -/
def healthWindow (h : Health) : Health :=
  if !h.whole then { h with whole := true, dropped := !h.active }
  else
    let v := !h.dropped
    let n := if h.candidate = some v then min 3 (h.run + 1) else 1
    { h with candidate := some v, run := n, dropped := !h.active,
             failed := if n = 3 then !v else h.failed }

/-- The report a failed flag's change queues (R165). -/
def healthReport (c : AmpChannel) (before after : Bool) : Option ReportBody :=
  if before = after then none
  else if after then some (.faultRaised (.channel c) .ampFailed)
  else some (.faultCleared (.channel c) .ampFailed)

/-- One zone amplifier channel at a window end; the channel of a zone not in use is not evaluated
(R165). -/
def windowAmp (z : Zone) (s : State) : State :=
  if zoneInUse s z then
    let h := s.amps[z]
    let h' := healthWindow h
    reportOpt (healthReport (.zone z) h.failed h'.failed) { s with amps := s.amps.set z h' }
  else s

/-- One standby channel at a window end: a channel that enters FAILED while SERVING gives up its zone
(R165, R169). -/
def windowStandby (k : Fin 2) (s : State) : State :=
  let h := s.standbyAmps[k]
  let h' := healthWindow h
  let s1 := { s with standbyAmps := s.standbyAmps.set k h' }
  let s2 := reportOpt (healthReport (.standby k) h.failed h'.failed) s1
  match s.serving[k] with
  | some z =>
    if h'.failed && !h.failed then
      report (.standbyChange k (.channelFailed z)) (setServing k none s2)
    else s2
  | none => s2

/-- Whether any failed flag differs between two states: R167's condition for the run of the arbiter
at a window end. -/
def healthChanged (s t : State) : Bool :=
  allZones.any (fun z => s.amps[z].failed != t.amps[z].failed) ||
  s.standbyAmps[(0 : Fin 2)].failed != t.standbyAmps[(0 : Fin 2)].failed ||
  s.standbyAmps[(1 : Fin 2)].failed != t.standbyAmps[(1 : Fin 2)].failed

/-- The verdicts of a window end, settled in the order of R170, with one run of the arbiter where
R167 calls for it. -/
def windowVerdicts (s : State) : State :=
  let s1 := allZones.foldl (fun t z => windowZone z t) s
  let s2 := allZones.foldl (fun t z => windowAmp z t) s1
  let s3 := windowStandby 1 (windowStandby 0 s2)
  if healthChanged s s3 then arbiter s3 else s3

/-! ## The window clock (R160) -/

/-- A monitor as a restart of the window clock leaves it: measuring the new window from its start
(R160, R161). -/
def monRestart (m : LineMon) : LineMon := { m with pulses := 0, whole := true }

/-- A health record as a restart of the window clock leaves it (R160, R165). -/
def healthRestart (h : Health) : Health := { h with dropped := !h.active, whole := true }

/-- The window clock starts or restarts: the window in progress is abandoned and a new one begins
(R160). -/
def windowRestart (s : State) : State :=
  { s with
    windowEnd := some (s.now + s.work.window)
    lines := updAll s.lines fun l => { l with a := monRestart l.a, b := l.b.map monRestart }
    amps := updAll s.amps healthRestart
    standbyAmps := updAll s.standbyAmps healthRestart }

/-- Whether the window in progress has run out. -/
def windowDue (s : State) : Bool :=
  match s.windowEnd with
  | some d => s.running && decide (d ≤ s.now)
  | none => false

/-- The next window begins at the moment the previous one ends (R160). -/
def nextWindow (s : State) : State :=
  { s with windowEnd := s.windowEnd.map fun d => d + s.work.window }

/-- WINDOW_END (R170). -/
def execWindowEnd (s : State) : Out :=
  whenever (windowDue s) (fun s => nextWindow (windowVerdicts s)) s

/-! ## Pulses and health inputs -/

/-- A pilot return pulse on a measured line raises its count, which saturates at 65,535 (R161). -/
def monPulse (m : LineMon) : LineMon :=
  if measured m then { m with pulses := min 65535 (m.pulses + 1) } else m

/-- PILOT_PULSE (R161): counted on a line that has a monitor, while the window clock runs. -/
def execPilotPulse (z : Zone) (l : Line) (s : State) : Out :=
  whenever (s.running && zoneInUse s z)
    (fun s => { s with lines := upd s.lines z fun m =>
      match l with
      | .a => { m with a := monPulse m.a }
      | .b => { m with b := m.b.map monPulse } }) s

/-- A health input takes a level; an inactive level is remembered for the window's verdict (R165). -/
def healthInput (active : Bool) (h : Health) : Health :=
  { h with active := active, dropped := h.dropped || !active }

/-- HEALTH_INPUT_CHANGE (R165). The pin has its level in every phase of the router. -/
def execHealthInputChange (c : AmpChannel) (active : Bool) (s : State) : Out :=
  .next (match c with
    | .zone z => { s with amps := upd s.amps z (healthInput active) }
    | .standby k => { s with standbyAmps := upd s.standbyAmps k (healthInput active) })

end Sys2Proof.Machine
end

