-- ==== Sys2Proof/Machine/Claims.lean ====
section
/-!
DEFINITION. The Zone Claim Table (chapter 5): the order of a list, offers, displacement, rejection,
replacement in place, removal, refill, and the hand-over of a winner change.
-/

namespace Sys2Proof.Machine

/-! ## The order of a list (R79) -/

/-- A claim stands behind a new one of this priority and placement time: lower priority, or the same
priority and a later placement time (R79). -/
def standsBehind (prio placed : Nat) (c : Claim) : Bool :=
  decide (c.prio < prio) || (c.prio == prio && decide (placed < c.placed))

/-- A claim put at its position (R79). -/
def insertClaim (c : Claim) : List Claim → List Claim
  | [] => [c]
  | d :: rest =>
    if standsBehind c.prio c.placed d then c :: d :: rest else d :: insertClaim c rest

/-- The claim of an owner in a list. -/
def claimOf (o : Owner) (l : List Claim) : Option Claim := l.find? fun c => c.owner == o

/-- Whether a list holds a claim of an owner. -/
def holds (o : Owner) (l : List Claim) : Bool := l.any fun c => c.owner == o

/-- A claim that replaces the held claim of its owner: new contents, the held placement time; its
position is recomputed only where the priority changed (R81). -/
def replaceClaim (c held : Claim) (l : List Claim) : List Claim :=
  let c' := { c with placed := held.placed }
  if c.prio = held.prio then l.map fun d => if d.owner == c.owner then c' else d
  else insertClaim c' (l.filter fun d => d.owner != c.owner)

/-! ## Zone lists -/

/-- One zone's claim list replaced. -/
def setList (z : Zone) (l : List Claim) (s : State) : State := { s with lists := s.lists.set z l }

/-- Whether a claim is a SILENCE claim. -/
def isSilence (c : Claim) : Bool :=
  match c.owner with
  | .silence _ => true
  | _ => false

/-- Whether a claim is a cause claim at EVACUATE stage. -/
def isEvacuating (c : Claim) : Bool :=
  match c.owner with
  | .cause _ => c.stage == some .evacuate
  | _ => false

/-- The SILENCE claims of a zone are removed after a cause claim has entered EVACUATE stage there; the
answer says whether there was one (R84). -/
def dropSilence (z : Zone) (s : State) : State × Bool :=
  let l := s.lists[z]
  (setList z (l.filter fun c => !isSilence c) s, l.any isSilence)

/-- What follows a placed offer: an entry into EVACUATE stage removes the SILENCE claims (R84). -/
def afterEntry (entered : Bool) (z : Zone) (s : State) : State × Bool :=
  if entered then dropSilence z s else (s, false)

/-- An offer settled by the cases of R80, up to the removal of SILENCE claims; the answer says
whether a SILENCE claim left the list by R84. -/
def offerCore (z : Zone) (c : Claim) (s : State) : State × Bool :=
  let l := s.lists[z]
  if !zoneInUse s z then (s, false)
  else
    match claimOf c.owner l with
    | some held =>
      afterEntry (isEvacuating c && !isEvacuating held) z (setList z (replaceClaim c held l) s)
    | none =>
      if l.length < Config.claimMax then
        afterEntry (isEvacuating c) z (setList z (insertClaim c l) s)
      else
        match l.getLast? with
        | some last =>
          if last.prio < c.prio then
            afterEntry (isEvacuating c) z
              (report (.claimDisplaced z last.owner last.prio)
                (setList z (insertClaim c l.dropLast) s))
          else (report (.claimRejected z c.owner c.prio) s, false)
        | none => (s, false)

/-! ## Refill (R86) -/

/-- One record's part of a refill pass: offered where it holds no claim in the zone and its merge has
a result. -/
def refillRecord (z : Zone) (r : ActRecord) (p : State × Bool) : State × Bool :=
  if holds (.cause r.dz) p.1.lists[z] then p
  else
    match mergeClaim p.1.work p.1.now r z with
    | none => p
    | some c =>
      let q := offerCore z c p.1
      (q.1, p.2 || q.2)

/-- The OVERFLOW claim's part of a refill pass. -/
def refillOverflow (z : Zone) (p : State × Bool) : State × Bool :=
  if claimCondition p.1 && !holds .overflow p.1.lists[z] then
    let q := offerCore z (overflowClaim p.1) p.1
    (q.1, p.2 || q.2)
  else p

/-- One pass of a refill; the answer says whether a SILENCE claim left the zone during it. -/
def refillPass (z : Zone) (s : State) : State × Bool :=
  refillOverflow z (s.acts.foldl (fun p r => refillRecord z r p) (s, false))

/-- A refill: one pass, and once more where a SILENCE claim left the zone during it (R86). -/
def refill (z : Zone) (s : State) : State :=
  let p := refillPass z s
  if p.2 then (refillPass z p.1).1 else p.1

/-! ## Settlement and hand-over (R88) -/

/-- A winner without its placement time: what R88 compares. -/
def winnerView (c : Claim) : Claim := { c with placed := 0 }

/-- The winner of a zone, as compared by R88. -/
def winnerOf (s : State) (z : Zone) : Option Claim := s.lists[z].head?.map winnerView

/-- A winner change is handed on: to the Zone Output Unit, to the listener counts, and to the standby
arbiter where the zone's channel holds AMP FAILED and it is standby eligible (R88, R89, R167). -/
def handOver (z : Zone) (s : State) : State :=
  let o := s.outs[z]
  let o' := outAfterWinner s.rif.ring (spk s z).trim s.lists[z].head? o
  let s1 := listenerChange o.effective o'.effective (setOut z o' s)
  if s1.amps[z].failed && (spk s1 z).eligible then arbiter s1 else s1

/-- An offer or a removal settled in full at its zone: its change of the list with any refill, then
the hand-over of a winner change, then the alarm-band count told to the Command Engine (R80, R87,
R88, R90). -/
def settle (z : Zone) (f : State → State) (s : State) : State :=
  let t := f s
  updateLock (if winnerOf t z = winnerOf s z then t else handOver z t)

/-- A block offers a claim to a zone (R80), with the refill that an entry into EVACUATE brings
(R84). -/
def offer (z : Zone) (c : Claim) (s : State) : State :=
  settle z (fun s =>
    let p := offerCore z c s
    if p.2 then refill z p.1 else p.1) s

/-- A removal of the claims of a zone that a test names, with its refill; a removal that finds
nothing changes nothing (R85). -/
def removal (z : Zone) (p : Claim → Bool) (s : State) : State :=
  if s.lists[z].any p then
    settle z (fun s => refill z (setList z (s.lists[z].filter fun c => !p c) s)) s
  else s

/-- A removal that concerns several zones, in zone order (R85). -/
def removalAll (p : Claim → Bool) (s : State) : State :=
  allZones.foldl (fun t z => removal z p t) s

/-- One claim offered to every zone, in zone order; an offer to a zone not in use is not placed (R6,
R80). -/
def offerAll (c : Claim) (s : State) : State := allZones.foldl (fun t z => offer z c t) s

/-- A claim has this owner (R77). -/
def ownedBy (o : Owner) (c : Claim) : Bool := c.owner == o

end Sys2Proof.Machine
end

