-- ==== Sys2Proof/Machine/Operands.lean ====
section
/-!
DEFINITION. What the Command Engine does with a command before its owning block acts (R196, R198,
R199): when the command at the head of the queue may begin, the checks of authority, form and lock,
and the trimming of a zone set (R94). Also the checks of the contents a TABLE WRITE carries.
-/

namespace Sys2Proof.Machine

/-! ## Authority, form and lock (R198) -/

/-- Whether a class may send a command, by its group (R198 step 3). READ is permitted to every
class. -/
def permits (g : Groups) : CmdBody → Bool
  | .causeOn _ | .causeOff _ => g.cause
  | .causeReset _ | .causeResetAll => g.reset
  | .zoneSet _ _ | .zoneClear _ => g.zone
  | .silence _ | .resound _ => g.silence
  | .escalateNow _ | .escalateNowAll | .holdStages | .releaseStages => g.stage
  | .playStart _ | .playStop _ => g.play
  | .capture _ _ _ | .captureStop | .tableWrite _ _ _ | .commit | .restart | .clearFaults
  | .slotClearAll => g.config
  | .statusRead | .zoneRead _ | .causeRead _ | .tableRead _ _ => true
  | .slotRequest _ | .slotRelease _ | .unknown _ => false

/-- The commands that the alarm lock refuses (R198 step 5). -/
def lockRefuses : CmdBody → Bool
  | .tableWrite _ _ _ | .commit | .capture _ _ _ | .slotClearAll => true
  | _ => false

/-- The table whose entry some contents are, by identifier, and whether the index is one at which
that kind of entry stands: entry 24 of the Supervision Limits carries the window (R159, R200). -/
def contentsFit (table index : Nat) : Contents → Bool
  | .node _ => table == 0
  | .detZone _ => table == 1
  | .spkZone _ => table == 2
  | .localIn _ => table == 3
  | .ceEntry _ => table == 4
  | .template _ => table == 5
  | .originator _ => table == 6
  | .cadence _ => table == 7
  | .phrase _ => table == 8
  | .program _ => table == 9
  | .limits _ => table == 10 && index != 24
  | .window _ => table == 10 && index == 24
  | .warden _ => table == 11

/-- The number of entries of a table, 0 for an identifier that names none (R200). -/
def tableSize : Nat → Nat
  | 0 => 1
  | 1 => 512
  | 2 => 24
  | 3 => 8
  | 4 => 256
  | 5 => 32
  | 6 => 8
  | 7 => 4
  | 8 => 64
  | 9 => 4
  | 10 => 25
  | 11 => 1
  | _ => 0

/-- Whether the body fits the code (R198 step 4); a write whose table or index names nothing is left
to R200. -/
def bodyFits (e : Entry) : Bool :=
  e.req.formOk &&
    match e.body with
    | .tableWrite t i c => contentsFit t i c || decide (tableSize t ≤ i)
    | _ => true

/-- The code names no command of the router that passes through the queue (R198 step 1). -/
def unknownCode : CmdBody → Bool
  | .unknown _ | .slotRequest _ | .slotRelease _ => true
  | _ => false

/-- The checks of R198, steps 1 to 5, in order: the result that refuses the command, or none. -/
def refusalOf (s : State) (e : Entry) : Option Result :=
  if unknownCode e.body then some .badArgument
  else if e.req.cls = 4 ∨ e.req.cls = 5 then some .notPermitted
  else if !permits s.work.orig[e.req.cls].perms e.body then some .notPermitted
  else if !bodyFits e then some .badArgument
  else if s.alarmLock && lockRefuses e.body then some .locked
  else none

/-! ## Beginning a command (R196) -/

/-- Something is pending in the set of labels to be announced (R189). -/
def pendingAny : Cleared → Bool
  | .all => true
  | .labels ls => !ls.isEmpty

/-- The master's notice waits for a place and could take one (R193). -/
def noticeReady (s : State) : Bool := s.rif.master && s.locked && pendingAny s.slots.pending

/-- The Command Engine may begin the command at the head of the queue with `need` messages to place:
the router runs, no RESTART waits for a commit, the outbound queue has the room, and nothing that
R187 puts before it takes the room (R196, R197, R204). -/
def mayBegin (s : State) (need : Nat) : Bool :=
  s.running && s.restart.isNone && decide (need ≤ s.room) &&
    (decide (s.room = 0) || s.deferred.isEmpty) && (decide (need = 0) || !noticeReady s)

/-- A command carried out: it leaves the queue, and the room of its reply is held for it until its
execution is settled (R187, R196). -/
def carryOut (own : Nat) (act : State → State) (s : State) : State :=
  { act { s with cmdQueue := s.cmdQueue.tail, reserved := own } with reserved := 0 }

/-- The command `e` begins when it stands at the head of the command queue and may begin with room for
the `own` messages of its reply and the `extra` messages it places beside it (R196). -/
def begins (e : Entry) (extra own : Nat) (act : State → State) (s : State) : Out :=
  whenever (s.cmdQueue.head? == some e && mayBegin s (extra + own)) (carryOut own act) s

/-- A command of the control stream that places messages beside its reply: refused by a check of R198
with that result, or handed to its owning block with the room it needs. -/
def commandWith (e : Entry) (extra own : State → Nat) (act : State → State) (s : State) : Out :=
  match refusalOf s e with
  | some r => begins e 0 1 (reply e r .none) s
  | none => begins e (extra s) (own s) act s

/-- Nothing placed beside the reply. -/
def noExtra (_ : State) : Nat := 0

/-- A command of the control stream that places its reply alone. -/
def command (e : Entry) (own : State → Nat) (act : State → State) (s : State) : Out :=
  commandWith e noExtra own act s

/-- The room of a command that places one reply. -/
def oneReply (_ : State) : Nat := 1

/-! ## Zone sets (R94) -/

/-- A zone is trimmed when it is outside the class's reach or not in use (R94). -/
def trimmed (s : State) (cls : Class) (z : Zone) : Bool :=
  !reachOf s.work cls z || !zoneInUse s z

/-- The zones a zone set command acts on, in zone order (R94). -/
def keptZones (s : State) (cls : Class) (zs : ZoneSet) : List Zone :=
  allZones.filter fun z => inSet zs z && !trimmed s cls z

/-- The trimmed count (R94). -/
def trimCount (s : State) (cls : Class) (zs : ZoneSet) : Nat :=
  (allZones.filter fun z => inSet zs z && trimmed s cls z).length

/-- The reply of a zone set command (R94). -/
def replyTrimmed (e : Entry) (n : Nat) (s : State) : State :=
  if n = 0 then replyDone e s else reply e .doneTrimmed (.trimmed n) s

/-- A zone set command carried out: each kept zone settled in full, then the reply (R94). -/
def onZones (e : Entry) (zs : ZoneSet) (f : Zone → State → State) (s : State) : State :=
  replyTrimmed e (trimCount s e.req.cls zs)
    ((keptZones s e.req.cls zs).foldl (fun t z => f z t) s)

/-! ## Checks of written contents

Each check answers the entry as it is stored, clamped where its rule clamps, or `none` for a
structural error (R200). -/

/-- A level field: a number up to 127, or unknown (R1). -/
def levelOk : Level → Bool
  | some l => decide (l ≤ 127)
  | none => true

/-- A sector number (R2). -/
def sectorOk (n : Nat) : Bool := decide (n ≤ 7)

/-- Whether a coded field names one of its values. -/
def isNamed {α : Type} : Coded α → Bool
  | .named _ => true
  | .other _ => false

/-- Node Identity (R183, R68). -/
def checkNode (e : NodeIdentity) : Option NodeIdentity :=
  if e.addr ≤ 239 ∧ e.groups.length ≤ 4 ∧ e.groups.all (fun g => decide (240 ≤ g ∧ g ≤ 251)) ∧
      e.groups.Nodup ∧ (1 ≤ e.report ∧ e.report ≤ 251 ∨ e.report = 253 ∨ e.report = 255) then
    some { e with isoDelay := min e.isoDelay 600 }
  else none

/-- Detection Zone Map (R1, R2, R4). -/
def checkDetZone (e : DetZone) : Option DetZone :=
  if levelOk e.level ∧ (e.sector.all sectorOk) then some e else none

/-- The level span of a speaker zone (R5). -/
def spanOk (e : SpkZone) : Bool :=
  match e.levelLo, e.levelHi with
  | some a, some b => decide (a ≤ b) && levelOk (some a) && levelOk (some b)
  | none, none => true
  | _, _ => false

/-- Speaker Zone Map (R1, R2, R5). -/
def checkSpkZone (e : SpkZone) : Option SpkZone :=
  if spanOk e ∧ sectorOk e.sector ∧ isNamed e.kind then some { e with trim := min e.trim 40 }
  else none

/-- Local Input Map (R10): the dz of an entry in use is at most 511 and held by no other in-use
entry. -/
def checkLocalIn (t : Tables) (i : Nat) (e : LocalIn) : Option LocalIn :=
  if !e.inUse then some e
  else if e.dz ≤ 511 ∧
      (List.finRange 8).all (fun j => decide (j.val = i) || !t.inputs[j].inUse
        || decide (t.inputs[j].dz ≠ e.dz)) then some e
  else none

/-- The scope of an effect (R36). -/
def scopeOk : Coded Scope → Bool
  | .named (.relative lo hi) => decide (-16 ≤ lo) && decide (hi ≤ 16) && decide (lo ≤ hi)
  | .named (.fixed _) => true
  | .other _ => false

/-- Whether a kind filter is non-empty (R36). -/
def kindsAny (k : KindSet) : Bool := k.floor || k.stair || k.lift || k.refuge

/-- One effect of an entry written in use (R36). -/
def effectOk (e : Effect) : Bool :=
  scopeOk e.scope && kindsAny e.kinds && isNamed e.sector && isNamed e.first &&
    decide (e.alert ≤ 31) && decide (e.evacuate ≤ 31)

/-- Cause-and-Effect Table (R35, R36): an entry not in use is stored as written. The delay is clamped
whatever the first stage (log entry 48). -/
def checkCeEntry (e : CeEntry) : Option CeEntry :=
  if !e.inUse then some e
  else if e.dzHi ≤ 511 ∧ e.dzLo ≤ e.dzHi ∧ 1 ≤ e.effects.length ∧ e.effects.length ≤ 4 ∧
      e.effects.all effectOk then
    some { e with effects := e.effects.map fun f => { f with delay := min f.delay 3600 } }
  else none

/-- The source of a template written in use (R38). -/
def templSourceOk : Coded Source → Bool
  | .named (.ring n) => decide (n ≤ 31)
  | .named (.playout n) => decide (n ≤ 3)
  | .named (.tone n) => decide (n ≤ 3)
  | .named .warden | .named .none => true
  | .other _ => false

/-- Whether a source is a ring slot. -/
def isRing : Coded Source → Bool
  | .named (.ring _) => true
  | _ => false

/-- The fallback of a template written in use: absent, or a channel or cadence under a ring source
(R38). -/
def templFallbackOk (src : Coded Source) : Option (Coded Fallback) → Bool
  | none => true
  | some (.named (.playout n)) => decide (n ≤ 3) && isRing src
  | some (.named (.tone n)) => decide (n ≤ 3) && isRing src
  | some (.other _) => false

/-- Claim Templates (R38); the attenuation is clamped whether or not the template is in use (log
entry 16). -/
def checkTemplate (e : Template) : Option Template :=
  if !e.inUse ∨ (templSourceOk e.source ∧ e.prio ≤ 15 ∧ templFallbackOk e.source e.fallback) then
    some { e with atten := min e.atten 80 }
  else none

/-- Originator Table (R91). -/
def checkOrig (e : OrigEntry) : Option OrigEntry :=
  if e.preset ≤ 31 ∧ !e.outside then some e else none

/-- Tone Cadence Table (R115); durations are clamped whether or not the cadence is in use (log entry
16), and the pause whatever the burst count (log entry 49). -/
def checkCadence (e : Cadence) : Option Cadence :=
  if !e.inUse ∨ ((e.freq = 500 ∨ e.freq = 800 ∨ e.freq = 1000 ∨ e.freq = 2000) ∧ e.bursts ≤ 15) then
    some { e with on := min 5000 (max 50 e.on), off := min 5000 e.off, pause := min 10000 e.pause }
  else none

/-- Phrase Directory (R124), but for the phrase a capture is recording. -/
def checkPhrase (e : Phrase) : Option Phrase :=
  if e.start < Config.storeSize ∧ e.start + e.capacity ≤ Config.storeSize ∧ e.length ≤ e.capacity
  then some e else none

/-- A step of a program written in use (R126). -/
def stepOk : Coded PStep → Bool
  | .named (.phrase n) => decide (n ≤ 63)
  | .named (.gap _) => true
  | .other _ => false

/-- A step with its gap clamped (R126). -/
def clampStep : Coded PStep → Coded PStep
  | .named (.gap d) => .named (.gap (min 10000 (max 10 d)))
  | p => p

/-- Playout Programs (R126); gaps are clamped whether or not the program is in use (log entry 16). -/
def checkProgram (e : Program) : Option Program :=
  if !e.inUse ∨ (isNamed e.mode ∧ 1 ≤ e.steps.length ∧ e.steps.length ≤ 8 ∧ e.steps.all stepOk) then
    some { e with steps := e.steps.map clampStep }
  else none

/-- Supervision Limits of a zone (R159). -/
def checkLimits (e : Limits) : Option Limits :=
  if e.aUpper ≤ 65535 ∧ e.bUpper ≤ 65535 ∧ e.aLower ≤ e.aUpper ∧ e.bLower ≤ e.bUpper then some e
  else none

/-- The supervision window, clamped (R159). -/
def clampWindow (ms : Nat) : Nat := min 1000 (max 50 ms)

/-- Warden Settings, max talk clamped (R145). -/
def clampWarden (e : WardenSettings) : WardenSettings :=
  { e with maxTalk := min 600 (max 10 e.maxTalk) }

end Sys2Proof.Machine
end

