-- ==== Sys2Proof/Machine/Stages.lean ====
section
/-!
DEFINITION. The Stage Timer Bank (chapter 4): re-merge, expiry, and the meanings of
STAGE_TIMER_EXPIRY, ISOLATION_ESCALATION, ESCALATE_NOW, ESCALATE_NOW_ALL, HOLD_STAGES and
RELEASE_STAGES.
-/

namespace Sys2Proof.Machine

/-! ## Records -/

/-- The record of a detection zone. -/
def recordOf (s : State) (dz : Nat) : Option ActRecord := s.acts.find? fun r => r.dz == dz

/-- The record of a detection zone changed in its place (R17). -/
def mapRecord (dz : Nat) (f : ActRecord → ActRecord) (s : State) : State :=
  { s with acts := s.acts.map fun r => if r.dz = dz then f r else r }

/-- A reference at its expiry: EVACUATE, without a timer (R60). -/
def refExpired (f : Ref) : Ref := { f with stage := .evacuate, timer := none, due := false }

/-! ## Re-merge and expiry -/

/-- The re-merge of a record in one zone (R55). -/
def remerge (r : ActRecord) (z : Zone) (s : State) : State :=
  match mergeClaim s.work s.now r z, claimOf (.cause r.dz) s.lists[z] with
  | some c, some held => if { c with placed := held.placed } = held then s else offer z c s
  | some c, none => offer z c s
  | none, some _ => removal z (ownedBy (.cause r.dz)) s
  | none, none => s

/-- The zones that a reference of a record reaches, in zone order (R55). -/
def zonesReached (t : Tables) (r : ActRecord) (f : Ref) : List Zone :=
  allZones.filter fun z => refReaches t r f z

/-- The expiry of reference `i` of the record of `dz`, all three steps (R60, R61). -/
def expire (dz i : Nat) (s : State) : State :=
  match recordOf s dz with
  | none => s
  | some r =>
    match r.refs[i]? with
    | none => s
    | some f =>
      let r' := { r with refs := r.refs.set i (refExpired f) }
      let s1 := mapRecord dz (fun _ => r') s
      let s2 := (zonesReached s.work r' f).foldl (fun t z => remerge r' z t) s1
      report (.causeEscalated dz f.entry f.effect) s2

/-- The positions of a record's references that carry a timer, in list order. -/
def timedRefs (r : ActRecord) : List Nat :=
  (List.range r.refs.length).filter fun i =>
    match r.refs[i]? with
    | some f => f.timer.isSome
    | none => false

/-- Every stage timer of one record is set to 0 and expires, in list order (R63). -/
def expireRecord (dz : Nat) (s : State) : State :=
  match recordOf s dz with
  | none => s
  | some r => (timedRefs r).foldl (fun t i => expire dz i t) s

/-- Every stage timer of every record expires, records in activation order (R64, R70). -/
def expireEverything (s : State) : State :=
  (s.acts.map fun r => r.dz).foldl (fun t dz => expireRecord dz t) s

/-- A stage timer whose last millisecond has passed (R58, R59). -/
def timerDue (s : State) (dz i : Nat) : Bool :=
  match recordOf s dz with
  | none => false
  | some r =>
    match r.refs[i]? with
    | some f => f.due
    | none => false

/-- The stage timers whose last millisecond has passed: records in activation order, references in list
order, which is the model's choice among the orders of R62 (log entry 66). -/
def dueTimers (s : State) : List (Nat × Nat) :=
  s.acts.flatMap fun r =>
    ((List.range r.refs.length).filter fun i => ((r.refs[i]?).map fun f => f.due).getD false).map
      fun i => (r.dz, i)

/-- Every expiry that has fallen due and is still to come is taken (R58, log entry 4). -/
def expireDue (s : State) : State := (dueTimers s).foldl (fun t p => expire p.1 p.2 t) s

/-- A hold taken before an expiry that has fallen due: the timer keeps its last millisecond (R67). -/
def keepTimers (s : State) : State :=
  { s with acts := s.acts.map fun r =>
      { r with refs := r.refs.map fun f => { f with due := false } } }

/-! ## Meanings -/

/-- STAGE_TIMER_EXPIRY (R60): the last millisecond of the timer of reference `i` of the record of `dz` has
passed; the expiry brings it to 0 and removes it (R58). -/
def execStageTimerExpiry (dz i : Nat) (s : State) : Out :=
  whenever (s.running && timerDue s dz i) (expire dz i) s

/-- ISOLATION_ESCALATION (R70). -/
def execIsolationEscalation (s : State) : Out :=
  whenever (s.running && s.rif.ring == .isolated && s.isoTimer == some 0)
    (fun s => expireEverything { s with isoTimer := none, isoEscalated := true }) s

/-- ESCALATE_NOW (R63). -/
def execEscalateNow (q : Request) (dz : Nat) (s : State) : Out :=
  let e : Entry := ⟨q, .escalateNow dz⟩
  command e oneReply (fun s =>
    if 511 < dz then reply e .badArgument .none s else replyDone e (expireRecord dz s)) s

/-- ESCALATE_NOW_ALL (R64). -/
def execEscalateNowAll (q : Request) (s : State) : Out :=
  let e : Entry := ⟨q, .escalateNowAll⟩
  command e oneReply (fun s => replyDone e (expireEverything s)) s

/-- HOLD_STAGES (R65, R67). -/
def execHoldStages (q : Request) (s : State) : Out :=
  let e : Entry := ⟨q, .holdStages⟩
  command e oneReply (fun s => replyDone e { keepTimers s with hold := true }) s

/-- RELEASE_STAGES (R66). -/
def execReleaseStages (q : Request) (s : State) : Out :=
  let e : Entry := ⟨q, .releaseStages⟩
  command e oneReply (fun s => replyDone e { s with hold := false }) s

end Sys2Proof.Machine
end

