-- ==== Sys2Proof/Machine/Causes.lean ====
section
/-!
DEFINITION. The Cause Unit (chapter 2) and the local cause inputs (1.4): recording, overflow,
removal, and the meanings of CAUSE_ON, CAUSE_OFF, CAUSE_RESET, CAUSE_RESET_ALL, LOCAL_INPUT_EDGE and
LOCAL_INPUT_TAKEN.
-/

namespace Sys2Proof.Machine

/-! ## CAUSE ON -/

/-- The position a record copies from the Detection Zone Map: level and sector of an entry in use,
both unknown otherwise (R3). -/
def placeOf (t : Tables) (dz : Nat) : Level × Option Nat :=
  match t.dzMap[dz]? with
  | some e => if e.inUse then (e.level, e.sector) else (none, none)
  | none => (none, none)

/-- The record a CAUSE ON creates (R15, R19, R20, R25). `latch` is the latch flag of a local input's
entry; a ring cause has none. -/
def newRecord (s : State) (dz : Nat) (cls : Class) (origin : Nat) (latch : Option Bool) :
    ActRecord :=
  { dz := dz, cls := cls, origin := origin, time := s.now
    level := (placeOf s.work dz).1, sector := (placeOf s.work dz).2
    latched := latch.getD (if s.defaultMode then true else matchLatch s.work dz)
    restored := false
    truncated := if s.defaultMode then false else matchTruncated s.work dz
    refs := if s.defaultMode then [] else matchRefs s.work dz }

/-- The merged claims of a new record offered zone by zone (R54). -/
def offerRecord (r : ActRecord) (s : State) : State :=
  allZones.foldl (fun t z =>
    match mergeClaim t.work t.now r z with
    | some c => offer z c t
    | none => t) s

/-- A CAUSE ON for a detection zone without a record, with room in the list (R19), and the immediate
escalation of its timers while the isolation escalated condition holds (R71). -/
def recordCause (dz : Nat) (cls : Class) (origin : Nat) (latch : Option Bool) (s : State) :
    State :=
  let r := newRecord s dz cls origin latch
  let s1 := updateLock { s with acts := s.acts ++ [r] }
  let s2 :=
    if s.defaultMode then
      if s.acts.isEmpty then offerAll (overflowClaim s1) s1 else s1
    else offerRecord r s1
  if s.isoEscalated then expireRecord dz s2 else s2

/-- A CAUSE ON that finds the list full: ACTIVATION OVERFLOW is entered with its claim, and an
OVERFLOW report is queued in any case (R21, R23), behind the reports of the claim's offers (log entry
47). -/
def refuseCause (dz : Nat) (cls : Class) (s : State) : State :=
  let s1 :=
    if s.overflow then s
    else offerAll (overflowClaim s) { s with overflow := true }
  report (.overflow dz cls) s1

/-- A CAUSE ON finds the list full and no record of its zone (R21). -/
def causeOverflows (s : State) (dz : Nat) : Bool :=
  (recordOf s dz).isNone && decide (Config.actMax ≤ s.acts.length)

/-- A CAUSE ON taken by the Cause Unit (R18, R19, R21). -/
def causeOn (dz : Nat) (cls : Class) (origin : Nat) (latch : Option Bool) (s : State) : State :=
  if (recordOf s dz).isSome then mapRecord dz (fun r => { r with restored := false }) s
  else if causeOverflows s dz then refuseCause dz cls s
  else recordCause dz cls origin latch s

/-! ## Removal of a record (R26) -/

/-- The claims that leave the zones with a record: its own, and the OVERFLOW claim where the claim
condition has ended (R26 step 4). -/
def leavesWith (dz : Nat) (ended : Bool) (c : Claim) : Bool :=
  ownedBy (.cause dz) c || (ended && ownedBy .overflow c)

/-- A record is removed, with all four steps of R26; its stage timers stand in the record and go with
it. -/
def removeRecord (dz : Nat) (s : State) : State :=
  let rest := s.acts.filter fun r => r.dz != dz
  let s1 := { s with acts := rest, overflow := s.overflow && !rest.isEmpty }
  removalAll (leavesWith dz rest.isEmpty) (updateLock s1)

/-- A CAUSE OFF taken by the Cause Unit (R27). -/
def causeOff (dz : Nat) (s : State) : State :=
  match recordOf s dz with
  | none => s
  | some r =>
    if r.latched then mapRecord dz (fun r => { r with restored := true }) s
    else removeRecord dz s

/-- A CAUSE RESET of one detection zone taken by the Cause Unit (R28). -/
def causeReset (dz : Nat) (s : State) : State :=
  if (recordOf s dz).isSome then removeRecord dz s else s

/-- A CAUSE RESET ALL taken by the Cause Unit, oldest record first (R29). -/
def causeResetAll (s : State) : State :=
  (s.acts.map fun r => r.dz).foldl (fun t dz => removeRecord dz t) s

/-! ## Meanings of the ring commands -/

/-- CAUSE_ON (R18, R19, R21). -/
def execCauseOn (q : Request) (dz : Nat) (s : State) : Out :=
  let e : Entry := ⟨q, .causeOn dz⟩
  command e oneReply (fun s =>
    if 511 < dz then reply e .badArgument .none s
    else
      reply e .done (if causeOverflows s dz then .overflowed else .none)
        (causeOn dz q.cls q.origin none s)) s

/-- CAUSE_OFF (R27). -/
def execCauseOff (q : Request) (dz : Nat) (s : State) : Out :=
  let e : Entry := ⟨q, .causeOff dz⟩
  command e oneReply (fun s =>
    if 511 < dz then reply e .badArgument .none s else replyDone e (causeOff dz s)) s

/-- CAUSE_RESET (R28). -/
def execCauseReset (q : Request) (dz : Nat) (s : State) : Out :=
  let e : Entry := ⟨q, .causeReset dz⟩
  command e oneReply (fun s =>
    if 511 < dz then reply e .badArgument .none s else replyDone e (causeReset dz s)) s

/-- CAUSE_RESET_ALL (R29). -/
def execCauseResetAll (q : Request) (s : State) : Out :=
  let e : Entry := ⟨q, .causeResetAll⟩
  command e oneReply (fun s => replyDone e (causeResetAll s)) s

/-! ## Local cause inputs (R11–R14) -/

/-- Whether a local input is active: its electrical level equals the active level of its entry
(R11). -/
def inputActive (s : State) (n : Fin 8) : Bool :=
  s.pins.inputHigh[n] == s.work.inputs[n].activeHigh

/-- A debounce record observes the activity of its input (R11): a difference from the taken state
keeps or creates a pending change, equality removes it. -/
def debounce (now : Nat) (active : Bool) (d : Debounce) : Debounce :=
  if active = d.active then { d with due := none }
  else { d with due := some (d.due.getD (now + Config.inputMs)) }

/-- A local input's debounce record observes its input now. -/
def observeInput (n : Fin 8) (s : State) : State :=
  { s with inputs := upd s.inputs n (debounce s.now (inputActive s n)) }

/-- LOCAL_INPUT_EDGE (R11): the pin takes its level, in every phase of the router; the debounce of an
input in use runs once the load has completed (R14). -/
def execLocalInputEdge (n : Fin 8) (high : Bool) (s : State) : Out :=
  let s1 := { s with pins := { s.pins with inputHigh := s.pins.inputHigh.set n high } }
  .next (if s1.running && s1.work.inputs[n].inUse then observeInput n s1 else s1)

/-- Whether a local input's pending change has reached its deadline. -/
def inputDue (s : State) (n : Fin 8) : Bool :=
  s.work.inputs[n].inUse &&
    match s.inputs[n].due with
    | some d => decide (d ≤ s.now)
    | none => false

/-- LOCAL_INPUT_TAKEN (R11, R12): the change is taken and delivered to the Cause Unit directly, with
class 4, the node address in use and the entry's latch flag. -/
def execLocalInputTaken (n : Fin 8) (s : State) : Out :=
  whenever (s.running && inputDue s n)
    (fun s =>
      let a := inputActive s n
      let s1 := { s with inputs := s.inputs.set n { active := a, due := none } }
      let e := s.work.inputs[n]
      if a then causeOn e.dz 4 s.rif.addr (some e.latch) s1 else causeOff e.dz s1) s

end Sys2Proof.Machine
end

