-- ==== Sys2Proof/Machine/Zones.lean ====
section
/-!
DEFINITION. The commands on zone sets (5.7): the meanings of ZONE_SET, ZONE_CLEAR, SILENCE and
RESOUND.
-/

namespace Sys2Proof.Machine

/-- The COMMAND claim of a class, built from its preset template, where that is in use (R95). -/
def commandClaim (s : State) (cls : Class) : Option Claim :=
  (templateInUse s.work s.work.orig[cls].preset).map fun t =>
    claimFrom (.command cls) t none s.now

/-- The yield test at one zone: no other owner's claim stands at or above the built claim's priority
(R96). -/
def yieldPasses (c : Claim) (l : List Claim) : Bool :=
  match l.find? fun d => d.owner != c.owner with
  | none => true
  | some d => decide (d.prio < c.prio)

/-- A ZONE SET's claim reaches one zone (R95, R96). -/
def zoneSetAt (c : Claim) (yield : Bool) (z : Zone) (s : State) : State :=
  if yield && !yieldPasses c s.lists[z] then s else offer z c s

/-- ZONE_SET (R95, R96). -/
def execZoneSet (q : Request) (zs : ZoneSet) (yield : Bool) (s : State) : Out :=
  let e : Entry := ⟨q, .zoneSet zs yield⟩
  command e oneReply (fun s =>
    match commandClaim s q.cls with
    | none => reply e .badArgument .none s
    | some c => onZones e zs (zoneSetAt c yield) s) s

/-- ZONE_CLEAR (R97). -/
def execZoneClear (q : Request) (zs : ZoneSet) (s : State) : Out :=
  let e : Entry := ⟨q, .zoneClear zs⟩
  command e oneReply (onZones e zs fun z => removal z (ownedBy (.command q.cls))) s

/-- SILENCE (R98). -/
def execSilence (q : Request) (zs : ZoneSet) (s : State) : Out :=
  let e : Entry := ⟨q, .silence zs⟩
  command e oneReply (fun s => onZones e zs (fun z => offer z (silenceClaim q.cls s.now)) s) s

/-- RESOUND (R99). -/
def execResound (q : Request) (zs : ZoneSet) (s : State) : Out :=
  let e : Entry := ⟨q, .resound zs⟩
  command e oneReply (onZones e zs fun z => removal z isSilence) s

end Sys2Proof.Machine
end

