-- ==== Sys2Proof/Machine/Playout.lean ====
section
/-!
DEFINITION. The Tone Generator's and the Playout Unit's own steps (6.7, 7.4–7.8): the meanings of
CADENCE_PHASE_END, PLAYOUT_STEP_END, PLAY_START, PLAY_STOP, CAPTURE, CAPTURE_LIMIT and CAPTURE_STOP.
-/

namespace Sys2Proof.Machine

/-- CADENCE_PHASE_END (R119): the phase in progress of a running cadence in use has run out. -/
def execCadencePhaseEnd (n : Fin 4) (s : State) : Out :=
  whenever (s.running && s.cads[n].running && s.work.cad[n].inUse &&
      decide (s.cads[n].remaining = 0))
    (fun s => { s with cads := upd s.cads n (cadPhaseEnd s.work.cad[n]) }) s

/-! ## The end of a step (R131, R137) -/

/-- A claim whose source names a channel; a fallback naming it does not count (R85). -/
def namesChannel (n : Fin 4) (c : Claim) : Bool := c.source == .playout n.val

/-- A ONCE program has ended: ENDED first, then the claims naming the channel are removed, zone by
zone, each refilled before the next (R137). -/
def onceEnds (n : Fin 4) (s : State) : State := removalAll (namesChannel n) (stopChan n .ended s)

/-- A step of a channel ends (R131): a DEMAND channel without listeners waits (R133); else the next
step begins, or the program has ended and the channel proceeds by its mode. -/
def stepEnds (n : Fin 4) (s : State) : State :=
  let c := s.chans[n]
  let p := s.work.progs[n]
  if p.mode = .named .demand ∧ c.listeners = 0 then stopChan n .waiting s
  else if c.step + 1 < p.steps.length then beginStep n (c.step + 1) s
  else if p.mode = .named .once then onceEnds n s
  else beginStep n 0 s

/-- The step of a running channel has run out: a PHRASE step has given its last sample (R129); a silence has
no millisecond left and has lasted its sample times beyond the last one (R130, log entry 19). -/
def stepOver (c : ChanRun) : Bool :=
  c.state == .running &&
    match c.kind with
    | .phrase => c.due
    | .gap | .missing => decide (c.remaining = 0) && decide (c.late = 0)

/-- PLAYOUT_STEP_END (R129, R131): the remaining time of a running channel's step reaches 0, and the step
ends. -/
def execPlayoutStepEnd (n : Fin 4) (s : State) : Out :=
  whenever (s.running && stepOver s.chans[n]) (stepEnds n) s

/-! ## PLAY START and PLAY STOP (R139) -/

/-- PLAY START of a channel, by the mode of its program (R133, R135, R136). -/
def playStart (n : Fin 4) (s : State) : State :=
  let c := s.chans[n]
  let p := s.work.progs[n]
  if !p.inUse then s
  else match p.mode with
    | .named .repeat => if c.state = .idle then startChan n s else s
    | .named .once => if c.state = .idle ∨ c.state = .ended then startChan n s else s
    | _ => s

/-- PLAY STOP of a channel, by the mode of its program (R133, R135, R136). -/
def playStop (n : Fin 4) (s : State) : State :=
  let c := s.chans[n]
  let p := s.work.progs[n]
  if !p.inUse then s
  else match p.mode with
    | .named .repeat => if c.state = .running then stopChan n .idle s else s
    | .named .once => if c.state = .running ∨ c.state = .ended then stopChan n .idle s else s
    | _ => s

/-- PLAY_START (R139). -/
def execPlayStart (q : Request) (ch : Nat) (s : State) : Out :=
  let e : Entry := ⟨q, .playStart ch⟩
  command e oneReply (fun s =>
    if h : ch < 4 then replyDone e (playStart ⟨ch, h⟩ s) else reply e .badArgument .none s) s

/-- PLAY_STOP (R139). -/
def execPlayStop (q : Request) (ch : Nat) (s : State) : Out :=
  let e : Entry := ⟨q, .playStop ch⟩
  command e oneReply (fun s =>
    if h : ch < 4 then replyDone e (playStop ⟨ch, h⟩ s) else reply e .badArgument .none s) s

/-! ## Capture (R140–R142) -/

/-- A channel in use that is RUNNING or WAITING has a PHRASE step naming a phrase (R140). -/
def phraseInUse (s : State) (p : Nat) : Bool :=
  (List.finRange 4).any fun n =>
    s.work.progs[n].inUse &&
      (s.chans[n].state == .running || s.chans[n].state == .waiting) &&
      s.work.progs[n].steps.any fun st => st == .named (.phrase p)

/-- The result that settles a CAPTURE before it begins, or none where it begins (R140). -/
def captureRefusal (s : State) (p slot ms : Nat) : Option Result :=
  if 63 < p ∨ 31 < slot ∨ ms = 0 then some .badArgument
  else if s.capture.isSome then some .busy
  else if phraseInUse s p then some .inUse
  else if ((s.work.phrases[p]?).map fun x => x.capacity) = some 0 then some .badArgument
  else if !s.locked then some .aborted
  else none

/-- The working Phrase Directory with one entry changed. -/
def mapPhrase (p : Nat) (f : Phrase → Phrase) (s : State) : State :=
  { s with work := { s.work with phrases := updNat s.work.phrases p f } }

/-- A capture begins: its phrase is marked not valid and the capture record is created (R140). -/
def beginCapture (q : Request) (p slot ms : Nat) (s : State) : State :=
  { mapPhrase p (fun x => { x with valid := false }) s with
    capture := some
      { phrase := p, slot := slot, maxSamples := min ms 262144 * 16, recorded := 0,
        requester := q } }

/-- CAPTURE (R140). -/
def execCapture (q : Request) (p slot ms : Nat) (s : State) : Out :=
  let e : Entry := ⟨q, .capture p slot ms⟩
  command e oneReply (fun s =>
    match captureRefusal s p slot ms with
    | some r => reply e r .none s
    | none => beginCapture q p slot ms s) s

/-- The sample count at which a capture meets a limit: the phrase's capacity or its max samples
(R141). -/
def captureLimit (s : State) (c : Capture) : Nat :=
  match s.work.phrases[c.phrase]? with
  | some p => min p.capacity c.maxSamples
  | none => 0

/-- A capture in flight ends with the count it has reached: the phrase becomes valid with that
length, and DONE is placed for the requester (R141). -/
def endCapture (s : State) : State :=
  match s.capture with
  | none => s
  | some c =>
    placeOrDefer (replyMsg c.requester .capture .done (.captured c.recorded))
      { mapPhrase c.phrase (fun x => { x with length := c.recorded, valid := true }) s with
        capture := none }

/-- Whether a capture in flight has reached a limit. -/
def captureDue (s : State) : Bool :=
  match s.capture with
  | some c => decide (captureLimit s c ≤ c.recorded)
  | none => false

/-- CAPTURE_LIMIT (R141). -/
def execCaptureLimit (s : State) : Out :=
  whenever (s.running && captureDue s) endCapture s

/-- CAPTURE STOP places the capture's DONE beside its own where a capture is in flight (R196). -/
def captureStopExtra (s : State) : Nat := if s.capture.isSome then 1 else 0

/-- CAPTURE_STOP (R141). -/
def execCaptureStop (q : Request) (s : State) : Out :=
  let e : Entry := ⟨q, .captureStop⟩
  commandWith e captureStopExtra oneReply (fun s => replyDone e (endCapture s)) s

/-- One sample of a capture in flight, which a frame taken while LOCKED brings: the slot's sample, or
silence (R140). -/
def captureSample (heard : Vector (Option Sample) 32) (s : State) : State :=
  match s.capture with
  | none => s
  | some c =>
    match s.work.phrases[c.phrase]? with
    | none => s
    | some p =>
      if c.recorded < captureLimit s c then
        { s with
          store := storeWrite s.store (p.start + c.recorded)
            (match heard[c.slot]? with
             | some (some v) => v
             | _ => 0#16)
          capture := some { c with recorded := c.recorded + 1 } }
      else s

end Sys2Proof.Machine
end

