-- ==== Sys2Proof/Machine/Microphone.lean ====
section
/-!
DEFINITION. The Warden Unit (chapter 8): the key, the press and its claims, the announcement onto the
ring, and the meanings of KEY_EDGE, KEY_PRESS, KEY_RELEASE, FORCED_RELEASE, SLOT_ANSWER_DEADLINE and
WARDEN_FRESH_TAKE.
-/

namespace Sys2Proof.Machine

/-- The Warden Unit's record changed. -/
def setWarden (f : Warden → Warden) (s : State) : State := { s with warden := f s.warden }

/-- The warden slot state changed. -/
def setSlot (x : SlotState) (s : State) : State := setWarden (fun w => { w with slot := x }) s

/-! ## The warden slot record (R152, R153) -/

/-- A SLOT RELEASE is placed where the outbound queue has room (R153). -/
def sendRelease (label : Nat) (s : State) : State :=
  if 0 < s.room then
    place { dest := 253, content := .command true (.slotRelease label) } s
  else s

/-- A SLOT REQUEST (1) is placed, or its want of room reported (R152). -/
def sendRequest (s : State) : State :=
  if 0 < s.room then
    setSlot (.requested (s.now + Config.answerMs))
      (place { dest := 253, content := .command true (.slotRequest 1) } s)
  else report (.wardenLocalOnly .noRoom) s

/-- A key whose press was taken with the warden enabled, which alone starts the talk timer (R148), still
pressed, enabled and announcing to the ring, the RIF LOCKED (R152, R155). A warden enabled during a press
has no effect before the next one (R157). No new request is made for a press whose slot a SLOTS CLEARED notice
has taken, at a relock either (R154, log entry 57). -/
def mayRequest (s : State) : Bool :=
  s.warden.key == .pressed && s.warden.talk.isSome && s.work.warden.enabled &&
    s.work.warden.announce && !s.warden.cleared && s.locked

/-- The slot request of a press or of an entry into LOCKED (R152): sent where the slot state is NONE;
a request cancelled and still awaited serves the new press (R153). -/
def announce (s : State) : State :=
  if mayRequest s then
    match s.warden.slot with
    | .none => sendRequest s
    | .cancelled d => setSlot (.requested d) s
    | _ => s
  else s

/-- A release or forced release reaches the slot record (R153). -/
def slotRelease (s : State) : State :=
  match s.warden.slot with
  | .requested d => setSlot (.cancelled d) s
  | .holding _ label => sendRelease label (setSlot .none s)
  | _ => s

/-- GRANTED reaches the slot record (R153). -/
def slotGranted (slot label : Nat) (s : State) : State :=
  match s.warden.slot with
  | .none => sendRelease label s
  | .requested _ => report (.wardenOnAir slot label) (setSlot (.holding slot label) s)
  | .cancelled _ => sendRelease label (setSlot .none s)
  | .holding _ l => if label = l then s else sendRelease label s

/-- DENIED reaches the slot record (R153). -/
def slotDenied (free : Nat) (s : State) : State :=
  match s.warden.slot with
  | .requested _ => report (.wardenLocalOnly (.denied free)) (setSlot .none s)
  | .cancelled _ => setSlot .none s
  | _ => s

/-- A SLOTS CLEARED notice names a label, or carries ALL (R193). -/
def clearedNames (c : Cleared) (label : Nat) : Bool :=
  match c with
  | .all => true
  | .labels ls => ls.contains label

/-- A SLOTS CLEARED notice reaches the slot record (R154, R194): the slot held goes, and the press makes no
new request. -/
def slotCleared (c : Cleared) (s : State) : State :=
  match s.warden.slot with
  | .holding slot label =>
    if clearedNames c label then
      report (.wardenLocalOnly (.cleared slot label))
        (setWarden (fun w => { w with slot := .none, cleared := true }) s)
    else s
  | _ => s

/-- The slot that the node inserts the microphone into (R154, R178): its only insertion. -/
def insertionSlot (s : State) : Option Nat :=
  match s.warden.slot with
  | .holding slot _ => some slot
  | _ => none

/-! ## Press and release -/

/-- The WARDEN claim, built from class 5's preset template where that is in use: source WARDEN, no
fallback (R148). -/
def wardenClaim (s : State) : Option Claim :=
  (templateInUse s.work s.work.orig[(5 : Class)].preset).map fun t =>
    { owner := .warden, source := .warden, fallback := none, prio := t.prio, atten := t.atten,
      stage := none, placed := s.now }

/-- The WARDEN claim offered to the reach of class 5, zone by zone (R148). -/
def offerWarden (s : State) : State :=
  match wardenClaim s with
  | none => s
  | some c =>
    (allZones.filter fun z => reachOf s.work 5 z).foldl (fun t z => offer z c t) s

/-- A press is taken (R147, R148): only one taken with the warden enabled has a talk timer. Its slot has not
been cleared (R154). -/
def pressTaken (s : State) : State :=
  let s1 := setWarden (fun w =>
    { w with taken := true, due := none, key := .pressed, cleared := false,
             talk := if s.work.warden.enabled then some 0 else none }) s
  if s1.work.warden.enabled then announce (offerWarden s1) else s1

/-- The talk timer and the WARDEN claims go, and the slot record acts as for a release (R149). -/
def endPress (s : State) : State :=
  slotRelease (removalAll (ownedBy .warden) (setWarden (fun w => { w with talk := none }) s))

/-- A release is taken (R147, R149): a key LOCKED OUT has nothing to undo. -/
def releaseTaken (s : State) : State :=
  let was := s.warden.key
  let s1 := setWarden (fun w => { w with taken := false, due := none, key := .released }) s
  if was = .pressed then endPress s1 else s1

/-- A forced release (R150); before the fresh take of a RESTART the key stays RELEASED (R158). -/
def forceRelease (s : State) : State :=
  let s1 := setWarden
    (fun w => { w with key := if w.key = .pressed then .lockedOut else w.key }) s
  report (.forcedRelease s.work.warden.maxTalk) (endPress s1)

/-- The talk timer counts: the key is PRESSED and the warden enabled, or the fresh take of a RESTART
is still to come (R150). -/
def talkCounts (s : State) : Bool :=
  (s.warden.key == .pressed && s.work.warden.enabled) || s.warden.fresh.isSome

/-- The talk timer has reached max talk (R150). -/
def talkOver (s : State) : Bool :=
  talkCounts s &&
    match s.warden.talk with
    | some e => decide (s.work.warden.maxTalk * 1000 ≤ e)
    | none => false

/-! ## The key (R146, R158) -/

/-- The key record observes the key's position (R146). -/
def observeKey (s : State) : State :=
  setWarden (fun w =>
    if s.pins.keyClosed = w.taken then { w with due := none }
    else { w with due := some (w.due.getD (s.now + Config.keyMs)) }) s

/-- KEY_EDGE (R146): the pin takes its position, in every phase of the router; the key is observed
once the load has completed. Before a fresh take only an opening is noted (R158). -/
def execKeyEdge (closed : Bool) (s : State) : Out :=
  let s1 := { s with pins := { s.pins with keyClosed := closed } }
  .next (if s1.running then
    (match s1.warden.fresh with
     | some f => setWarden (fun w => { w with fresh := some { f with closed := f.closed && closed } }) s1
     | none => observeKey s1)
  else s1)

/-- The key's pending change has reached its deadline. -/
def keyDue (s : State) : Bool :=
  match s.warden.due with
  | some d => decide (d ≤ s.now)
  | none => false

/-- KEY_PRESS (R146, R148). -/
def execKeyPress (s : State) : Out :=
  whenever (s.running && keyDue s && s.pins.keyClosed) pressTaken s

/-- KEY_RELEASE (R146, R149). -/
def execKeyRelease (s : State) : Out :=
  whenever (s.running && keyDue s && !s.pins.keyClosed) releaseTaken s

/-- FORCED_RELEASE (R150). -/
def execForcedRelease (s : State) : Out :=
  whenever (s.running && talkOver s) forceRelease s

/-- The answer deadline of the slot record has been reached (R153). -/
def answerDue (s : State) : Bool :=
  match s.warden.slot with
  | .requested d | .cancelled d => decide (d ≤ s.now)
  | _ => false

/-- SLOT_ANSWER_DEADLINE (R153). -/
def execSlotAnswerDeadline (s : State) : Out :=
  whenever (s.running && answerDue s)
    (fun s =>
      match s.warden.slot with
      | .requested _ => report (.wardenLocalOnly .noAnswer) (setSlot .none s)
      | _ => setSlot .none s) s

/-- The fresh take of a RESTART is due (R158). -/
def freshDue (s : State) : Bool :=
  match s.warden.fresh with
  | some f => decide (f.deadline ≤ s.now)
  | none => false

/-- Whether the key has stood closed since the RESTART (R158). -/
def freshClosed (s : State) : Bool :=
  match s.warden.fresh with
  | some f => f.closed && s.pins.keyClosed
  | none => false

/-- The fresh take with the key still closed is a press (R158). Where that press builds no claim, the warden
being disabled or class 5's preset template not in use (R148), it replaces none of the press that the RESTART
interrupted: those claims are removed, so that none is held beyond max talk (R150, log entry 29). The slot
record is at NONE since the RESTART (R158). -/
def freshPress (s : State) : State :=
  pressTaken (if s.work.warden.enabled && (wardenClaim s).isSome then s
    else removalAll (ownedBy .warden) s)

/-- WARDEN_FRESH_TAKE (R158): a press, or the end of the interrupted press; the ordinary debounce
then runs from taken position OPEN. -/
def execWardenFreshTake (s : State) : Out :=
  whenever (s.running && freshDue s)
    (fun s =>
      let c := freshClosed s
      let s1 := setWarden (fun w => { w with fresh := none }) s
      if c then freshPress s1 else observeKey (endPress s1)) s

end Sys2Proof.Machine
end

