-- ==== Sys2Proof/Machine/Frames.lean ====
section
/-!
DEFINITION. The bytes of the ring (R175, R181), the reception and forwarding of frames (R176–R178),
and the meanings of RING_FRAME_RECEIVED, MASTER_FRAME_ORIGINATE, FORWARD_HOLD_SEND, INSERTION_BEGIN
and RETURN_RECORD_EXPIRY.
-/

namespace Sys2Proof.Machine

/-! ## Checks and bytes -/

/-- One bit through the 16-bit cyclic check with x^16 + x^12 + x^5 + 1 (R175). -/
def crcBit (c : BitVec 16) (b : Bool) : BitVec 16 :=
  if (c.msb != b) = true then (c <<< 1) ^^^ 0x1021#16 else c <<< 1

/-- One byte through the check, most significant bit first (R175). -/
def crcByte (c : BitVec 16) (b : Byte) : BitVec 16 :=
  [7, 6, 5, 4, 3, 2, 1, 0].foldl (fun c i => crcBit c (b.getLsbD i)) c

/-- The cyclic check of a run of bytes, from an initial value with all 16 bits set (R175). -/
def crc16 (bs : List Byte) : BitVec 16 := bs.foldl crcByte 0xFFFF#16

/-- A 16-bit value as two bytes, most significant byte first. -/
def bytes16 (v : BitVec 16) : List Byte := [v.extractLsb' 8 8, v.extractLsb' 0 8]

/-- Bytes 2–78 of a frame, which its check covers (R175, log entries 7 and 72). -/
def frameBody (f : Frame) : List Byte :=
  Config.byte2 f.count f.control ::
    ((Config.flagBytes f.presence).toList ++ (Config.flagBytes f.relay).toList ++
      f.slots.toList.flatMap bytes16 ++ f.ctl.toList)

/-- The 81 bytes of a frame, in the order of R175. -/
def frameBytes (f : Frame) : List Byte :=
  [f.marker.1, f.marker.2] ++ frameBody f ++ bytes16 f.check

/-- The frame marker: 71 followed by 209 (R175). -/
def marker : Byte × Byte := (71#8, 209#8)

/-- The frame marker has the fixed pattern. -/
def markerOk (f : Frame) : Bool := f.marker == marker

/-- A frame is valid when its marker has the fixed pattern and its check passes (R176). -/
def frameOk (f : Frame) : Bool := markerOk f && f.check == crc16 (frameBody f)

/-- A frame with its check computed anew (R177). -/
def sealFrame (f : Frame) : Frame := { f with check := crc16 (frameBody f) }

/-- Idle fill (log entry 8). -/
def idleFill : Vector Byte 4 := Config.idleFill

/-- The void frame that stands for a failed one (R177). -/
def voidFrame (f : Frame) : Frame :=
  sealFrame
    { f with control := .void, presence := 0#32, relay := 0#32,
             slots := Vector.replicate 32 0#16, ctl := idleFill }

/-- The header bytes 0–5 of a message: destination, origin, class and kind, code, body length, tag
(R181). -/
def headerBytes (m : Message) : List Byte :=
  [BitVec.ofNat 8 m.dest, BitVec.ofNat 8 m.origin,
   BitVec.ofNat 3 m.cls.val ++ (Config.kindBits (kindOf m.content) ++ m.low),
   codeByteOf m.content, BitVec.ofNat 8 m.body.length, BitVec.ofNat 8 m.tag]

/-- The message check that R181 defines: over header bytes 0–5 and the body. -/
def messageCheck (m : Message) : BitVec 16 := crc16 (headerBytes m ++ m.body)

/-- A message with its check computed (R181). -/
def sealMessage (m : Message) : Message := { m with check := messageCheck m }

/-- The bytes of a message as it travels: header, body, message check (R181). -/
def messageBytes (m : Message) : List Byte :=
  headerBytes m ++ [BitVec.ofNat 8 m.hops, Config.unionByte m.taken m.takenBar m.full m.fullBar m.spare] ++
    m.body ++ bytes16 m.check

/-! ## Reception (R176, R179) -/

/-- The Ring Interface's record changed. -/
def setRif (f : Rif → Rif) (s : State) : State := { s with rif := f s.rif }

/-- The slots of a frame as they are heard: a sample where the presence flag is set, silence where it
is clear (R105). -/
def heardSlots (f : Frame) : Vector (Option Sample) 32 :=
  Vector.ofFn fun i => if f.presence.getLsbD i.val then some f.slots[i] else none

/-- Silence in every slot (R105). -/
def silentSlots : Vector (Option Sample) 32 := Vector.replicate 32 none

/-- What the RIF notes of a frame received: the run of valid frames, broken by a frame that is not
valid and by a gap, the loss deadline, and the slots heard while LOCKED (R105, R176, R179). -/
def noteFrame (f : Frame) (gap : Bool) (s : State) : State :=
  let ok := frameOk f
  setRif (fun r =>
    { r with
      run := if ok then (if gap then 1 else min Config.lockFrames (r.run + 1)) else 0
      runStart := if ok then some (if gap then s.now else r.runStart.getD s.now) else none
      lastOk := if ok then s.now else r.lastOk
      lossAt := if ok then s.now + Config.lossMs else r.lossAt
      heard := if ok && s.locked then heardSlots f else silentSlots })
    { s with msDue := s.msDue || (ok && s.locked && f.count == 0#4) }

/-- A channel gives `k` sample times: a PHRASE step by `phraseGive`; a GAP or MISSING step whose milliseconds
have passed comes to its end; what the step does not take is owed to the next (R129–R131, log entry 19). -/
def chanSamples (k : Nat) (c : ChanRun) : ChanRun :=
  if c.state = .running then
    match c.kind with
    | .phrase => phraseGive k c
    | .gap | .missing =>
      if c.remaining = 0 then { c with late := c.late - k, owed := c.owed + (k - c.late) } else c
  else c

/-- The part of a message received so far takes a frame: START begins it, CONTINUE goes on with it,
anything else discards it (R176). A CONTINUE joins the part received so far whether or not a frame was missed
before it (log entry 62). -/
def receivePart (f : Frame) (p : Option (List Byte)) : Option (List Byte) :=
  if frameOk f then
    match f.control, p with
    | .start, _ => some f.ctl.toList
    | .continue, some bs => some (bs ++ f.ctl.toList)
    | _, _ => none
  else none

/-- A part received becomes a complete message with the frame that carries its last byte, the tenth beyond
the body length its header gives (R176, R181, R182). A header whose body length is above 32 is no
message's (log entry 46). -/
def takePart (p : Option (List Byte)) (r : Rif) : Rif :=
  match p with
  | none => { r with rx := none }
  | some bs =>
    match bs[4]? with
    | none => { r with rx := some bs }
    | some b =>
      if 32 < b.toNat then { r with rx := none }
      else if 10 + b.toNat ≤ bs.length then { r with rx := none, arrived := r.arrived ++ [bs] }
      else { r with rx := some bs }

/-- After the entry into LOCKED the RIF begins to store and forward at the first frame whose control
state is IDLE or START (R180). -/
def stillPassing (f : Frame) (passing : Bool) : Bool :=
  passing && !(frameOk f && (f.control == .idle || f.control == .start))

/-- The control stream of a frame at a LOCKED node: store and forward (R180, R182). -/
def receiveControl (f : Frame) (s : State) : State :=
  if s.locked then
    let p := stillPassing f s.rif.passing
    setRif (fun r => takePart (if p then none else receivePart f r.rx) { r with passing := p }) s
  else s

/-- A slot entry sees a frame at the master: fresh presence, a presence flag with a clear relay mark,
returns the absence time of a HELD slot to 0 (R178, R192). -/
def freshPresence (f : Frame) (i : Fin 16) (d : DynSlot) : DynSlot :=
  if d.held.isSome && f.presence.getLsbD (16 + i.val) && !f.relay.getLsbD (16 + i.val) then
    { d with absence := 0 }
  else d

/-- A valid frame on the master's ring-in: its presence reaches the Slot Allocation Table, and it is
kept to be carried forward (R178, R192). -/
def masterReceive (f : Frame) (s : State) : State :=
  setRif (fun r => { r with carry := some f })
    { s with slots := { s.slots with
        entries := Vector.ofFn fun i => freshPresence f i s.slots.entries[i] } }

/-! ## Sending (R177, R178, R182, R188) -/

/-- The next four bytes of a message being sent; the bytes of the last frame beyond the message are
fill (R176). -/
def chunk (bs : List Byte) : Vector Byte 4 := Vector.ofFn fun i => bs.getD i.val idleFill[i]

/-- Ring-out carries one more frame: the message being sent advances by four bytes; the completion of
an own message creates its return record, with a deadline 50 ms later (R182, R188). -/
def advanceTx (s : State) : State :=
  match s.rif.tx with
  | none => s
  | some t =>
    let rest := t.rest.drop 4
    if rest.isEmpty then
      setRif (fun r =>
        { r with tx := none
                 returns := if t.own then r.returns ++ [⟨t.tag, s.now + Config.returnMs⟩]
                            else r.returns }) s
    else setRif (fun r => { r with tx := some { t with rest := rest, fresh := false } }) s

/-- The control state and control bytes that a LOCKED node sends in a frame: those of a message in
passage as received, those of the message being sent, else idle fill, a void frame staying void
(R177, R180, R182, log entry 9). -/
def sentControl (s : State) (control : Control) (ctl : Vector Byte 4) : Control × Vector Byte 4 :=
  if s.rif.passing then (control, ctl)
  else match s.rif.tx with
    | some t => (if t.fresh then .start else .continue, chunk t.rest)
    | none => (if control = .void then .void else .idle, idleFill)

/-- The node's insertion into a frame: its sample, presence set, relay mark clear (R154, R178). -/
def insertSlot (slot : Nat) (mic : Sample) (f : Frame) : Frame :=
  { f with
    presence := f.presence ||| (1#32 <<< slot)
    relay := f.relay &&& ~~~(1#32 <<< slot)
    slots := f.slots.setIfInBounds slot mic }

/-- A frame with the node's insertion, where it holds one and is LOCKED (R154, R178). -/
def withInsertion (s : State) (mic : Sample) (f : Frame) : Frame :=
  match insertionSlot s with
  | some n => if s.locked then insertSlot n mic f else f
  | none => f

/-- The frame a node outside BYPASS that is not the master sends for a frame received whose marker
has the fixed pattern (R177, R178, R182). -/
def forwarded (s : State) (mic : Sample) (f : Frame) : Frame :=
  if frameOk f then
    if s.locked then
      let c := sentControl s f.control f.ctl
      sealFrame { withInsertion s mic f with control := c.1, ctl := c.2 }
    else sealFrame f
  else voidFrame f

/-- A frame received goes on to ring-out (R177). The message being sent advances with a valid frame; a void
frame carries nothing of it, and it goes on with the next frame (log entry 54). -/
def forwardFrame (f : Frame) (mic : Sample) (s : State) : State :=
  if markerOk f then
    let t := setRif (fun r => { r with ringOut := some (forwarded s mic f) }) s
    if frameOk f then advanceTx t else t
  else s

/-- A ring frame received outside BYPASS (R176–R178): noted, its sample given to a capture, one
sample time of the channels while LOCKED, its control stream received, and forwarded; the master
keeps it to carry it forward. -/
def takeFrame (f : Frame) (gap : Bool) (mic : Sample) (s : State) : State :=
  let s1 := noteFrame f gap s
  let s2 :=
    if s1.locked then
      captureSample s1.rif.heard
        { s1 with chans := updAll s1.chans (chanSamples 1), sampleTimes := s1.sampleTimes + 1 }
    else s1
  let s3 := receiveControl f s2
  if s3.rif.master then (if frameOk f then masterReceive f s3 else s3)
  else forwardFrame f mic s3

/-- RING_FRAME_RECEIVED (R177). `gap` says that more than one frame time without a frame passed
before it (R179, log entry 21); `mic` is the warden microphone's sample. In BYPASS the relay passes
the frame unchanged. -/
def execRingFrameReceived (f : Frame) (gap : Bool) (mic : Sample) (s : State) : Out :=
  whenever (s.phase != .off)
    (fun s =>
      if s.rif.ring = .bypass then setRif (fun r => { r with ringOut := some f }) s
      else takeFrame f gap mic s) s

/-! ## The master's frames -/

/-- A slot as the master sends it: fresh samples go on with the relay mark set, samples that have
completed a turn are cleared (R178). -/
def carried (f : Frame) : Frame :=
  let live := f.presence &&& ~~~f.relay
  { f with
    presence := live
    relay := live
    slots := Vector.ofFn fun i => if live.getLsbD i.val then f.slots[i] else 0#16 }

/-- A frame with every slot clear and idle fill. -/
def emptyFrame : Frame :=
  { marker := marker, count := 0#4, control := .idle, presence := 0#32, relay := 0#32,
    slots := Vector.replicate 32 0#16, ctl := idleFill, check := 0#16 }

/-- The frame the master originates (R177, R178, R182). -/
def originated (s : State) (mic : Sample) : Frame :=
  let f := match s.rif.carry with
    | some g => carried g
    | none => emptyFrame
  let c := if s.locked then sentControl s f.control f.ctl else (Control.idle, idleFill)
  sealFrame
    { withInsertion s mic f with
      marker := marker, count := s.rif.count
      control := if c.1 = .void then .idle else c.1, ctl := c.2 }

/-- MASTER_FRAME_ORIGINATE (R177): from the moment the master leaves BYPASS, in every ring state. -/
def execMasterFrameOriginate (mic : Sample) (s : State) : Out :=
  whenever (s.running && s.rif.master && s.rif.ring != .bypass)
    (fun s =>
      advanceTx (setRif (fun r =>
        { r with ringOut := some (originated s mic), carry := none, count := r.count + 1#4 }) s)) s

/-! ## Beginning to send -/

/-- Ring-out carries no message (R182, R187). -/
def ringOutFree (s : State) : Bool := s.rif.tx.isNone && !s.rif.passing

/-- A message of the forward hold as it is sent on, its hops raised by 1 (R182, R186). -/
def sentOn (m : Message) : Message := { m with hops := m.hops + 1 }

/-- FORWARD_HOLD_SEND (R182): the first message of the hold. -/
def execForwardHoldSend (s : State) : Out :=
  whenever (s.running && s.locked && ringOutFree s)
    (fun s =>
      match s.rif.fwd with
      | [] => s
      | m :: rest =>
        setRif (fun r =>
          { r with fwd := rest
                   tx := some { tag := m.tag, own := false, fresh := true, begun := s.now,
                                rest := messageBytes (sentOn m) } }) s) s

/-- A message of the node's own as its insertion begins: class 4, hops 0, an empty union, the node's
next tag, its body and its check (R181, R184, R187); the low bits of byte 2 are free (log entry 44). -/
def ownMessage (s : State) (m : OutMsg) : Message :=
  sealMessage
    { dest := m.dest, origin := s.rif.addr, cls := 4, low := Config.lowBits, content := m.content,
      tag := s.rif.tag, hops := 0, taken := false, takenBar := true, full := false, fullBar := true,
      spare := Config.spareBits, body := (bodyOf m.content).getD [], check := 0#16 }

/-- The insertion of a message begins (R187): the message bears the tag held, which then
rises by 1, from 255 back to 0, so that the first one after a cold start bears tag 0 (log entry 59). -/
def beginInsertion (m : OutMsg) (s : State) : State :=
  setRif (fun r =>
    { r with tag := (r.tag + 1) % 256
             tx := some { tag := r.tag, own := true, fresh := true, begun := s.now,
                          rest := messageBytes (ownMessage s m) } }) s

/-- A report as a message, addressed to the report address as the working Node Identity holds it
(R187, R206). -/
def reportMsg (s : State) (r : Report) : OutMsg :=
  { dest := s.work.node.report, content := .report r }

/-- The insertion arbiter may begin (R187). -/
def mayInsert (s : State) : Bool :=
  s.running && s.locked && s.rif.fwd.isEmpty && ringOutFree s &&
    decide (s.rif.returns.length < Config.returnMax)

/-- INSERTION_BEGIN (R187): the oldest message of the outbound queue, or, when that is empty, the
oldest report. -/
def execInsertionBegin (s : State) : Out :=
  whenever (mayInsert s)
    (fun s =>
      match s.outbound with
      | m :: rest => beginInsertion m { s with outbound := rest }
      | [] =>
        match s.reports with
        | r :: rest => beginInsertion (reportMsg s r) { s with reports := rest }
        | [] => s) s

/-- Return records whose deadline is reached. -/
def returnExpired (now : Nat) (r : ReturnRec) : Bool := decide (r.deadline ≤ now)

/-- RETURN_RECORD_EXPIRY (R188): one record whose deadline is reached is removed and the lost-message
count rises by 1, up to 255. -/
def execReturnRecordExpiry (s : State) : Out :=
  whenever (s.running && s.rif.returns.any (returnExpired s.now))
    (setRif fun r =>
      { r with returns := r.returns.eraseP (returnExpired s.now), lost := min 255 (r.lost + 1) }) s

end Sys2Proof.Machine
end

