-- ==== Sys2Proof/Machine/Ring.lean ====
section
/-!
DEFINITION. The messages of the ring (10.3), the Slot Allocation Table (10.5) and the changes of ring
state (10.2): the meanings of RING_MESSAGE_COMPLETE, RING_LOCK, ISOLATED_RELOCK, RING_LOSS,
RING_ISOLATION, SLOTS_CLEARED_NOTICE, STALE_RECLAIM, SLOT_CLEAR_ALL and DEFERRED_REPLY_PLACE.
-/

namespace Sys2Proof.Machine

/-! ## The Slot Allocation Table (R189) -/

/-- The Slot Allocation Table changed. -/
def setSlots (f : SlotTable → SlotTable) (s : State) : State := { s with slots := f s.slots }

/-- The slot number of an entry: entry i is slot 16 + i. -/
def slotNo (i : Fin 16) : Nat := 16 + i.val

/-- A FREE slot that is announced: what a request may be granted (R189). -/
def grantable (d : DynSlot) : Bool := d.held.isNone && d.announced

/-- The free count: the number of FREE slots that are announced (R189). -/
def freeCount (t : SlotTable) : Nat :=
  ((List.finRange 16).filter fun i => grantable t.entries[i]).length

/-- An entry HELD under a label. -/
def heldUnder (label : Nat) (d : DynSlot) : Bool :=
  match d.held with
  | some h => h.1 == label
  | none => false

/-- An entry HELD under a label by a holder. -/
def heldBy (label holder : Nat) (d : DynSlot) : Bool := d.held == some (label, holder)

/-- The entries that a request of `count` is granted: the lowest-numbered FREE, announced ones
(R190). -/
def grantedEntries (t : SlotTable) (count : Nat) : List (Fin 16) :=
  ((List.finRange 16).filter fun i => grantable t.entries[i]).take count

/-- A slot HELD under a label by a holder, its absence time 0 (R190). -/
def heldSlot (label holder : Nat) : DynSlot :=
  { held := some (label, holder), announced := false, absence := 0, freedFrom := none }

/-- A slot that its holder has released: FREE and announced, its absence time 0 (R191). -/
def releasedSlot : DynSlot := { held := none, announced := true, absence := 0, freedFrom := none }

/-- A slot taken from its label: FREE and not announced (R192, R193). -/
def reclaimed (label : Nat) (d : DynSlot) : DynSlot :=
  { d with held := none, announced := false, freedFrom := some label }

/-- Slots granted to a holder under a label (R190). -/
def grantSlots (es : List (Fin 16)) (label holder : Nat) (t : SlotTable) : SlotTable :=
  { t with
    entries := Vector.ofFn fun i =>
      if es.contains i then heldSlot label holder else t.entries[i] }

/-- A label joins the pending set, behind those it holds (log entry 61); ALL takes in every label (R189). -/
def joinPending (label : Nat) : Cleared → Cleared
  | .all => .all
  | .labels ls => .labels (if ls.contains label then ls else ls ++ [label])

/-- Every slot HELD under a label is taken from it, and the label joins the pending set (R192,
R193). -/
def reclaimLabel (label : Nat) (t : SlotTable) : SlotTable :=
  { entries := updAll t.entries fun d => if heldUnder label d then reclaimed label d else d
    pending := joinPending label t.pending }

/-! ## Slot requests and releases (R190, R191) -/

/-- The answer to a slot request or release, addressed to its origin (R184, R190). -/
def answer (q : Request) (c : CmdCode) (r : Result) (d : ReplyData) (s : State) : State :=
  place (replyMsg q c r d) s

/-- A SLOT REQUEST settled at the master (R190). -/
def slotRequest (q : Request) (count : Nat) (s : State) : State :=
  if count = 0 ∨ 4 < count then answer q .slotRequest .badCount .none s
  else
    match grantedEntries s.slots count with
    | [] => answer q .slotRequest .denied (.freeCount (freeCount s.slots)) s
    | e :: es =>
      if count ≤ freeCount s.slots then
        answer q .slotRequest .granted
          (.granted ((e :: es).map slotNo) (slotNo e) (freeCount s.slots - count))
          (setSlots (grantSlots (e :: es) (slotNo e) q.origin) s)
      else answer q .slotRequest .denied (.freeCount (freeCount s.slots)) s

/-- Every slot HELD under a label is released (R191). -/
def releaseLabel (label : Nat) (t : SlotTable) : SlotTable :=
  { t with entries := updAll t.entries fun d => if heldUnder label d then releasedSlot else d }

/-- A SLOT RELEASE settled at the master (R191). -/
def slotReleased (q : Request) (label : Nat) (s : State) : State :=
  if (s.slots.entries.toList.any (heldUnder label)) = true then
    if (s.slots.entries.toList.all fun d => !heldUnder label d || heldBy label q.origin d) = true then
      answer q .slotRelease .done .none
        (setSlots (releaseLabel label) s)
    else answer q .slotRelease .notHolder .none s
  else answer q .slotRelease .done .none s

/-! ## Taking a message (R184, R185) -/

/-- The destination is a group of this node; an unaddressed node belongs to none (R183, R184). -/
def isGroup (s : State) (d : Nat) : Bool :=
  decide (240 ≤ d ∧ d ≤ 251) && s.rif.addr != 0 && s.work.node.groups.contains d

/-- The destination is the address of this node; an unaddressed node has none (R184). -/
def isOwn (s : State) (d : Nat) : Bool := s.rif.addr != 0 && d == s.rif.addr

/-- The destination is this node's address, a group of it, or 255. -/
def reaches (s : State) (d : Nat) : Bool := isOwn s d || isGroup s d || d == 255

/-- The destination is 253 and this node the master (R184). -/
def isMasterDest (s : State) (d : Nat) : Bool := d == 253 && s.rif.master

/-- Whether this node takes a message, by kind, code and destination (R184). -/
def takes (s : State) (m : Message) : Bool :=
  match m.content with
  | .command _ (.slotRequest _) | .command _ (.slotRelease _) =>
    if s.rif.master then isMasterDest s m.dest || reaches s m.dest else isOwn s m.dest
  | .command _ _ => isMasterDest s m.dest || reaches s m.dest
  | .reply _ | .foreignReply _ => isOwn s m.dest
  | .notice _ => reaches s m.dest
  | .report _ | .foreignReport _ => false

/-- The acknowledgement of a taker (R185). -/
inductive Ack where
  | none
  | taken
  | full
deriving DecidableEq, Repr

/-- The request that a COMMAND message makes (R196). -/
def requestOf (m : Message) (formOk : Bool) : Request :=
  { origin := m.origin, cls := m.cls, tag := m.tag, formOk := formOk }

/-- A command entered into the command queue, where it has room (R196). -/
def enterCommand (e : Entry) (s : State) : State × Ack :=
  if s.cmdQueue.length < Config.cmdMax then ({ s with cmdQueue := s.cmdQueue ++ [e] }, .taken)
  else (s, .full)

/-- A slot request or release settled where the outbound queue has room for its answer (R185). -/
def withAnswer (f : State → State) (s : State) : State × Ack :=
  if 0 < s.room then (f s, .taken) else (s, .full)

/-- A reply reaches the Warden Unit: the answer to a SLOT REQUEST acts on the slot record, any other
changes nothing (R153). R153 lets GRANTED carry one slot with its label and DENIED the free count; that one
without them changes nothing, and that of several slots the first counts, is the model's choice (log entry
74). -/
def replyTaken (r : Reply) (s : State) : State :=
  match r.code, r.result, r.data with
  | .slotRequest, .granted, .granted (n :: _) label _ => slotGranted n label s
  | .slotRequest, .denied, .freeCount k => slotDenied k s
  | _, _, _ => s

/-- A message handed to the block that the table of R184 names, and the acknowledgement. -/
def handTo (m : Message) (s : State) : State × Ack :=
  match m.content with
  | .command f (.slotRequest n) =>
    withAnswer (fun s =>
      if s.rif.master then slotRequest (requestOf m f) n s
      else answer (requestOf m f) .slotRequest .notMaster .none s) s
  | .command f (.slotRelease l) =>
    withAnswer (fun s =>
      if s.rif.master then slotReleased (requestOf m f) l s
      else answer (requestOf m f) .slotRelease .notMaster .none s) s
  | .command f b => enterCommand ⟨requestOf m f, b⟩ s
  | .reply r => (replyTaken r s, .taken)
  | .foreignReply _ => (s, .taken)
  | .notice (.slotsCleared c) => (slotCleared c s, .taken)
  | .notice (.other _) => (s, .taken)
  | .report _ | .foreignReport _ => (s, .none)

/-- A message taken where R184 calls for it. -/
def takeMessage (m : Message) (s : State) : State × Ack :=
  if takes s m then handTo m s else (s, .none)

/-- An acknowledgement added to the union; a flag once set stays set (R185). -/
def addAck (a : Ack) (m : Message) : Message :=
  match a with
  | .none => m
  | .taken => { m with taken := true, takenBar := false }
  | .full => { m with full := true, fullBar := false }

/-- The message is the oldest of those that ring-in has brought complete: its bytes are those received, and
its body is the one its content calls for (R176, R181, R182, log entry 6). Bytes that more than one content
can spell are read as the operand says (log entry 63). -/
def headArrived (m : Message) (s : State) : Bool :=
  match s.rif.arrived with
  | [] => false
  | bs :: _ => bs.take (10 + m.body.length) == messageBytes m && bodyFitsContent m.content m.body

/-- Header byte 7 holds TAKEN and FULL each with its complement (R182). -/
def unionWhole (b : Byte) : Bool :=
  [(true, true), (true, false), (false, true), (false, false)].any fun p =>
    (List.range 16).any fun v => b == Config.unionByte p.1 (!p.1) p.2 (!p.2) (BitVec.ofNat 4 v)

/-- Header byte 2 holds one of the four kinds (R181). -/
def kindKnown (b : Byte) : Bool :=
  [MsgKind.command, .reply, .report, .notice].any fun k => b.extractLsb' 3 2 == Config.kindBits k

/-- The bytes of a complete message pass the three checks of R182, whatever its content is: the message check
over header bytes 0–5 and the body, the union, and the hops. Bytes that hold no kind and no union pass none
(log entry 64). -/
def bytesPass (bs : List Byte) : Bool :=
  let n := (bs.getD 4 0#8).toNat
  ((bs.drop (8 + n)).take 2 == bytes16 (crc16 (bs.take 6 ++ (bs.drop 8).take n))) &&
    (bs.getD 6 0#8 != 255#8) && unionWhole (bs.getD 7 0#8) && kindKnown (bs.getD 2 0#8)

/-- The oldest of the messages that ring-in has brought complete fails the checks of R182. -/
def headFails (s : State) : Bool :=
  match s.rif.arrived with
  | [] => false
  | bs :: _ => !bytesPass bs

/-- The oldest of the messages that ring-in has brought complete is taken from those that wait (R182). -/
def takeHead (s : State) : State := setRif (fun r => { r with arrived := r.arrived.tail }) s

/-- The three checks of a complete message (R182). -/
def messageOk (m : Message) : Bool :=
  m.check == messageCheck m && (m.taken != m.takenBar) && (m.full != m.fullBar) && decide (m.hops < 255)

/-- A message that has returned to its origin is stripped: the return record of its tag is removed
(R186). -/
def strip (tag : Nat) (s : State) : State :=
  setRif (fun r => { r with returns := r.returns.eraseP fun x => x.tag == tag }) s

/-- A message placed in the forward hold (R182). -/
def holdMessage (m : Message) (s : State) : State :=
  setRif (fun r => { r with fwd := r.fwd ++ [m] }) s

/-- A message that has passed its checks with room in the forward hold: taken, then stripped or placed
in the hold with its acknowledgement (R182, R184–R186). -/
def settleMessage (m : Message) (s : State) : State :=
  let p := takeMessage m s
  if m.origin = s.rif.addr then strip m.tag p.1 else holdMessage (addAck p.2 m) p.1

/-- RING_MESSAGE_COMPLETE (R182): a message that ring-in has brought complete. One that fails a check, and
one that finds two waiting in the forward hold, is discarded (log entry 24); bytes that fail a check are
discarded whatever message the command names (log entry 64). -/
def execRingMessageComplete (m : Message) (s : State) : Out :=
  whenever (s.running && s.locked && (headArrived m s || headFails s))
    (fun s =>
      if headArrived m s && messageOk m && decide (s.rif.fwd.length < Config.holdMax) then
        settleMessage m (takeHead s)
      else takeHead s) s

/-! ## Changes of ring state (R179, R180) -/

/-- The RIF enters a ring state. -/
def setRing (st : RingState) (s : State) : State :=
  setRif (fun r => { r with ring := st, since := s.now }) s

/-- The RIF enters a ring state, and the Zone Output Unit is told (R110, R180). -/
def enterRing (st : RingState) (s : State) : State := ringToOutputs (setRing st s)

/-- Every dynamic slot insertion still held is dropped (R180). -/
def dropInsertion (s : State) : State :=
  match s.warden.slot with
  | .holding _ _ => setSlot .none s
  | _ => s

/-- The entry into LOCKED (R155, R180): frames of a message in passage go on as received until the
first IDLE or START. -/
def enterLocked (s : State) : State :=
  announce (enterRing .locked (setRif (fun r => { r with passing := true, rx := none, arrived := [] }) s))

/-- RING_LOCK (R179): the 32nd consecutive valid frame in SEEKING or LOST. -/
def execRingLock (s : State) : Out :=
  whenever (s.running && (s.rif.ring == .seeking || s.rif.ring == .lost) &&
      decide (Config.lockFrames ≤ s.rif.run))
    (fun s => enterLocked (if s.rif.ring = .lost then dropInsertion s else s)) s

/-- Valid frames have come without interruption for 1,000 ms, the last of them within the millisecond
in hand (R179). -/
def relockDue (s : State) : Bool :=
  match s.rif.runStart with
  | some t => decide (t + Config.relockMs ≤ s.now) && decide (s.now ≤ s.rif.lastOk + 1)
  | none => false

/-- The departure from ISOLATED ends the isolation timer and the isolation escalated condition (R69,
R71). -/
def endIsolation (s : State) : State := { s with isoTimer := none, isoEscalated := false }

/-- ISOLATED_RELOCK (R179), with its ISOLATION LEFT report (R180). -/
def execIsolatedRelock (s : State) : Out :=
  whenever (s.running && s.rif.ring == .isolated && relockDue s)
    (fun s =>
      enterLocked
        (report (.isolationLeft (s.now - s.rif.since)) (endIsolation (dropInsertion s)))) s

/-- The return record that an abandoned message of the node's own keeps (R180, R188). -/
def abandoned (tx : Option Tx) : List ReturnRec :=
  match tx with
  | some t => if t.own then [⟨t.tag, t.begun + Config.returnMs⟩] else []
  | none => []

/-- What the RIF and the Warden Unit do at a departure from LOCKED for LOST (R155, R180): insertions
stop, the message being sent is abandoned, the forward hold is emptied, a message part is discarded,
and slots read as silence. -/
def leaveLocked (s : State) : State :=
  setSlot .none
    (setRif (fun r =>
      { r with run := 0, runStart := none, heard := silentSlots, rx := none, arrived := [],
               passing := false, fwd := [], tx := none, returns := r.returns ++ abandoned r.tx })
      { s with msDue := false, sampleTimes := 0 })

/-- RING_LOSS (R179): 4 ms without a valid frame in LOCKED; a capture in flight is aborted (R142). -/
def execRingLoss (s : State) : Out :=
  whenever (s.running && s.locked && decide (s.rif.lossAt ≤ s.now))
    (fun s => abortCapture (enterRing .lost (leaveLocked s))) s

/-- The isolation timer as the entry into ISOLATED creates it (R69). -/
def isolationTimer (delay : Nat) : Option Nat := if delay = 0 then none else some (delay * 1000)

/-- RING_ISOLATION (R179): 2,000 ms in LOST without a relock; the isolation timer is created and
ISOLATION ENTERED is queued (R69, R180). -/
def execRingIsolation (s : State) : Out :=
  whenever (s.running && s.rif.ring == .lost && decide (s.rif.since + Config.isolationMs ≤ s.now) &&
      decide (s.rif.run < Config.lockFrames))
    (fun s =>
      enterRing .isolated
        (report .isolationEntered
          { setRif (fun r => { r with run := 0, runStart := none }) s with
            isoTimer := isolationTimer s.work.node.isoDelay })) s

/-! ## Notices and stale reclaim (R192, R193) -/

/-- A FREE slot that a notice names: one taken from a label it lists, and every FREE slot under ALL
(log entry 28). -/
def namedBy (c : Cleared) (d : DynSlot) : Bool :=
  d.held.isNone &&
    match c with
    | .all => true
    | .labels ls =>
      match d.freedFrom with
      | some l => ls.contains l
      | none => false

/-- The slots that a notice of the pending set names, each with the label it was taken from (log entry
28). -/
def namedSlots (t : SlotTable) : List (Fin 16 × Option Nat) :=
  ((List.finRange 16).filter fun i => namedBy t.pending t.entries[i]).map fun i =>
    (i, t.entries[i].freedFrom)

/-- A slot that a notice has made announced (R193). -/
def announced (d : DynSlot) : DynSlot := { d with announced := true, freedFrom := none }

/-- Every slot that the notice of the pending set names becomes announced, and the pending set is empty
(R193). -/
def announceNamed (t : SlotTable) : SlotTable :=
  { entries := updAll t.entries fun d => if namedBy t.pending d then announced d else d
    pending := .labels [] }

/-- The pending set is emptied into a SLOTS CLEARED notice: the notice is placed, and every slot it
names becomes announced (R193). -/
def placeNotice (s : State) : State :=
  setSlots announceNamed
    (place { dest := 255, content := .notice (.slotsCleared s.slots.pending)
             named := namedSlots s.slots } s)

/-- SLOTS_CLEARED_NOTICE (R193): after the deferred replies and before any command (R187). -/
def execSlotsClearedNotice (s : State) : Out :=
  whenever (s.running && noticeReady s && decide (0 < s.room) && s.deferred.isEmpty) placeNotice s

/-- A slot HELD under the label has been absent for 5,000 ms (R192). -/
def stale (label : Nat) (s : State) : Bool :=
  s.slots.entries.toList.any fun d => heldUnder label d && decide (Config.staleMs ≤ d.absence)

/-- STALE_RECLAIM of a label (R192). -/
def execStaleReclaim (label : Nat) (s : State) : Out :=
  whenever (s.running && s.rif.master && stale label s) (setSlots (reclaimLabel label)) s

/-- The labels under which slots are HELD, in slot order. -/
def heldLabels (t : SlotTable) : List Nat := t.entries.toList.filterMap fun d => d.held.map Prod.fst

/-- Every HELD slot becomes FREE and not announced, and its label joins the pending set (R193). -/
def clearAllSlots (t : SlotTable) : SlotTable :=
  (heldLabels t).foldl (fun t l => reclaimLabel l t) t

/-- SLOT CLEAR ALL at the master: the slots are cleared, and the notice is placed at once when the RIF
is LOCKED (R193). Where nothing was HELD and nothing is pending there is nothing to announce and no notice
(log entry 60). -/
def slotClearAll (s : State) : State :=
  let s1 := setSlots clearAllSlots s
  if s1.locked && pendingAny s1.slots.pending then placeNotice s1 else s1

/-- The room that SLOT CLEAR ALL needs at the master for its notice (R196). -/
def slotClearExtra (s : State) : Nat := if s.rif.master then 1 else 0

/-- SLOT_CLEAR_ALL (R193). -/
def execSlotClearAll (q : Request) (s : State) : Out :=
  let e : Entry := ⟨q, .slotClearAll⟩
  commandWith e slotClearExtra oneReply (fun s =>
    if s.rif.master then replyDone e (slotClearAll s) else reply e .notMaster .none s) s

/-- DEFERRED_REPLY_PLACE (R197): the first of the deferred replies, as soon as room opens. -/
def execDeferredReplyPlace (s : State) : Out :=
  whenever (s.running && decide (0 < s.room))
    (fun s =>
      match s.deferred with
      | [] => s
      | m :: rest => place m { s with deferred := rest }) s

end Sys2Proof.Machine
end

