-- ==== Sys2Proof/Machine/Timebase.lean ====
section
/-!
DEFINITION. The timebase (R176) and what counts on it (R59, R69, R108, R119, R129, R130, R150, R192):
the meaning of TIMEBASE_MILLISECOND. Deadlines are compared with the timebase by the events they
belong to, and the event a count brings about is a step of its own (log entry 4).
-/

namespace Sys2Proof.Machine

/-! ## What one millisecond does to each count -/

/-- A stage timer's millisecond while hold is off (R59). The millisecond that ends the timer makes its
expiry due: the expiry brings it to 0, and no timer rests there (R58, log entry 4). -/
def tickRef (f : Ref) : Ref :=
  match f.timer with
  | none => f
  | some t => if t ≤ 1 then { f with due := true } else { f with timer := some (t - 1) }

/-- The stage timers of a record (R59). -/
def tickRecord (r : ActRecord) : ActRecord := { r with refs := r.refs.map tickRef }

/-- The stage timers: each falls by 1 while hold is off and keeps its value while hold is on (R59). -/
def tickStages (s : State) : State :=
  if s.hold then s else { s with acts := s.acts.map tickRecord }

/-- The isolation timer, which hold does not stop (R69). -/
def tickIsolation (s : State) : State := { s with isoTimer := s.isoTimer.map fun t => t - 1 }

/-- The talk timer (R150). -/
def tickTalk (s : State) : State :=
  if talkCounts s then setWarden (fun w => { w with talk := w.talk.map fun t => t + 1 }) s else s

/-- The absence time of a slot entry, which rises while the slot is HELD (R192). -/
def tickSlot (d : DynSlot) : DynSlot :=
  if d.held.isSome then { d with absence := d.absence + 1 } else d

/-- The absence times, at the master (R189, R192). -/
def tickSlots (s : State) : State :=
  if s.rif.master then setSlots (fun t => { t with entries := updAll t.entries tickSlot }) s else s

/-- A channel's millisecond: a GAP or MISSING step counts in milliseconds (R130); any other running step
gives 16 sample times, which follow the ring frames instead while LOCKED (R129). -/
def tickChan (locked : Bool) (c : ChanRun) : ChanRun :=
  if c.state = .running ∧ c.kind ≠ .phrase ∧ 0 < c.remaining then
    { c with remaining := c.remaining - 1 }
  else if locked then c
  else chanSamples 16 c

/-- The playout channels (R129, R130). -/
def tickChans (s : State) : State := { s with chans := updAll s.chans (tickChan s.locked) }

/-- A cadence's millisecond: a running cadence in use counts its phase down (R119). -/
def tickCad (inUse : Bool) (c : CadRun) : CadRun :=
  if c.running && inUse then { c with remaining := c.remaining - 1 } else c

/-- The cadences (R119). -/
def tickCads (s : State) : State :=
  { s with cads := Vector.ofFn fun i => tickCad s.work.cad[i].inUse s.cads[i] }

/-- A zone's ramp: the current attenuation moves by up to 2 steps toward its target (R108). -/
def tickOut (o : ZoneOut) : ZoneOut := { o with current := rampStep o.target o.current }

/-- The ramps of every zone (R108). -/
def tickOuts (s : State) : State := { s with outs := updAll s.outs tickOut }

/-- One millisecond of the timebase (R59, R176). -/
def tick (s : State) : State :=
  tickOuts (tickCads (tickChans (tickSlots (tickTalk (tickIsolation (tickStages
    { s with now := s.now + 1, sampleTimes := 0 }))))))

/-! ## TIMEBASE_MILLISECOND -/

/-- A millisecond may complete: at a valid frame of count 0 taken while LOCKED, and on the local
oscillator where no such frame has been taken; the timebase counts from cold start (R176, R203, log
entry 20). -/
def msMayComplete (o : MsOrigin) (s : State) : Bool :=
  s.phase != .off &&
    match o with
    | .frame => s.locked && s.msDue
    | .oscillator => !(s.locked && s.msDue)

/-- TIMEBASE_MILLISECOND (R59, R176): a millisecond that a frame of count 0 completes is completed
once. A stage timer's expiry that has fallen due is taken before the next millisecond (R58, log entry 4). -/
def execTimebaseMillisecond (o : MsOrigin) (s : State) : Out :=
  whenever (msMayComplete o s)
    (fun s => tick (match o with
      | .frame => { expireDue s with msDue := false }
      | .oscillator => expireDue s)) s

end Sys2Proof.Machine
end

