-- ==== Sys2Proof/Machine/Tables.lean ====
section
/-!
DEFINITION. The twelve tables (11.4): the meanings of TABLE_WRITE with the effects of each owning
rule, COMMIT and COMMIT_STEP_END.
-/

namespace Sys2Proof.Machine

/-! ## Entries of the tables (R200) -/

/-- The working contents of one entry, or none where the identifier or the index names nothing
(R200). -/
def entryOf (t : Tables) (table i : Nat) : Option Contents :=
  match table with
  | 0 => if i = 0 then some (.node t.node) else none
  | 1 => (t.dzMap[i]?).map .detZone
  | 2 => (t.spk[i]?).map .spkZone
  | 3 => (t.inputs[i]?).map .localIn
  | 4 => (t.ce[i]?).map .ceEntry
  | 5 => (t.templ[i]?).map .template
  | 6 => (t.orig[i]?).map .originator
  | 7 => (t.cad[i]?).map .cadence
  | 8 => (t.phrases[i]?).map .phrase
  | 9 => (t.progs[i]?).map .program
  | 10 => if i = 24 then some (.window t.window) else (t.limits[i]?).map .limits
  | 11 => if i = 0 then some (.warden t.warden) else none
  | _ => none

/-- The working tables with one entry replaced; the contents name their table. -/
def putEntry (i : Nat) (c : Contents) (t : Tables) : Tables :=
  match c with
  | .node e => { t with node := e }
  | .detZone e => { t with dzMap := updNat t.dzMap i fun _ => e }
  | .spkZone e => { t with spk := updNat t.spk i fun _ => e }
  | .localIn e => { t with inputs := updNat t.inputs i fun _ => e }
  | .ceEntry e => { t with ce := updNat t.ce i fun _ => e }
  | .template e => { t with templ := updNat t.templ i fun _ => e }
  | .originator e => { t with orig := updNat t.orig i fun _ => e }
  | .cadence e => { t with cad := updNat t.cad i fun _ => e }
  | .phrase e => { t with phrases := updNat t.phrases i fun _ => e }
  | .program e => { t with progs := updNat t.progs i fun _ => e }
  | .limits e => { t with limits := updNat t.limits i fun _ => e }
  | .window ms => { t with window := ms }
  | .warden e => { t with warden := e }

/-- The check of written contents by the owning rule of their table: the entry as it is stored, or
none for a structural error (R200). -/
def checkContents (t : Tables) (i : Nat) : Contents → Option Contents
  | .node e => (checkNode e).map .node
  | .detZone e => (checkDetZone e).map .detZone
  | .spkZone e => (checkSpkZone e).map .spkZone
  | .localIn e => (checkLocalIn t i e).map .localIn
  | .ceEntry e => (checkCeEntry e).map .ceEntry
  | .template e => (checkTemplate e).map .template
  | .originator e => (checkOrig e).map .originator
  | .cadence e => (checkCadence e).map .cadence
  | .phrase e => (checkPhrase e).map .phrase
  | .program e => (checkProgram e).map .program
  | .limits e => (checkLimits e).map .limits
  | .window ms => some (.window (clampWindow ms))
  | .warden e => some (.warden (clampWarden e))

/-- A write names the phrase that a capture in flight is recording (R124). -/
def captureHolds (s : State) (table i : Nat) : Bool :=
  match s.capture with
  | some c => table == 8 && i == c.phrase
  | none => false

/-- How a TABLE WRITE is settled after the checks of R198: the result that refuses it, or the entry
as it is stored (R200). -/
def writeOutcome (s : State) (table i : Nat) (c : Contents) : Except Result Contents :=
  if tableSize table ≤ i then .error .badArgument
  else if s.commit.isSome then .error .busy
  else if captureHolds s table i then .error .inUse
  else match checkContents s.work i c with
    | none => .error .badArgument
    | some c' => .ok c'

/-! ## Speaker Zone Map writes (R8) -/

/-- A zone leaves use: its claims go without refill and without report, its output is muted at once,
its lines and its health record start over, and the arbiter runs (R6, R8, R103). -/
def zoneLeaves (z : Zone) (s : State) : State :=
  let o := s.outs[z]
  let s1 := listenerChange o.effective .none (setOut z mutedOut (setList z [] s))
  updateLock (arbiter
    { s1 with
      lines := s1.lines.set z { a := freshMon false, b := none, lost := false }
      amps := s1.amps.set z (freshHealth s1.amps[z].active false) })

/-- The monitor of line B that a zone's configuration calls for. -/
def lineBFor (e : SpkZone) (whole : Bool) : Option LineMon :=
  match e.lineCfg with
  | .aAndB => some (freshMon whole)
  | .aOnly => none

/-- A zone enters use: its monitors and its health record start afresh within the window (R8,
R161). -/
def zoneEnters (z : Zone) (e : SpkZone) (s : State) : State :=
  { s with
    lines := s.lines.set z { a := freshMon false, b := lineBFor e false, lost := false }
    amps := s.amps.set z (freshHealth s.amps[z].active false) }

/-- A zone's trim changes: the target is computed anew, without a restart from 120 (R8, R107). -/
def trimChange (z : Zone) (old new : SpkZone) (s : State) : State :=
  if old.trim = new.trim then s else setOut z (retarget new.trim s.outs[z]) s

/-- A zone's line configuration changes: line B is created or removed with its state, and OUTPUT LOST
is evaluated (R8, R164). -/
def lineCfgChange (z : Zone) (old new : SpkZone) (s : State) : State :=
  if old.lineCfg = new.lineCfg then s
  else evalOutputLost z
    { s with lines := s.lines.set z { s.lines[z] with b := lineBFor new false } }

/-- A zone's standby eligibility changes: the arbiter runs (R8, R167). -/
def eligibleChange (old new : SpkZone) (s : State) : State :=
  if old.eligible = new.eligible then s else arbiter s

/-- The effects of a Speaker Zone Map write that is taken (R8). Where one write changes both, OUTPUT LOST is
evaluated for the new line configuration before the arbiter runs for the new eligibility (log entry
50). -/
def spkWritten (z : Zone) (old new : SpkZone) (s : State) : State :=
  match old.inUse, new.inUse with
  | true, false => zoneLeaves z s
  | false, true => zoneEnters z new s
  | true, true => eligibleChange old new (lineCfgChange z old new (trimChange z old new s))
  | false, false => s

/-! ## Other tables' effects -/

/-- A Local Input Map write restarts the input's debounce: taken state INACTIVE, no pending change, and
a new one at once where the new entry is in use and its input active (R13). -/
def inputWritten (n : Fin 8) (new : LocalIn) (s : State) : State :=
  let s1 := { s with inputs := s.inputs.set n { active := false, due := none } }
  if new.inUse then observeInput n s1 else s1

/-- A claim that an Originator Table write of class `k` removes from zone `z` (R93). -/
def outOfReach (k : Class) (old new : OrigEntry) (z : Zone) (c : Claim) : Bool :=
  let gone := inSet old.reach z && !inSet new.reach z
  match c.owner with
  | .command j => j == k && (gone || (old.perms.zone && !new.perms.zone))
  | .silence j => j == k && (gone || (old.perms.silence && !new.perms.silence))
  | .warden => k == 5 && gone
  | _ => false

/-- The removals of an Originator Table write, zone by zone (R93). -/
def origWritten (k : Class) (old new : OrigEntry) (s : State) : State :=
  allZones.foldl (fun t z => removal z (outOfReach k old new z) t) s

/-- A Tone Cadence Table write: the cadence stands at the start of its on-time, running while it has listeners
and stopped otherwise (R119, R121, log entry 35). -/
def cadWritten (n : Fin 4) (new : Cadence) (s : State) : State :=
  { s with cads := upd s.cads n fun c =>
      if 0 < c.listeners then cadStart new.on c else cadStop new.on c }

/-- A channel's current step is a PHRASE step playing the phrase (R125). -/
def plays (s : State) (p : Nat) (n : Fin 4) : Bool :=
  s.chans[n].state == .running && s.chans[n].kind == .phrase &&
    s.work.progs[n].steps[s.chans[n].step]? == some (.named (.phrase p))

/-- A Phrase Directory write ends each step playing the written phrase (R125): the channels that play it at
the write, in order 0 to 3 (log entry 51). -/
def phraseWritten (p : Nat) (s : State) : State :=
  (List.finRange 4).foldl (fun t n => if plays s p n then stepEnds n t else t) s

/-- A Playout Programs write puts the channel into the state of R127. A step 0 that is MISSING queues its
PHRASE MISSING report as it begins (R130, log entry 52). -/
def progWritten (n : Fin 4) (new : Program) (s : State) : State :=
  let c := s.chans[n]
  if !new.inUse then stopChan n .idle s
  else match new.mode with
    | .named .demand => if 0 < c.listeners then startChan n s else stopChan n .idle s
    | .named .repeat => if c.state = .running then startChan n s else stopChan n .idle s
    | .named .once =>
      if c.state = .running then startChan n s
      else if c.state = .ended then stopChan n .ended s
      else stopChan n .idle s
    | .other _ => s

/-- A measured line's debounce record emptied (R159). -/
def monEmptied (m : LineMon) : LineMon :=
  if measured m then { m with candidate := none, run := 0 } else m

/-- A Supervision Limits write of a zone empties the debounce records of its measured lines (R159). -/
def limitsWritten (z : Zone) (s : State) : State :=
  { s with lines := upd s.lines z fun l => { l with a := monEmptied l.a, b := l.b.map monEmptied } }

/-- Max talk changed under a press whose talk timer has already reached it (R157). -/
def maxTalkChange (old new : WardenSettings) (s : State) : State :=
  match s.warden.talk with
  | some e => if old.maxTalk ≠ new.maxTalk ∧ new.maxTalk * 1000 ≤ e then forceRelease s else s
  | none => s

/-- Announce to ring withdrawn (R157). -/
def announceChange (old new : WardenSettings) (s : State) : State :=
  if old.announce && !new.announce then slotRelease s else s

/-- A Warden Settings write acts on a press in progress (R157). One that disables the warden ends the press,
whatever it makes of max talk (log entry 58). -/
def wardenWritten (old new : WardenSettings) (s : State) : State :=
  if s.warden.key = .pressed then
    if old.enabled && !new.enabled then endPress s
    else announceChange old new (maxTalkChange old new s)
  else s

/-! ## TABLE_WRITE -/

/-- The entry of a table at an index known only as a number, given to a function of its position. -/
def atIndex {n : Nat} (i : Nat) (f : Fin n → State → State) (s : State) : State :=
  if h : i < n then f ⟨i, h⟩ s else s

/-- The effects of a write that is taken on the blocks that use the table; `old` are the tables before
the write (R200). -/
def writeEffects (old : Tables) (i : Nat) (c : Contents) (s : State) : State :=
  match c with
  | .node _ | .detZone _ | .template _ => s
  | .spkZone e => atIndex i (fun z => spkWritten z old.spk[z] e) s
  | .localIn e => atIndex i (fun n => inputWritten n e) s
  | .ceEntry _ => { s with defaultMode := ceEmpty s.work }
  | .originator e => atIndex i (fun k => origWritten k old.orig[k] e) s
  | .cadence e => atIndex i (fun n => cadWritten n e) s
  | .phrase _ => phraseWritten i s
  | .program e => atIndex i (fun n => progWritten n e) s
  | .limits _ => atIndex i limitsWritten s
  | .window _ => windowRestart s
  | .warden e => wardenWritten old.warden e s

/-- A write that is taken replaces the working entry, and its effects are carried out; contents equal
to those held change nothing (R200, log entry 15). -/
def writeTaken (table i : Nat) (c : Contents) (s : State) : State :=
  if entryOf s.work table i = some c then s
  else writeEffects s.work i c { s with work := putEntry i c s.work }

/-- The warden slot state is HOLDING. -/
def wardenHolds (s : State) : Bool := (insertionSlot s).isSome

/-- The room a TABLE WRITE needs beside its reply: one place for a write of Warden Settings that is
taken while the warden slot state is HOLDING (R196). -/
def writeExtra (table i : Nat) (c : Contents) (s : State) : Nat :=
  match writeOutcome s table i c with
  | .ok _ => if table = 11 ∧ wardenHolds s = true then 1 else 0
  | .error _ => 0

/-- TABLE_WRITE (R200). -/
def execTableWrite (q : Request) (table i : Nat) (c : Contents) (s : State) : Out :=
  let e : Entry := ⟨q, .tableWrite table i c⟩
  commandWith e (writeExtra table i c) oneReply (fun s =>
    match writeOutcome s table i c with
    | .error r => reply e r .none s
    | .ok c' => replyDone e (writeTaken table i c' s)) s

/-! ## COMMIT (R201, R202) -/

/-- One table taken from another copy of the twelve. -/
def copyTable (k : Nat) (src dst : Tables) : Tables :=
  match k with
  | 0 => { dst with node := src.node }
  | 1 => { dst with dzMap := src.dzMap }
  | 2 => { dst with spk := src.spk }
  | 3 => { dst with inputs := src.inputs }
  | 4 => { dst with ce := src.ce }
  | 5 => { dst with templ := src.templ }
  | 6 => { dst with orig := src.orig }
  | 7 => { dst with cad := src.cad }
  | 8 => { dst with phrases := src.phrases }
  | 9 => { dst with progs := src.progs }
  | 10 => { dst with limits := src.limits, window := src.window }
  | 11 => { dst with warden := src.warden }
  | _ => dst

/-- Whether two copies of a table hold the same contents. -/
def tableEq (k : Nat) (a b : Tables) : Bool := copyTable k a b == b

/-- A table is written at its turn when its working contents differ from its NV contents or when its
NV check fails (R202). -/
def mustWrite (s : State) (k : Nat) : Bool :=
  !tableEq k s.work s.nv || !(s.nvOk[k]?).getD true

/-- The first table, in identifier order from `from`, that the commit writes (R202). -/
def nextTable (s : State) (start : Nat) : Option Nat :=
  (List.range 12).find? fun k => decide (start ≤ k) && mustWrite s k

/-- A table's step begins: its contents are those of the working copy now, and its check fails during
the step (R202). -/
def beginTable (q : Request) (k written : Nat) (s : State) : State :=
  { s with
    nvOk := updNat s.nvOk k fun _ => false
    commit := some
      { requester := q, table := k, deadline := s.now + Config.commitMs, image := s.work,
        written := written } }

/-- COMMIT (R202): refused BUSY while one is in flight; with no table to write it completes at
once. -/
def execCommit (q : Request) (s : State) : Out :=
  let e : Entry := ⟨q, .commit⟩
  command e oneReply (fun s =>
    if s.commit.isSome then reply e .busy .none s
    else match nextTable s 0 with
      | none => reply e .done (.written 0) s
      | some k => beginTable q k 0 s) s

/-- The table in its step has its new contents, its check passes and TABLE INVALID for it is cleared
(R201, R202). -/
def tableWritten (c : Commit) (s : State) : State :=
  { s with
    nv := copyTable c.table c.image s.nv
    nvOk := updNat s.nvOk c.table fun _ => true
    invalid := updNat s.invalid c.table fun _ => false }

/-- A commit goes on to its next table, or completes with DONE and the number of tables written
(R202). -/
def commitGoesOn (c : Commit) (s : State) : State :=
  match nextTable s (c.table + 1) with
  | some k => beginTable c.requester k (c.written + 1) s
  | none =>
    placeOrDefer (replyMsg c.requester .commit .done (.written (c.written + 1)))
      { s with commit := none }

/-- The step of the table being written has come to its end. -/
def commitDue (s : State) : Bool :=
  match s.commit with
  | some c => decide (c.deadline ≤ s.now)
  | none => false

/-- COMMIT_STEP_END (R202). -/
def execCommitStepEnd (s : State) : Out :=
  whenever (s.running && commitDue s)
    (fun s =>
      match s.commit with
      | some c => commitGoesOn c (tableWritten c s)
      | none => s) s

/-- A commit in flight is cut short by power loss or the reset line: the table in its step keeps a
failing check over contents of which nothing is said (R202, log entry 40). -/
def cutCommit (s : State) : State :=
  match s.commit with
  | none => s
  | some c =>
    { s with
      commit := none
      nv := copyTable c.table ((Config.cutShort s.nv c.image).getD s.nv) s.nv }

end Sys2Proof.Machine
end

