-- ==== Sys2Proof/Machine/Reads.lean ====
section
/-!
DEFINITION. The reads of the Command Engine (11.6) and the refusal of an unknown code: the meanings of
STATUS_READ, ZONE_READ, CAUSE_READ, TABLE_READ and UNKNOWN_COMMAND_CODE.
-/

namespace Sys2Proof.Machine

/-! ## STATUS READ (R205) -/

/-- The fault summary (R173). -/
def faultSummary (s : State) : FaultSummary :=
  { linesOpen := lineCount .opened s
    linesShort := lineCount .short s
    ampFailed := zoneSetOf fun z => zoneInUse s z && s.amps[z].failed
    outputLost := zoneSetOf fun z => s.lines[z].lost
    standby := #v[poolState s 0, poolState s 1]
    phraseMissing := s.phraseMissing
    lockedOut := s.warden.key == .lockedOut
    indicator := faultIndicator s }

/-- The node status record as it stands (R205). -/
def statusRecord (s : State) : StatusRecord :=
  { ring := s.rif.ring
    master := s.rif.master
    node := s.rif.addr
    alarmLock := s.alarmLock
    overflow := s.overflow
    defaultMode := s.defaultMode
    count := s.acts.length
    hold := s.hold
    commit := s.commit.map fun c => (c.table, c.written)
    capture := s.capture.map fun c => (c.phrase, c.slot, c.recorded)
    faults := faultSummary s
    tableInvalid := s.invalid
    lost := s.rif.lost
    reportOverflow := s.reportOverflow }

/-- The parts of the reply to a STATUS READ (R196, R197). -/
def statusNeed (s : State) : Nat := partsOf (.status (statusRecord s))

/-- STATUS_READ (R205, R206): the reply carries REPORT OVERFLOW as it stands, and the flag is then
cleared. -/
def execStatusRead (q : Request) (s : State) : Out :=
  let e : Entry := ⟨q, .statusRead⟩
  command e statusNeed (fun s =>
    { reply e .done (.status (statusRecord s)) s with reportOverflow := false }) s

/-! ## ZONE READ (R100, R113, R173) -/

/-- A line's state and hold value as they are read. -/
def lineReading (m : LineMon) : LineState × Option Nat := (m.state, m.hold)

/-- What ZONE READ shows of a zone in use (R100, R113, R173). -/
def zoneReadingOf (s : State) (z : Zone) : ZoneReading :=
  let o := s.outs[z]
  let l := s.lines[z]
  { inUse := true
    claims := s.lists[z]
    effective := o.effective
    substituted := o.substituted
    target := o.target
    current := o.current
    lineCfg := (spk s z).lineCfg
    lineA := lineReading l.a
    lineB := l.b.map lineReading
    outputLost := l.lost
    ampFailed := s.amps[z].failed
    standing := standingOf s z }

/-- The line B reading of a zone not in use: UNTESTED where it is configured A and B, absent otherwise
(R173). -/
def unusedLineB : LineCfg → Option (LineState × Option Nat)
  | .aAndB => some (.untested, none)
  | .aOnly => none

/-- What ZONE READ shows of a zone not in use (R100, R113, R173). -/
def unusedReading (cfg : LineCfg) : ZoneReading :=
  { inUse := false, claims := [], effective := .none, substituted := false,
    target := Config.muted, current := Config.muted, lineCfg := cfg,
    lineA := (.untested, none), lineB := unusedLineB cfg,
    outputLost := false, ampFailed := false, standing := .notFailed }

/-- What ZONE READ shows of a zone. -/
def zoneReading (s : State) (z : Zone) : ZoneReading :=
  if zoneInUse s z then zoneReadingOf s z else unusedReading (spk s z).lineCfg

/-- The data of a ZONE READ, or none for a zone above 23 (R100). -/
def zoneData (s : State) (z : Nat) : Option ReplyData :=
  if h : z < 24 then some (.zone (zoneReading s ⟨z, h⟩)) else none

/-- The parts of the reply to a read whose data may be refused (R196, R197). -/
def dataNeed (d : Option ReplyData) : Nat :=
  match d with
  | some d => partsOf d
  | none => 1

/-- The reply to a read: its data, or BAD ARGUMENT where the argument names nothing. -/
def replyRead (e : Entry) (d : Option ReplyData) (s : State) : State :=
  match d with
  | some d => reply e .done d s
  | none => reply e .badArgument .none s

/-- ZONE_READ (R100, R113, R173). -/
def execZoneRead (q : Request) (z : Nat) (s : State) : Out :=
  let e : Entry := ⟨q, .zoneRead z⟩
  command e (fun s => dataNeed (zoneData s z)) (fun s => replyRead e (zoneData s z) s) s

/-! ## CAUSE READ (R34) -/

/-- A record as it is read: a reference's stage and remaining time, without the model's own mark (R34). -/
def shownRecord (r : ActRecord) : ActRecord :=
  { r with refs := r.refs.map fun f => { f with due := false } }

/-- The data of a CAUSE READ: the record at a position in activation order, no record at or beyond the
activation count; none for an index above 31 (R34). -/
def causeData (s : State) (i : Nat) : Option ReplyData :=
  if i ≤ 31 then some (.cause (s.acts[i]?.map shownRecord)) else none

/-- CAUSE_READ (R34). -/
def execCauseRead (q : Request) (i : Nat) (s : State) : Out :=
  let e : Entry := ⟨q, .causeRead i⟩
  command e (fun s => dataNeed (causeData s i)) (fun s => replyRead e (causeData s i) s) s

/-! ## TABLE READ (R205) -/

/-- The data of a TABLE READ: the working contents of the entry, TABLE INVALID and uncommitted for the
whole table; none for an entry that does not exist (R205). -/
def tableData (s : State) (table i : Nat) : Option ReplyData :=
  (entryOf s.work table i).map fun c =>
    .table c ((s.invalid[table]?).getD false) (!tableEq table s.work s.nv)

/-- TABLE_READ (R205). -/
def execTableRead (q : Request) (table i : Nat) (s : State) : Out :=
  let e : Entry := ⟨q, .tableRead table i⟩
  command e (fun s => dataNeed (tableData s table i))
    (fun s => replyRead e (tableData s table i) s) s

/-! ## Unknown codes -/

/-- UNKNOWN_COMMAND_CODE (R198 step 1): `refusalOf` answers BAD ARGUMENT to every code it does not
know, before any other check. -/
def execUnknownCommandCode (q : Request) (code : Nat) (s : State) : Out :=
  command ⟨q, .unknown code⟩ oneReply id s

end Sys2Proof.Machine
end

