-- ==== Sys2Proof/Machine/Start.lean ====
section
/-!
DEFINITION. Cold start, the start-up load, CLEAR FAULTS, RESTART and power loss: the meanings of
COLD_START, START_UP_LOAD_COMPLETE, CLEAR_FAULTS, RESTART, RESTART_EFFECT and POWER_LOSS.
-/

namespace Sys2Proof.Machine

/-! ## COLD_START (R203) -/

/-- COLD_START (R203): the straps are read (R183), every block takes its cold start values, and the
start-up load begins; a commit in flight is cut short (R202). The message store, the non-volatile
copies and the levels of the pins are not the router's to change. -/
def execColdStart (straps : BitVec 8) (s : State) : Out :=
  let t := cutCommit s
  .next (coldState { t.pins with straps := straps } t.nv t.nvOk t.store
    (updAll t.amps fun h => h.active) (updAll t.standbyAmps fun h => h.active) t.pending)

/-! ## START_UP_LOAD_COMPLETE (R203) -/

/-- The working copies as the load leaves them: each table from its NV copy where its check passes, at
the factory default otherwise (R203). -/
def loadTables (s : State) : Tables :=
  (List.finRange 12).foldl
    (fun t k => copyTable k.val (if s.nvOk[k] then s.nv else Config.factory) t) s.work

/-- The node address in use while the straps decide it: the strap value where it is 1–239, otherwise
unaddressed (R183). -/
def strapAddress (straps : BitVec 8) : Nat :=
  if 1 ≤ straps.toNat ∧ straps.toNat ≤ 239 then straps.toNat else 0

/-- The node address in use and the master role, fixed when the load completes (R183). -/
def identityOf (valid : Bool) (e : NodeIdentity) (straps : BitVec 8) : Nat × Bool :=
  if valid then
    if e.addr = 0 then
      (strapAddress straps, e.master && decide (strapAddress straps ≠ 0))
    else (e.addr, e.master)
  else (strapAddress straps, decide (straps.toNat = 239))

/-- The tables found with failing checks, in identifier order (R206). -/
def failingTables (s : State) : List Nat :=
  ((List.finRange 12).filter fun k => !s.nvOk[k]).map fun k => k.val

/-- The line monitors over the loaded map (R174). -/
def startLines (t : Tables) : Vector ZoneLines 24 :=
  updAll t.spk fun e =>
    { a := freshMon true, b := if e.inUse then lineBFor e true else none, lost := false }

/-- The local inputs in use begin to be observed (R14). -/
def startInputs (s : State) : State :=
  (List.finRange 8).foldl (fun t n => if t.work.inputs[n].inUse then observeInput n t else t) s

/-- The working copies are loaded, TABLE INVALID is settled, the cadences stand at the start of their on-times
(R119, R122, log entry 35), and the address and role are fixed (R183, R201, R203). -/
def load (s : State) : State :=
  let t := loadTables s
  let a := identityOf s.nvOk[(0 : Fin 12)] t.node s.pins.straps
  setRif (fun r => { r with addr := a.1, master := a.2 })
    { s with
      phase := .running
      work := t
      invalid := updAll s.nvOk fun ok => !ok
      defaultMode := ceEmpty t
      cads := Vector.ofFn fun i => cadStop t.cad[i].on s.cads[i]
      lines := startLines t }

/-- START_UP_LOAD_COMPLETE (R203). -/
def execStartUpLoadComplete (s : State) : Out :=
  whenever (s.phase == .loading)
    (fun s =>
      let t := windowRestart (observeKey (startInputs (enterRing .seeking (load s))))
      report (.coldStart (failingTables s) t.rif.addr) t) s

/-! ## CLEAR_FAULTS (R171) -/

/-- The lines of a zone set to UNTESTED, their relays connected and OUTPUT LOST ended (R171, R174). -/
def freshLines (l : ZoneLines) : ZoneLines :=
  { a := freshMon true, b := l.b.map fun _ => freshMon true, lost := false }

/-- A health record whose debounce starts over, its failed flag kept (R171). -/
def healthCleared (h : Health) : Health := { h with candidate := none, run := 0, whole := true }

/-- What CLEAR FAULTS does (R171). -/
def clearFaults (s : State) : State :=
  windowRestart
    { s with
      lines := updAll s.lines freshLines
      amps := updAll s.amps healthCleared
      standbyAmps := updAll s.standbyAmps healthCleared
      phraseMissing := false }

/-- CLEAR_FAULTS (R171). -/
def execClearFaults (q : Request) (s : State) : Out :=
  let e : Entry := ⟨q, .clearFaults⟩
  command e oneReply (fun s => replyDone e (clearFaults s)) s

/-! ## RESTART and RESTART_EFFECT (R204) -/

/-- A RESTART places nothing and needs no room (R196). -/
def noReply (_ : State) : Nat := 0

/-- RESTART (R204): it takes effect by RESTART_EFFECT, once no commit is in flight; until then no
command begins. -/
def execRestart (q : Request) (s : State) : Out :=
  command ⟨q, .restart⟩ noReply (fun s => { s with restart := some s.commit.isSome }) s

/-- A message of the outbound queue that is a SLOTS CLEARED notice: what it carries, and the slots it made
announced. -/
def noticeOf (m : OutMsg) : Option (Cleared × List (Fin 16 × Option Nat)) :=
  match m.content with
  | .notice (.slotsCleared c) => some (c, m.named)
  | _ => none

/-- The labels of an emptied notice, or ALL, return to the pending set (R193). -/
def rejoin (c p : Cleared) : Cleared :=
  match c with
  | .all => .all
  | .labels ls => ls.foldl (fun p l => joinPending l p) p

/-- A slot that an emptied notice had made announced is FREE and not announced again, taken from the same
label as before; a HELD slot, and one already not announced, stays as it is (R193, log entry 28). -/
def unannounce (named : List (Fin 16 × Option Nat)) (i : Fin 16) (d : DynSlot) : DynSlot :=
  match named.find? fun p => p.1 == i with
  | some p => if grantable d then { d with announced := false, freedFrom := p.2 } else d
  | none => d

/-- An emptied notice: its labels return to the pending set, and the slots it had made announced are marked
not announced again (R193). -/
def takeBack (t : SlotTable) (c : Cleared × List (Fin 16 × Option Nat)) : SlotTable :=
  { entries := Vector.ofFn fun i => unannounce c.2 i t.entries[i]
    pending := rejoin c.1 t.pending }

/-- The queues of the Command Engine and of the RIF are emptied: commands, deferred replies, outbound
messages, reports, the forward hold, return records, and message parts (R195, R204). -/
def emptyQueues (s : State) : State :=
  setRif (fun r => { r with fwd := [], returns := [], tx := none, rx := none, arrived := [] })
    { s with
      slots := (s.outbound.filterMap noticeOf).foldl takeBack s.slots
      cmdQueue := [], deferred := [], outbound := [], reports := [], restart := none }

/-- A channel at a RESTART (R144). -/
def chanRestart (n : Fin 4) (s : State) : State :=
  let c := s.chans[n]
  if c.state = .running then
    if s.work.progs[n].mode = .named .demand ∧ c.listeners = 0 then stopChan n .waiting s
    else startChan n s
  else stopChan n c.state s

/-- The channels at a RESTART (R144), in order 0 to 3 (log entry 55). -/
def chansRestart (s : State) : State :=
  (List.finRange 4).foldl (fun t n => chanRestart n t) s

/-- The RIF moves to SEEKING (R195): the isolation ends without a report, and the runs of frames begin
anew. -/
def ringRestart (s : State) : State :=
  enterRing .seeking
    (setRif (fun r => { r with run := 0, runStart := none, heard := silentSlots, passing := false })
      { endIsolation s with msDue := false, sampleTimes := 0 })

/-- Every zone fades in from 120 (R114). -/
def outsRestart (s : State) : State :=
  { s with outs := updAll s.outs fun o => { o with current := Config.muted } }

/-- The cadences at a RESTART: those with listeners start at the beginning of their on-time, the
others are stopped (R122). -/
def cadsRestart (s : State) : State :=
  { s with cads := Vector.ofFn fun i =>
      if 0 < s.cads[i].listeners then cadStart s.work.cad[i].on s.cads[i]
      else cadStop s.work.cad[i].on s.cads[i] }

/-- The warden key is taken afresh: slot NONE, taken position OPEN, key RELEASED, a fresh take 50 ms
later; the talk timer is kept (R158). -/
def wardenRestart (s : State) : State :=
  setWarden (fun w =>
    { w with taken := false, due := none, key := .released, slot := .none
             fresh := some { deadline := s.now + Config.keyMs, closed := s.pins.keyClosed } }) s

/-- Supervision returns to its cold start values, and the window clock restarts (R174). -/
def supervisionRestart (s : State) : State :=
  windowRestart
    { s with
      lines := updAll s.lines freshLines
      amps := updAll s.amps fun h => freshHealth h.active true
      standbyAmps := updAll s.standbyAmps fun h => freshHealth h.active true
      serving := Vector.replicate 2 none }

/-- A RESTART takes effect (R204): the queues are emptied, WARM RESTART is the first report, the capture
is aborted without a reply (R142), and each block restarts. The channels take the listener counts that
stand before substitutions end (R144), the cadences those after it (R122). -/
def restartEffect (commitCompleted : Bool) (s : State) : State :=
  let s1 := report (.warmRestart s.cmdQueue.length commitCompleted) (emptyQueues s)
  supervisionRestart (wardenRestart (cadsRestart (outsRestart (ringRestart (chansRestart
    { s1 with capture := none })))))

/-- RESTART_EFFECT (R204). -/
def execRestartEffect (s : State) : Out :=
  whenever (s.running && s.restart.isSome && s.commit.isNone)
    (fun s => restartEffect (s.restart.getD false) s) s

/-! ## POWER_LOSS -/

/-- POWER_LOSS (R202): the router stops, and a commit in flight ends without reply. -/
def execPowerLoss (s : State) : Out := .next { cutCommit s with phase := .off }

end Sys2Proof.Machine
end

