-- ==== Sys2Proof/Machine/Dispatch.lean ====
section
/-!
DEFINITION. One arm per command of the JD2416: each calls its own meaning.
-/

namespace Sys2Proof.Machine

def exec (i : Instr) (s : State) : Host.Outcome State Fault Refusal :=
  match i with
  | .coldStart straps => Sys2Proof.Machine.execColdStart straps s
  | .startUpLoadComplete => Sys2Proof.Machine.execStartUpLoadComplete s
  | .timebaseMillisecond origin => Sys2Proof.Machine.execTimebaseMillisecond origin s
  | .ringFrameReceived f gap mic => Sys2Proof.Machine.execRingFrameReceived f gap mic s
  | .masterFrameOriginate mic => Sys2Proof.Machine.execMasterFrameOriginate mic s
  | .ringMessageComplete m => Sys2Proof.Machine.execRingMessageComplete m s
  | .forwardHoldSend => Sys2Proof.Machine.execForwardHoldSend s
  | .insertionBegin => Sys2Proof.Machine.execInsertionBegin s
  | .returnRecordExpiry => Sys2Proof.Machine.execReturnRecordExpiry s
  | .ringLock => Sys2Proof.Machine.execRingLock s
  | .isolatedRelock => Sys2Proof.Machine.execIsolatedRelock s
  | .ringLoss => Sys2Proof.Machine.execRingLoss s
  | .ringIsolation => Sys2Proof.Machine.execRingIsolation s
  | .isolationEscalation => Sys2Proof.Machine.execIsolationEscalation s
  | .slotsClearedNotice => Sys2Proof.Machine.execSlotsClearedNotice s
  | .staleReclaim label => Sys2Proof.Machine.execStaleReclaim label s
  | .deferredReplyPlace => Sys2Proof.Machine.execDeferredReplyPlace s
  | .causeOn q dz => Sys2Proof.Machine.execCauseOn q dz s
  | .causeOff q dz => Sys2Proof.Machine.execCauseOff q dz s
  | .causeReset q dz => Sys2Proof.Machine.execCauseReset q dz s
  | .causeResetAll q => Sys2Proof.Machine.execCauseResetAll q s
  | .localInputEdge n high => Sys2Proof.Machine.execLocalInputEdge n high s
  | .localInputTaken n => Sys2Proof.Machine.execLocalInputTaken n s
  | .stageTimerExpiry dz ref => Sys2Proof.Machine.execStageTimerExpiry dz ref s
  | .escalateNow q dz => Sys2Proof.Machine.execEscalateNow q dz s
  | .escalateNowAll q => Sys2Proof.Machine.execEscalateNowAll q s
  | .holdStages q => Sys2Proof.Machine.execHoldStages q s
  | .releaseStages q => Sys2Proof.Machine.execReleaseStages q s
  | .zoneSet q zones yield => Sys2Proof.Machine.execZoneSet q zones yield s
  | .zoneClear q zones => Sys2Proof.Machine.execZoneClear q zones s
  | .silence q zones => Sys2Proof.Machine.execSilence q zones s
  | .resound q zones => Sys2Proof.Machine.execResound q zones s
  | .cadencePhaseEnd n => Sys2Proof.Machine.execCadencePhaseEnd n s
  | .playoutStepEnd n => Sys2Proof.Machine.execPlayoutStepEnd n s
  | .playStart q channel => Sys2Proof.Machine.execPlayStart q channel s
  | .playStop q channel => Sys2Proof.Machine.execPlayStop q channel s
  | .capture q phrase slot maxMs => Sys2Proof.Machine.execCapture q phrase slot maxMs s
  | .captureLimit => Sys2Proof.Machine.execCaptureLimit s
  | .captureStop q => Sys2Proof.Machine.execCaptureStop q s
  | .keyEdge closed => Sys2Proof.Machine.execKeyEdge closed s
  | .keyPress => Sys2Proof.Machine.execKeyPress s
  | .keyRelease => Sys2Proof.Machine.execKeyRelease s
  | .forcedRelease => Sys2Proof.Machine.execForcedRelease s
  | .slotAnswerDeadline => Sys2Proof.Machine.execSlotAnswerDeadline s
  | .wardenFreshTake => Sys2Proof.Machine.execWardenFreshTake s
  | .pilotPulse z line => Sys2Proof.Machine.execPilotPulse z line s
  | .healthInputChange c active => Sys2Proof.Machine.execHealthInputChange c active s
  | .windowEnd => Sys2Proof.Machine.execWindowEnd s
  | .clearFaults q => Sys2Proof.Machine.execClearFaults q s
  | .tableWrite q table index contents => Sys2Proof.Machine.execTableWrite q table index contents s
  | .commit q => Sys2Proof.Machine.execCommit q s
  | .commitStepEnd => Sys2Proof.Machine.execCommitStepEnd s
  | .restart q => Sys2Proof.Machine.execRestart q s
  | .restartEffect => Sys2Proof.Machine.execRestartEffect s
  | .slotClearAll q => Sys2Proof.Machine.execSlotClearAll q s
  | .statusRead q => Sys2Proof.Machine.execStatusRead q s
  | .zoneRead q zone => Sys2Proof.Machine.execZoneRead q zone s
  | .causeRead q index => Sys2Proof.Machine.execCauseRead q index s
  | .tableRead q table index => Sys2Proof.Machine.execTableRead q table index s
  | .powerLoss => Sys2Proof.Machine.execPowerLoss s
  | .unknownCommandCode q code => Sys2Proof.Machine.execUnknownCommandCode q code s

end Sys2Proof.Machine
end

