-- ==== Sys2Proof/Machine/Step.lean ====
section
/-!
DEFINITION. One step of the router: the command at the front of the queue of waiting commands is
taken and carried out; on an empty queue the router idles (log entries 1 and 2).
-/

namespace Sys2Proof.Machine

/-- One step: the front command is carried out on the state with the queue's rest. On an empty queue
nothing happens: time itself passes by TIMEBASE_MILLISECOND, which is a command of the table. -/
def step (s : State) : Host.Outcome State Fault Refusal :=
  match s.pending with
  | [] => .next s
  | c :: rest => exec c { s with pending := rest }

/-- The state with the command that a word spells put at the front of the queue, and the state itself
where the word spells none. -/
def State.withFetchWord (s : State) (nbits w : Nat) : State :=
  match decodeTableWord nbits w with
  | some c => { s with pending := c :: s.pending }
  | none => s

end Sys2Proof.Machine
end

