-- ==== Sys2Proof/WellFormed.lean ====
section
/-!
DEFINITION. Which commands are well formed: every number of a command lies in the range of the field
that carries it. A command outside these ranges cannot reach the router.
-/

namespace Sys2Proof

/-- The entry of the command queue that a command of the control stream begins; none for a step that no
command of the queue brings about. -/
def Instr.entry : Instr → Option Entry
  | .causeOn q dz => some ⟨q, .causeOn dz⟩
  | .causeOff q dz => some ⟨q, .causeOff dz⟩
  | .causeReset q dz => some ⟨q, .causeReset dz⟩
  | .causeResetAll q => some ⟨q, .causeResetAll⟩
  | .escalateNow q dz => some ⟨q, .escalateNow dz⟩
  | .escalateNowAll q => some ⟨q, .escalateNowAll⟩
  | .holdStages q => some ⟨q, .holdStages⟩
  | .releaseStages q => some ⟨q, .releaseStages⟩
  | .zoneSet q zs y => some ⟨q, .zoneSet zs y⟩
  | .zoneClear q zs => some ⟨q, .zoneClear zs⟩
  | .silence q zs => some ⟨q, .silence zs⟩
  | .resound q zs => some ⟨q, .resound zs⟩
  | .playStart q n => some ⟨q, .playStart n⟩
  | .playStop q n => some ⟨q, .playStop n⟩
  | .capture q p n ms => some ⟨q, .capture p n ms⟩
  | .captureStop q => some ⟨q, .captureStop⟩
  | .clearFaults q => some ⟨q, .clearFaults⟩
  | .tableWrite q t i c => some ⟨q, .tableWrite t i c⟩
  | .commit q => some ⟨q, .commit⟩
  | .restart q => some ⟨q, .restart⟩
  | .slotClearAll q => some ⟨q, .slotClearAll⟩
  | .statusRead q => some ⟨q, .statusRead⟩
  | .zoneRead q z => some ⟨q, .zoneRead z⟩
  | .causeRead q i => some ⟨q, .causeRead i⟩
  | .tableRead q t i => some ⟨q, .tableRead t i⟩
  | .unknownCommandCode q n => some ⟨q, .unknown n⟩
  | .coldStart _ | .startUpLoadComplete | .timebaseMillisecond _ | .ringFrameReceived _ _ _
  | .masterFrameOriginate _ | .ringMessageComplete _ | .forwardHoldSend | .insertionBegin
  | .returnRecordExpiry | .ringLock | .isolatedRelock | .ringLoss | .ringIsolation
  | .isolationEscalation | .slotsClearedNotice | .staleReclaim _ | .deferredReplyPlace
  | .localInputEdge _ _ | .localInputTaken _ | .stageTimerExpiry _ _ | .cadencePhaseEnd _
  | .playoutStepEnd _ | .captureLimit | .keyEdge _ | .keyPress | .keyRelease | .forcedRelease
  | .slotAnswerDeadline | .wardenFreshTake | .pilotPulse _ _ | .healthInputChange _ _ | .windowEnd
  | .commitStepEnd | .restartEffect | .powerLoss => none

/-- The origin of a message and its tag are one byte each (R181): an origin above 239 is no node's, but a
message can bear it. -/
def Request.wf (q : Request) : Bool := decide (q.origin ≤ 255) && decide (q.tag ≤ 255)

/-- The header fields of a message are one byte each, and its body has at most 32 (R181). -/
def Message.wf (m : Message) : Bool :=
  decide (m.body.length ≤ 32) &&
  decide (m.dest ≤ 255) && decide (m.origin ≤ 255) && decide (m.tag ≤ 255) && decide (m.hops ≤ 255)

/-- A stage timer is named by a detection zone and a position among at most 16 references (R15,
R42). -/
def timerNamed (dz ref : Nat) : Bool := decide (dz ≤ 511) && decide (ref ≤ 15)

/-- A label is the number of a dynamic slot (R189). -/
def labelOk (label : Nat) : Bool := decide (16 ≤ label) && decide (label ≤ 31)

/-- A code is one byte (R181). -/
def codeOk (code : Nat) : Bool := decide (code ≤ 255)

/-- A command is well formed. -/
def Instr.wf (i : Instr) : Bool :=
  (match i.entry with
   | some e => e.req.wf
   | none => true) &&
  (match i with
   | .ringMessageComplete m => m.wf
   | .stageTimerExpiry dz ref => timerNamed dz ref
   | .staleReclaim label => labelOk label
   | .unknownCommandCode _ code => codeOk code
   | _ => true)

end Sys2Proof
end

