-- ==== Sys2Proof/Safety.lean ====
section
/-!
DEFINITION. The terms that statements use: when a command of the control stream is carried out, what a
settlement of the zones may touch, and the invariants that every step keeps.
-/

namespace Sys2Proof.Machine

/-! ## Commands carried out -/

/-- The command `b` of request `q` stands at the head of the command queue, passes the checks of R198
and may begin with `n` messages to place (R196). -/
structure Admitted (s : State) (q : Request) (b : CmdBody) (n : Nat) : Prop where
  head     : s.cmdQueue.head? = some ⟨q, b⟩
  admitted : refusalOf s ⟨q, b⟩ = none
  room     : mayBegin s n = true

/-- A command has left the queue with the whole of its reply placed last, and nothing held (R196,
R197). -/
def repliedWith (s : State) (q : Request) (b : CmdBody) (r : Result) (d : ReplyData) : State :=
  { s with cmdQueue := s.cmdQueue.tail, reserved := 0
           outbound := s.outbound ++ replyMsgs q (codeOf b) r d }

/-- The state with the command at the head of the queue taken from it (R196). -/
def leftQueue (s : State) : State := { s with cmdQueue := s.cmdQueue.tail, reserved := 0 }

/-- A zone named in a set stays after trimming: in the reach of the class and in use (R94). -/
structure Stays (s : State) (cls : Class) (zs : ZoneSet) (z : Zone) : Prop where
  named : inSet zs z = true
  reach : inSet s.work.orig[cls].reach z = true
  inUse : s.work.spk[z].inUse = true

/-- The reply of a command on a zone set: DONE, or DONE-TRIMMED with the number of zones trimmed (R94). -/
def trimReply (s : State) (q : Request) (c : CmdCode) (zs : ZoneSet) : OutMsg :=
  let n := (allZones.filter fun z =>
    inSet zs z && !(inSet s.work.orig[q.cls].reach z && s.work.spk[z].inUse)).length
  if n = 0 then replyMsg q c .done .none else replyMsg q c .doneTrimmed (.trimmed n)

/-- A claim has joined a list that keeps every claim it held. -/
structure Joined (c : Claim) (l l' : List Claim) : Prop where
  joined : c ∈ l'
  one    : l'.length = l.length + 1
  kept   : ∀ d ∈ l, d ∈ l'

/-- A TABLE WRITE that is taken and changes the entry: no commit in flight, no capture of that phrase, and
contents that pass their check as `c'`, which the entry does not hold yet (R124, R196, R200). -/
structure WriteTaken (s : State) (q : Request) (table i : Nat) (c c' : Contents) : Prop where
  names   : entryOf s.work table i ≠ none
  changes : entryOf s.work table i ≠ some c'
  commit  : s.commit = none
  capture : ∀ x, s.capture = some x → ¬(table = 8 ∧ i = x.phrase)
  passes  : checkContents s.work i c = some c'
  begins  : Admitted s q (.tableWrite table i c)
    (if table = 11 ∧ (insertionSlot s).isSome = true then 2 else 1)

/-- The state with the command taken from the queue and the working entry replaced (R200). -/
def written (i : Nat) (c : Contents) (s : State) : State :=
  { leftQueue s with work := putEntry i c s.work }

/-- A TABLE WRITE leaves `u` and its reply, placed last (R200). -/
def writeLeaves (s : State) (q : Request) (table i : Nat) (c : Contents) (u : State) : Prop :=
  exec (.tableWrite q table i c) s = .next (place (replyMsg q .tableWrite .done .none) u)

/-- An effect of an entry written in use has a known scope with its offsets in order and within 16, a kind, a
known sector filter and first stage, and templates up to 31 (R36). -/
structure EffectStands (f : Effect) : Prop where
  scope  : (∃ lo hi : Int, f.scope = .named (.relative lo hi) ∧ -16 ≤ lo ∧ lo ≤ hi ∧ hi ≤ 16) ∨
    ∃ zs, f.scope = .named (.fixed zs)
  kinds  : f.kinds.floor = true ∨ f.kinds.stair = true ∨ f.kinds.lift = true ∨ f.kinds.refuge = true
  sector : ∃ x, f.sector = .named x
  first  : ∃ x, f.first = .named x
  templ  : f.alert ≤ 31 ∧ f.evacuate ≤ 31

/-- A template written in use names a slot up to 31, a channel or cadence up to 3, the microphone or nothing,
a priority up to 15, and a fallback, a channel or cadence up to 3, only beside a slot (R38). -/
structure TemplateStands (e : Template) : Prop where
  source   : (∃ n, n ≤ 31 ∧ e.source = .named (.ring n)) ∨
    (∃ n, n ≤ 3 ∧ (e.source = .named (.playout n) ∨ e.source = .named (.tone n))) ∨
    e.source = .named .warden ∨ e.source = .named .none
  prio     : e.prio ≤ 15
  fallback : e.fallback = none ∨ ((∃ n, e.source = .named (.ring n)) ∧
    ∃ n, n ≤ 3 ∧ (e.fallback = some (.named (.playout n)) ∨ e.fallback = some (.named (.tone n))))

/-- Contents `c` written to entry `i` pass the check of their table and are stored as `c'`, clamped where the
rule clamps: Node Identity (R68, R183), Detection Zone Map (R1, R2, R4), Speaker Zone Map (R1, R2, R5), Local
Input Map (R10), Cause-and-Effect Table (R35, R36), Claim Templates (R38), Originator Table (R91), Tone
Cadence Table (R115), Phrase Directory (R124), Playout Programs (R126), Supervision Limits and their window
(R159), Warden Settings (R145). What is clamped in an entry not in use, the start of a phrase, the delay of an
EVACUATE effect and the pause of an endless cadence are those of log entries 16, 17, 18, 48 and 49. -/
def EntryStands (t : Tables) (i : Nat) (c c' : Contents) : Prop :=
  match c with
  | .node e => e.addr ≤ 239 ∧ e.groups.length ≤ 4 ∧ (∀ g ∈ e.groups, 240 ≤ g ∧ g ≤ 251) ∧
      e.groups.Nodup ∧ e.report ≠ 0 ∧ e.report ≠ 252 ∧ e.report ≠ 254 ∧ e.report ≤ 255 ∧
      c' = .node { e with isoDelay := min e.isoDelay 600 }
  | .detZone e => (∀ l, e.level = some l → l ≤ 127) ∧ (∀ n, e.sector = some n → n ≤ 7) ∧
      c' = .detZone e
  | .spkZone e => ((e.levelLo = none ∧ e.levelHi = none) ∨
        ∃ a b, e.levelLo = some a ∧ e.levelHi = some b ∧ a ≤ b ∧ b ≤ 127) ∧
      e.sector ≤ 7 ∧ (∃ k, e.kind = .named k) ∧ c' = .spkZone { e with trim := min e.trim 40 }
  | .localIn e => (e.inUse = true → e.dz ≤ 511 ∧
        ∀ j : Fin 8, j.val ≠ i → t.inputs[j].inUse = true → t.inputs[j].dz ≠ e.dz) ∧ c' = .localIn e
  | .ceEntry e => (e.inUse = false ∧ c' = .ceEntry e) ∨
      (e.inUse = true ∧ e.dzHi ≤ 511 ∧ e.dzLo ≤ e.dzHi ∧ 1 ≤ e.effects.length ∧
        e.effects.length ≤ 4 ∧ (∀ f ∈ e.effects, EffectStands f) ∧
        c' = .ceEntry { e with effects := e.effects.map fun f => { f with delay := min f.delay 3600 } })
  | .template e => (e.inUse = true → TemplateStands e) ∧
      c' = .template { e with atten := min e.atten 80 }
  | .originator e => e.preset ≤ 31 ∧ e.outside = false ∧ c' = .originator e
  | .cadence e => (e.inUse = true →
        (e.freq = 500 ∨ e.freq = 800 ∨ e.freq = 1000 ∨ e.freq = 2000) ∧ e.bursts ≤ 15) ∧
      c' = .cadence { e with
        on := min 5000 (max 50 e.on), off := min 5000 e.off, pause := min 10000 e.pause }
  | .phrase e => e.start ≤ 4194303 ∧ e.start + e.capacity ≤ 4194304 ∧ e.length ≤ e.capacity ∧
      c' = .phrase e
  | .program e => (e.inUse = true → (∃ m, e.mode = .named m) ∧ 1 ≤ e.steps.length ∧
        e.steps.length ≤ 8 ∧
        ∀ p ∈ e.steps, (∃ n, n ≤ 63 ∧ p = .named (.phrase n)) ∨ ∃ ms, p = .named (.gap ms)) ∧
      c' = .program { e with steps := e.steps.map fun p => match p with
        | .named (.gap ms) => .named (.gap (min 10000 (max 10 ms)))
        | p => p }
  | .limits e => e.aUpper ≤ 65535 ∧ e.bUpper ≤ 65535 ∧ e.aLower ≤ e.aUpper ∧ e.bLower ≤ e.bUpper ∧
      c' = .limits e
  | .window ms => c' = .window (min 1000 (max 50 ms))
  | .warden e => c' = .warden { e with maxTalk := min 600 (max 10 e.maxTalk) }

/-- A report of this moment stands in the queue, or the queue is full (R206). -/
def Told (b : ReportBody) (t : State) : Prop :=
  ⟨b, t.now⟩ ∈ t.reports ∨ Config.reportMax ≤ t.reports.length

/-- A report of this moment is the last in the queue, or was dropped by a full one (R206). -/
def ToldLast (b : ReportBody) (t : State) : Prop :=
  t.reports.getLast? = some ⟨b, t.now⟩ ∨
    (Config.reportMax ≤ t.reports.length ∧ t.reportOverflow = true)

/-- The Activation List holds at most 32 records, no two with the same detection zone, none with more
than 16 references; a reference carries a timer only while its stage is ALERT, no timer rests at 0, and the
timer whose expiry is due has its last millisecond (R17, R42, R58). -/
def RecordsOk (s : State) : Prop :=
  s.acts.length ≤ Config.actMax ∧ s.acts.Pairwise (fun a b => a.dz ≠ b.dz) ∧
  ∀ r ∈ s.acts, r.refs.length ≤ Config.refMax ∧
    ∀ f ∈ r.refs, (∀ k, f.timer = some k → f.stage = .alert ∧ 1 ≤ k) ∧
      (f.due = true → f.timer = some 1)

/-! ## Claims of a zone -/

/-- `a` may stand before `b` in a claim list: higher priority, or the same priority and placed no later
(R79). -/
def Before (a b : Claim) : Prop := b.prio < a.prio ∨ (a.prio = b.prio ∧ a.placed ≤ b.placed)

/-- One zone's claim list: at most 6 claims, in the order of R79, at most one of each owner
(R77–R79). -/
def ListOk (l : List Claim) : Prop :=
  l.length ≤ Config.claimMax ∧ l.Pairwise Before ∧ l.Pairwise fun a b => a.owner ≠ b.owner

/-- A claim offered to a zone stands in its list, or has been displaced or rejected with its report, which a
full report queue may have dropped (R80, R101, R206). -/
def Offered (z : Zone) (c : Claim) (u : State) : Prop :=
  c ∈ u.lists[z] ∨ Told (.claimDisplaced z c.owner c.prio) u ∨ Told (.claimRejected z c.owner c.prio) u

/-- One offer of a claim to a zone in use (R80–R83, R101): where no claim of its owner is held it joins a list
with room; a full one gives up its last claim to a higher priority, reported CLAIM DISPLACED, and otherwise
stays, reported CLAIM REJECTED; a claim held of the same owner is replaced with its placement time kept, in
its place while the priority stays. -/
structure OfferSettled (z : Zone) (c : Claim) (s u : State) : Prop where
  room : (∀ d ∈ s.lists[z], d.owner ≠ c.owner) → s.lists[z].length < 6 →
    Joined c s.lists[z] u.lists[z]
  full : (∀ d ∈ s.lists[z], d.owner ≠ c.owner) → ∀ last, s.lists[z].length = 6 →
    s.lists[z].getLast? = some last →
    (last.prio < c.prio → Joined c s.lists[z].dropLast u.lists[z] ∧
      Told (.claimDisplaced z last.owner last.prio) u) ∧
    (c.prio ≤ last.prio → u.lists[z] = s.lists[z] ∧ Told (.claimRejected z c.owner c.prio) u)
  held : ∀ held ∈ s.lists[z], held.owner = c.owner → ListOk s.lists[z] →
    (c.prio = held.prio → u.lists[z] = s.lists[z].map fun d =>
      if d.owner = c.owner then { c with placed := held.placed } else d) ∧
    (c.prio ≠ held.prio → Joined { c with placed := held.placed }
      (s.lists[z].filter fun d => d.owner != c.owner) u.lists[z])

/-- The claims of a zone that are not `mine`, while claims come and go and the records `rs` refill it: one
held stays but where it was displaced with its report (R101), or was a SILENCE claim as a cause claim came to
EVACUATE (R84); one that is new is a merged claim of `rs`, or the OVERFLOW claim where its condition holds
(R23, R86). -/
structure OthersKept (rs : List ActRecord) (mine : Claim → Bool) (s u : State) (z : Zone) : Prop where
  kept  : ∀ d ∈ s.lists[z], mine d = false → d ∈ u.lists[z] ∨
    Told (.claimDisplaced z d.owner d.prio) u ∨
    ((∃ k, d.owner = .silence k) ∧
      ∃ r ∈ rs, ∃ c, mergeClaim s.work s.now r z = some c ∧ c.stage = some .evacuate)
  fresh : ∀ d ∈ u.lists[z], mine d = false → d ∈ s.lists[z] ∨
    (∃ r ∈ rs, mergeClaim s.work s.now r z = some d) ∨
    (d = overflowClaim s ∧ (u.overflow = true ∨ (u.defaultMode = true ∧ u.acts ≠ [])))

/-- The claims `gone` have left a zone, which the records `rs` refill (R26, R85, R86): the others are kept as
OthersKept says; a zone that held none of them keeps its list; one of them that stands there afterwards is a
merged claim of `rs`, or the OVERFLOW claim where its condition holds (R23). -/
structure ClaimsKept (rs : List ActRecord) (gone : Claim → Bool) (s u : State) (z : Zone) : Prop
    extends OthersKept rs gone s u z where
  whole : (∀ d ∈ s.lists[z], gone d = false) → u.lists[z] = s.lists[z]
  anew  : ∀ d ∈ u.lists[z], gone d = true →
    (∃ r ∈ rs, mergeClaim s.work s.now r z = some d) ∨
    (d = overflowClaim s ∧ (u.overflow = true ∨ (u.defaultMode = true ∧ u.acts ≠ [])))

/-- A zone from which claims `gone` have left is refilled (R26 step 4, R86): with no record left and no
ACTIVATION OVERFLOW its other claims stand as they did; else each record that then held none there has its
merged claim offered, and the OVERFLOW claim is offered while its condition holds (R23). -/
structure Refilled (gone : Claim → Bool) (s u : State) (z : Zone) : Prop where
  bare     : u.acts = [] → u.overflow = false → u.lists[z] = s.lists[z].filter fun d => !gone d
  merged   : (∃ d ∈ s.lists[z], gone d = true) → ∀ r ∈ u.acts,
    (∀ d ∈ s.lists[z], d.owner = .cause r.dz → gone d = true) →
    ∀ c, mergeClaim s.work s.now r z = some c → Offered z c u
  overflow : (∃ d ∈ s.lists[z], gone d = true) → s.work.spk[z].inUse = true →
    (u.overflow = true ∨ (u.defaultMode = true ∧ u.acts ≠ [])) →
    (∀ d ∈ s.lists[z], d.owner = .overflow → gone d = true) → Offered z (overflowClaim s) u

/-- The record of a detection zone has gone with its claims, and with the last one ACTIVATION OVERFLOW and
every OVERFLOW claim (R26). -/
def RecordGone (s u : State) (dz : Nat) : Prop :=
  let gone (c : Claim) : Bool := c.owner == .cause dz || (u.acts.isEmpty && c.owner == .overflow)
  u.acts = s.acts.filter (fun x => x.dz != dz) ∧ (u.acts = [] → u.overflow = false) ∧
  (u.acts ≠ [] → u.overflow = s.overflow) ∧
  ∀ z : Zone, ClaimsKept u.acts gone s u z ∧ (RecordsOk s → Refilled gone s u z)

/-- Every WARDEN claim has left the zones (R149 step 2, R158): the other claims of each zone are kept as
ClaimsKept says, so that a zone without a WARDEN claim keeps its list, and a zone that lost one is refilled
(R85, R86). -/
def WardenGone (s u : State) : Prop :=
  let gone (c : Claim) : Bool := c.owner == .warden
  ∀ z : Zone, (∀ c ∈ u.lists[z], c.owner ≠ .warden) ∧ ClaimsKept s.acts gone s u z ∧
    (RecordsOk s → Refilled gone s u z)

/-- A record with every stage timer expired (R60, R63). -/
def timedOut (r : ActRecord) : ActRecord := { r with refs := r.refs.map fun f =>
  if f.timer.isSome = true then { f with stage := .evacuate, timer := none, due := false } else f }

/-- A stage timer of a record reaches a zone: the reference that carries it does (R45). -/
def TimerReaches (t : Tables) (r : ActRecord) (z : Zone) : Prop :=
  ∃ f ∈ r.refs, f.timer.isSome = true ∧ refReaches t r f z = true

/-- Every stage timer of the records `rs` has expired, record by record and reference by reference (R60, R61,
R63, R64). A zone that none of them reaches keeps its list. In one that a timer of a record reaches, the
record's claim is its new merge, or was displaced or rejected with a report, or is gone where the merge has no
result; a lone claim keeps its place; where the claim has come to EVACUATE no SILENCE claim stays (R84). The
claims of other owners are kept as OthersKept says. A CAUSE ESCALATED report of each expiry is queued, in
their order, until the report queue is full. -/
structure Escalated (rs : List ActRecord) (s u : State) : Prop where
  away   : ∀ z : Zone, (∀ r ∈ rs, ¬TimerReaches s.work r z) → u.lists[z] = s.lists[z]
  merged : ∀ r ∈ rs, ∀ z : Zone, TimerReaches s.work r z →
    (∀ c, mergeClaim s.work s.now (timedOut r) z = some c →
      (∃ d ∈ u.lists[z], d = { c with placed := d.placed }) ∨ Offered z c u) ∧
    (mergeClaim s.work s.now (timedOut r) z = none → ∀ d ∈ u.lists[z], d.owner ≠ .cause r.dz)
  lone   : ∀ r ∈ rs, ∀ (z : Zone) (held c : Claim), TimerReaches s.work r z →
    (∀ x ∈ rs, x.dz ≠ r.dz → ¬TimerReaches s.work x z) → s.lists[z] = [held] →
    held.owner = .cause r.dz →
    (∀ k, mergeClaim s.work s.now
      { r with refs := ((timedOut r).refs.take k) ++ r.refs.drop k } z ≠ none) →
    mergeClaim s.work s.now (timedOut r) z = some c → u.lists[z] = [{ c with placed := held.placed }]
  quiet  : ∀ r ∈ rs, ∀ (z : Zone), ∀ d ∈ u.lists[z], d.owner = .cause r.dz →
    d.stage = some .evacuate →
    (∀ h ∈ s.lists[z], h.owner = .cause r.dz → h.stage ≠ some .evacuate) →
    ∀ e ∈ u.lists[z], ∀ k, e.owner ≠ .silence k
  told   :
    let due : List Report := rs.flatMap fun r => (r.refs.filter fun f => f.timer.isSome).map fun f =>
      ⟨.causeEscalated r.dz f.entry f.effect, s.now⟩
    let told : List Report := (u.reports.drop s.reports.length).filter fun x => match x.body with
      | .causeEscalated _ _ _ => true
      | _ => false
    s.reports <+: u.reports ∧ told <+: due ∧ (u.reports.length < 16 → told = due)
  others : ∀ z : Zone,
    OthersKept u.acts (fun d => rs.any fun r => d.owner == .cause r.dz) s u z

/-- A cause has been recorded (R3, R15, R19, R20, R25, R41, R42, R54, R71): the record stands last with its
fields as the rules fix them, `latch` the latch flag of a local input, its timers expired at once while the
isolation escalated condition holds (R71); the alarm lock is set. Outside DEFAULT MODE the merged claim, where
there is one, comes to each zone: it stands there, or was displaced or rejected with its report; where no
timer expires and no SILENCE claim leaves by it (R84) it is one offer, settled by R80–R83. A zone without a
merged claim gets none of the record, and one that no reference reaches keeps its list. In DEFAULT MODE the
first record offers the OVERFLOW claim to every zone in use, and another changes no list. The claims of other
owners are kept. -/
def Recorded (s u : State) (dz : Nat) (cls : Fin 8) (origin : Nat) (latch : Option Bool) : Prop :=
  ∃ r : ActRecord,
    let r' : ActRecord := if s.isoEscalated = true then timedOut r else r
    u.acts = s.acts ++ [r'] ∧ u.overflow = s.overflow ∧ u.alarmLock = true ∧
    r.dz = dz ∧ r.cls = cls ∧ r.origin = origin ∧ r.time = s.now ∧ r.restored = false ∧
    (∀ e, s.work.dzMap[dz]? = some e →
      (e.inUse = true → r.level = e.level ∧ r.sector = e.sector) ∧
      (e.inUse = false → r.level = none ∧ r.sector = none)) ∧
    (s.defaultMode = true → r.latched = latch.getD true ∧ r.truncated = false ∧ r.refs = [] ∧
      (s.acts = [] → ∀ z : Zone,
        (s.work.spk[z].inUse = true → OfferSettled z (overflowClaim s) s u) ∧
        OthersKept u.acts (fun d => d.owner == .overflow) s u z) ∧
      (s.acts ≠ [] → u.lists = s.lists ∧ u.outs = s.outs)) ∧
    (s.defaultMode = false → r.refs = matchRefs s.work dz ∧
      r.truncated = decide (16 < (allRefs s.work dz).length) ∧
      r.latched = latch.getD (match s.work.ce.toList.find? (fun e =>
          e.inUse && decide (e.dzLo ≤ dz) && decide (dz ≤ e.dzHi)) with
        | some e => e.latch
        | none => true) ∧
      ∀ z : Zone,
        (∀ c, mergeClaim s.work s.now r' z = some c →
          ((∃ d ∈ u.lists[z], d = { c with placed := d.placed }) ∨ Offered z c u) ∧
          ((∀ d ∈ s.lists[z], d.owner ≠ .cause dz) → Offered z c u) ∧
          (s.isoEscalated = false →
            (c.stage ≠ some .evacuate ∨ ∀ d ∈ s.lists[z], ∀ k, d.owner ≠ .silence k) →
            OfferSettled z c s u)) ∧
        (mergeClaim s.work s.now r' z = none → (∀ d ∈ s.lists[z], d.owner ≠ .cause dz) →
          ∀ d ∈ u.lists[z], d.owner ≠ .cause dz) ∧
        ((∀ f ∈ r.refs, refReaches s.work r f z = false) → u.lists[z] = s.lists[z]) ∧
        OthersKept u.acts (fun d => d.owner == .cause dz) s u z)

/-- A cause has found the list full (R21, R23): no record is created, ACTIVATION OVERFLOW holds, and the
OVERFLOW report stands last, behind those of the claim's offers (log entry 47). On entry into the state the
OVERFLOW claim, built from template 0 or from its factory default, is offered to each zone in use: one that
DEFAULT MODE has brought there already keeps its placement time (R25, R80, R81), and the claims of other
owners are kept; in the state already, no claim list changes. -/
def Overflowed (s u : State) (dz : Nat) (cls : Fin 8) : Prop :=
  u.acts = s.acts ∧ u.overflow = true ∧ ToldLast (.overflow dz cls) u ∧
  (s.overflow = true → u.lists = s.lists ∧ u.outs = s.outs) ∧
  (s.overflow = false → ∀ z : Zone,
    (s.work.spk[z].inUse = true →
      (∀ m, templateInUse s.work 0 = some m → OfferSettled z
        { owner := .overflow, source := sourceOf m.source, fallback := fallbackOf m.fallback
          prio := m.prio, atten := m.atten, stage := none, placed := s.now } s u) ∧
      (templateInUse s.work 0 = none → OfferSettled z
        { owner := .overflow, source := .tone 0, fallback := none, prio := 12, atten := 0
          stage := none, placed := s.now } s u)) ∧
    OthersKept s.acts (fun d => d.owner == .overflow) s u z)

/-! ## Channels -/

/-- The run state that channel `n` takes as step `k` begins, `owed` sample times late: a gap of its
milliseconds, a usable phrase from its start, less the sample times owed, or 500 ms of silence for a phrase
that is not usable (R129, R130). The places of the sample times within a millisecond, and the mark of a phrase
that they use up, are those of log entry 19. -/
def ChanBegun (s : State) (n : Fin 4) (k owed : Nat) (c : ChanRun) : Prop :=
  let since := if s.rif.ring = .locked then s.sampleTimes else 0
  (∀ ms, s.work.progs[n].steps[k]? = some (.named (.gap ms)) →
    c = { state := .running, step := k, kind := .gap, addr := 0, remaining := ms, due := false
          late := since - owed, owed := owed - since, listeners := s.chans[n].listeners }) ∧
  ∀ w p, s.work.progs[n].steps[k]? = some (.named (.phrase w)) → s.work.phrases[w]? = some p →
    (p.valid = true → owed < p.length →
      c = { state := .running, step := k, kind := .phrase, addr := p.start + owed
            remaining := p.length - owed, late := 0, owed := 0, due := false
            listeners := s.chans[n].listeners }) ∧
    (p.valid = true → 0 < p.length → p.length ≤ owed →
      c = { state := .running, step := k, kind := .phrase, addr := p.start + p.length - 1
            remaining := 1, late := 0, owed := owed - p.length, due := true
            listeners := s.chans[n].listeners }) ∧
    ((p.valid = false ∨ p.length = 0) →
      c = { state := .running, step := k, kind := .missing, addr := 0, remaining := 500, due := false
            late := since - owed, owed := owed - since, listeners := s.chans[n].listeners })

/-- Step `k` of channel `n` has begun: the channel's run state alone differs, but that a phrase that is not
usable sets PHRASE MISSING and queues its report (R129, R130). -/
def Begun (s : State) (n : Fin 4) (k owed : Nat) (u : State) : Prop :=
  ∃ c : ChanRun, ChanBegun s n k owed c ∧
    (((∃ ms, s.work.progs[n].steps[k]? = some (.named (.gap ms))) ∨
        ∃ w p, s.work.progs[n].steps[k]? = some (.named (.phrase w)) ∧
          s.work.phrases[w]? = some p ∧ p.valid = true ∧ 0 < p.length) →
      u = { s with chans := s.chans.set n c }) ∧
    ∀ w p, s.work.progs[n].steps[k]? = some (.named (.phrase w)) → s.work.phrases[w]? = some p →
      (p.valid = false ∨ p.length = 0) →
      u = report (.phraseMissing n.val w k)
        { s with phraseMissing := true, chans := s.chans.set n c }

/-- Channel `n` stopped in a state at step 0, its listener count kept (log entries 30 and 35). -/
def stopped (s : State) (n : Fin 4) (st : ChanState) : State :=
  { s with chans := s.chans.set n (
      { state := st, step := 0, kind := .gap, addr := 0, remaining := 0, late := 0, owed := 0, due := false
        listeners := s.chans[n].listeners }) }

/-! ## Window ends -/

/-- What a window end makes of a line monitor of a zone in use (R161, R162): a SHORT line is not evaluated,
a line not measured over the whole window begins its first whole one, and another is judged by the limits;
the third like verdict in a row that calls for another state brings it. -/
structure LineJudged (lower upper : Nat) (m m' : LineMon) : Prop where
  short : m.state = .short → m' = m
  part  : m.state ≠ .short → m.whole = false → m' = { m with pulses := 0, whole := true }
  whole : m.state ≠ .short → m.whole = true →
    let v : LineVerdict :=
      if m.pulses < lower then .low else if upper < m.pulses then .high else .inBand
    let called : LineState := match v with
      | .low => .opened
      | .inBand => .normal
      | .high => .short
    let run := if m.candidate = some v then min 3 (m.run + 1) else 1
    (run < 3 → m' = { m with hold := some m.pulses, pulses := 0, candidate := some v, run := run }) ∧
    (run = 3 → called ≠ .short → m' = { m with
      hold := some m.pulses, pulses := 0, candidate := some v, run := 3, state := called }) ∧
    (run = 3 → called = .short → m' = { m with
      hold := some m.pulses, pulses := 0, candidate := none, run := 0, state := .short })

/-- What a window end makes of a health record (R165): one observed over part of the window begins its
first whole one; by three like verdicts in a row a channel fails or clears. -/
structure HealthJudged (h h' : Health) : Prop where
  part  : h.whole = false → h' = { h with whole := true, dropped := !h.active }
  whole : h.whole = true →
    let run := if h.candidate = some (!h.dropped) then min 3 (h.run + 1) else 1
    h' = { h with
      candidate := some (!h.dropped), run := run, dropped := !h.active
      failed := if run = 3 then h.dropped else h.failed }

/-- The report that a line's change of state queues stands in the queue, or the queue is full (R162,
R206). -/
structure LineTold (z : Zone) (l : Line) (before after : LineState) (t : State) : Prop where
  opened : before ≠ .opened → after = .opened → Told (.faultRaised (.line z l) .opened) t
  short  : before ≠ .short → after = .short → Told (.faultRaised (.line z l) .short) t
  normal : before = .opened → after = .normal → Told (.faultCleared (.line z l) .opened) t

/-- The report that a channel's failed flag queues by its change stands in the queue, or the queue is full
(R165, R206). -/
structure HealthTold (c : AmpChannel) (before after : Bool) (t : State) : Prop where
  fails  : before = false → after = true → Told (.faultRaised (.channel c) .ampFailed) t
  clears : before = true → after = false → Told (.faultCleared (.channel c) .ampFailed) t

/-- What holds of the standby pool after a run of the arbiter (R166, R168): a serving channel is not FAILED
and serves a failed zone; while a failed zone waits no channel is FREE, and none serves a zone of lower
rank. -/
structure PoolSettled (t : State) : Prop where
  serves : ∀ (k : Fin 2) (z : Zone), t.serving[k] = some z →
    t.standbyAmps[k].failed = false ∧ failedZone t z = true
  waits  : ∀ z : Zone, failedZone t z = true → (∀ k : Fin 2, t.serving[k] ≠ some z) →
    ∀ k : Fin 2, (t.serving[k] = none → t.standbyAmps[k].failed = true) ∧
      ∀ y, t.serving[k] = some y → rankOf t z ≤ rankOf t y

/-- A zone's output after a change of ring state (R104, R109, R110): source and substitution are settled, and
a change of effective source puts the current attenuation to 120; nothing else of the record changes. -/
def RingSettled (s t : State) (z : Zone) : Prop :=
  (s.work.spk[z].inUse = false → t.outs[z] = s.outs[z]) ∧
  (s.work.spk[z].inUse = true → t.outs[z] = { s.outs[z] with
    effective := t.outs[z].effective, substituted := t.outs[z].substituted
    current := if t.outs[z].effective = s.outs[z].effective then s.outs[z].current else 120 })

/-! ## Messages of the ring -/

/-- A message, another node's or the node's own on its return, is the oldest that ring-in has brought
complete at a LOCKED node: the bytes received are the message's, its body the one its content calls for
(R181, R182, log entries 6 and 63). -/
structure Received (s : State) (m : Message) : Prop where
  running : s.phase = .running
  locked  : s.rif.ring = .locked
  bytes   : ∃ bs rest, s.rif.arrived = bs :: rest ∧ bs.take (10 + m.body.length) = messageBytes m
  body    : ∀ b, bodyOf m.content = some b → m.body = b

/-- A message received passes the three checks of R182 and finds room in the forward hold (log entry
24). -/
structure Arrives (s : State) (m : Message) : Prop extends Received s m where
  check   : m.check = messageCheck m
  taken   : m.taken ≠ m.takenBar
  full    : m.full ≠ m.fullBar
  hops    : m.hops < 255
  room    : s.rif.fwd.length < 2

/-- The state with the oldest message received taken from those that wait to be acted on. -/
def actedOn (s : State) : State := { s with rif := { s.rif with arrived := s.rif.arrived.tail } }

/-- A message has gone into the forward hold (R182) or, returned to its origin, has been stripped with
its return record (R186). -/
def sentAlong (m : Message) (s : State) : State :=
  if m.origin = s.rif.addr then
    { s with rif := { s.rif with
        arrived := s.rif.arrived.tail
        returns := s.rif.returns.eraseP fun x => x.tag == m.tag } }
  else { s with rif := { s.rif with arrived := s.rif.arrived.tail, fwd := s.rif.fwd ++ [m] } }

/-- A destination that names this node: 255, its address or a group of it (R184). -/
def Named (s : State) (d : Nat) : Prop :=
  d = 255 ∨ (s.rif.addr ≠ 0 ∧ d = s.rif.addr) ∨
  (s.rif.addr ≠ 0 ∧ 240 ≤ d ∧ d ≤ 251 ∧ d ∈ s.work.node.groups)

/-- A message with TAKEN added to its union (R185). -/
def withTaken (m : Message) : Message := { m with taken := true, takenBar := false }

/-- A message with FULL added to its union (R185). -/
def withFull (m : Message) : Message := { m with full := true, fullBar := false }

/-- A reply that is no answer to a SLOT REQUEST for the warden: a reply to another command, or one that
carries neither a slot GRANTED nor the free count of a DENIED (R153, log entry 74). -/
def NoAnswer (r : Reply) : Prop :=
  r.code ≠ .slotRequest ∨
  ((∀ n ns l k, r.result = .granted → r.data ≠ .granted (n :: ns) l k) ∧
    ∀ k, r.result = .denied → r.data ≠ .freeCount k)

/-- What becomes of a SLOT REQUEST or SLOT RELEASE that the Slot Allocation Table does not settle (R184, R185,
R190): without room for its answer it is acknowledged FULL; a node that is not the master, named by its own
address, answers NOT MASTER; one that does not take it only sends it on. -/
def SlotNotSettled (s : State) (m : Message) (q : Request) (c : CmdCode) : Prop :=
  let leaves (t : State) : Prop := exec (.ringMessageComplete m) s = .next t
  (s.rif.master = true → (m.dest = 253 ∨ Named s m.dest) → s.room = 0 →
    leaves (sentAlong (withFull m) s)) ∧
  (s.rif.master = false → s.rif.addr ≠ 0 → m.dest = s.rif.addr →
    (0 < s.room → leaves (sentAlong (withTaken m) (place (replyMsg q c .notMaster .none) s))) ∧
    (s.room = 0 → leaves (sentAlong (withFull m) s))) ∧
  ((s.rif.master = true → m.dest ≠ 253 ∧ ¬Named s m.dest) →
    (s.rif.master = false → s.rif.addr = 0 ∨ m.dest ≠ s.rif.addr) → leaves (sentAlong m s))

/-! ## What a settlement of the zones may touch -/

/-- What stands in the outbound queue and among the deferred replies stays, and nothing is added while no
capture is in flight (R142). -/
structure QueuesKept (s t : State) : Prop where
  out     : s.outbound <+: t.outbound
  held    : s.deferred <+: t.deferred
  quiet   : s.capture = none →
    t.capture = none ∧ t.outbound = s.outbound ∧ t.deferred = s.deferred

/-- From `s` to `t` only what offers, removals, refills and hand-overs act on may differ: claim lists,
outputs, listener counts and what they start and stop, the standby pool, reports, the alarm lock, and a
capture in flight with the reply of its abort (R80–R90, R142). -/
structure OnlyZones (s t : State) : Prop where
  frame : t = { s with
    lists := t.lists, outs := t.outs, cads := t.cads, chans := t.chans, serving := t.serving
    phraseMissing := t.phraseMissing, reports := t.reports, reportOverflow := t.reportOverflow
    alarmLock := t.alarmLock, capture := t.capture, outbound := t.outbound
    deferred := t.deferred }
  queues : QueuesKept s t

/-- As `OnlyZones`, with the Activation List and ACTIVATION OVERFLOW beside them: what the Cause Unit
and the Stage Timer Bank act on (chapters 2 and 4). -/
structure OnlyCauses (s t : State) : Prop where
  frame : t = { s with
    acts := t.acts, overflow := t.overflow
    lists := t.lists, outs := t.outs, cads := t.cads, chans := t.chans, serving := t.serving
    phraseMissing := t.phraseMissing, reports := t.reports, reportOverflow := t.reportOverflow
    alarmLock := t.alarmLock, capture := t.capture, outbound := t.outbound
    deferred := t.deferred }
  queues : QueuesKept s t

/-- As `OnlyZones`, with the warden's record and the messages of its slot beside it (chapter 8). -/
structure OnlyWarden (s t : State) : Prop where
  frame : t = { s with
    warden := t.warden
    lists := t.lists, outs := t.outs, cads := t.cads, chans := t.chans, serving := t.serving
    phraseMissing := t.phraseMissing, reports := t.reports, reportOverflow := t.reportOverflow
    alarmLock := t.alarmLock, capture := t.capture, outbound := t.outbound
    deferred := t.deferred }
  out   : s.outbound <+: t.outbound

/-! ## Invariants -/

/-- The alarm lock is set while the Activation List is non-empty or an alarm-band claim is held, and
clear otherwise (R199). -/
def LockAgrees (s : State) : Prop := s.alarmLock = lockCondition s

/-- Every zone's claim list is in order. -/
def ListsOk (s : State) : Prop := ∀ z : Zone, ListOk s.lists[z]

/-- The return record that a message of the node's own on its way out will create (R188). -/
def returnsToCome (s : State) : Nat :=
  match s.rif.tx with
  | some t => if t.own then 1 else 0
  | none => 0

/-- Every queue keeps to its size: 8 commands, 12 messages, 16 reports, 2 messages in the forward hold,
16 return records, counting that of a message on its way out, and 2 deferred replies, counting those
that a commit and a capture in flight have still to give (R182, R187, R188, R196, R197, R206). -/
def Bounded (s : State) : Prop :=
  s.cmdQueue.length ≤ Config.cmdMax ∧
  s.outbound.length + s.reserved ≤ Config.outMax ∧ s.reports.length ≤ Config.reportMax ∧
  s.rif.fwd.length ≤ Config.holdMax ∧
  s.rif.returns.length + returnsToCome s ≤ Config.returnMax ∧
  s.deferred.length + s.commit.toList.length + s.capture.toList.length ≤ 2

/-- The message store keeps its canonical form. -/
def StoreOk (s : State) : Prop := storeWf s.store = true

/-- No zone is served by both standby channels, and a FAILED channel serves none (R166, R169). -/
def OneFeed (s : State) : Prop :=
  (∀ z : Zone, s.serving[(0 : Fin 2)] = some z → s.serving[(1 : Fin 2)] ≠ some z) ∧
  ∀ k : Fin 2, s.standbyAmps[k].failed = true → s.serving[k] = none

/-- Outside LOCKED the RIF hears no slot and holds no message received, of its own or in its forward hold,
the warden holds and awaits no slot, and no capture is in flight; the load begins in BYPASS (R105, R142, R155,
R180, R203). -/
def QuietUnlessLocked (s : State) : Prop :=
  (s.rif.ring ≠ .locked →
    s.rif.heard = silentSlots ∧ s.rif.rx = none ∧ s.rif.arrived = [] ∧ s.rif.fwd = [] ∧
    s.rif.tx = none ∧ s.warden.slot = .none ∧ s.capture = none) ∧
  (s.phase = .loading → s.rif.ring = .bypass)

/-- The output record of a zone in use agrees with the zone's winner, its trim and the ring state: the
winner fields (R103), the effective source and substitution (R104) and the target (R106). -/
def OutOk (s : State) (z : Zone) : Prop :=
  s.outs[z].source = (match s.lists[z].head? with | some c => c.source | none => .none) ∧
  s.outs[z].fallback = s.lists[z].head?.bind (fun c => c.fallback) ∧
  s.outs[z].prio = s.lists[z].head?.map (fun c => c.prio) ∧
  s.outs[z].atten = s.lists[z].head?.map (fun c => c.atten) ∧
  s.outs[z].target =
    targetOf s.outs[z].source s.outs[z].prio s.outs[z].atten (spk s z).trim ∧
  (s.outs[z].effective, s.outs[z].substituted) =
    effectiveOf s.rif.ring s.outs[z].source s.outs[z].fallback

/-- Every zone's output follows its claim list; a zone not in use holds no claim and is muted, as is
every zone until the start-up load completes, before which no cause is recorded either (R6, R32, R102,
R103). -/
def OutputsFollow (s : State) : Prop :=
  (∀ z : Zone, if zoneInUse s z then OutOk s z else s.lists[z] = [] ∧ s.outs[z] = mutedOut) ∧
  (s.phase = .loading → s.acts = [] ∧ ∀ z : Zone, s.lists[z] = [] ∧ s.outs[z] = mutedOut)

/-- The listener count of each cadence and of each playout channel is the number of zones whose
effective source names it (R111, R118, R132). -/
def ListenersCounted (s : State) : Prop :=
  ∀ n : Fin 4,
    s.cads[n].listeners =
      (allZones.filter fun z => s.outs[z].effective == .tone n.val).length ∧
    s.chans[n].listeners =
      (allZones.filter fun z => s.outs[z].effective == .playout n.val).length

/-- A cadence runs while it has listeners and only then (R118), and one whose entry is not in use stands at
the start of ON with its stored on-time (R119); the channel of a DEMAND program in use whose first step is one
of R126's runs while it has listeners (R133). -/
def ListenersServed (s : State) : Prop :=
  ∀ n : Fin 4,
    (s.cads[n].running = true ↔ 0 < s.cads[n].listeners) ∧
    (s.work.cad[n].inUse = false → s.cads[n].phase = .on ∧ s.cads[n].burst = 1 ∧
      s.cads[n].remaining = s.work.cad[n].on) ∧
    (s.work.progs[n].inUse = true → s.work.progs[n].mode = .named .demand →
      (∃ p, s.work.progs[n].steps[0]? = some (.named p)) → 0 < s.chans[n].listeners →
      s.chans[n].state = .running)

/-- A running channel's program is in use, and its PHRASE step plays the phrase that the step names: the
phrase is valid, the current address lies in its extent and the samples from there to its end remain (R126,
R129); the end of a step is due only at its last sample (log entry 19). The phrase of a capture in flight is
not valid (R140). No channel runs and no capture is in flight while the tables load (R203). -/
def PhrasesPlay (s : State) : Prop :=
  (∀ n : Fin 4, s.chans[n].state = .running →
    let c := s.chans[n]
    s.work.progs[n].inUse = true ∧
    (c.kind = .phrase → ∃ (w : Nat) (p : Phrase),
      s.work.progs[n].steps[c.step]? = some (.named (.phrase w)) ∧ s.work.phrases[w]? = some p ∧
      p.valid = true ∧ p.start ≤ c.addr ∧ c.addr < p.start + p.length ∧
      c.addr + c.remaining = p.start + p.length ∧ (c.due = true → c.remaining = 1))) ∧
  (∀ c p, s.capture = some c → s.work.phrases[c.phrase]? = some p → p.valid = false) ∧
  (s.phase = .loading → (∀ n : Fin 4, s.chans[n].state ≠ .running) ∧ s.capture = none)

/-- Every program in use of the tables passes the check of R126: its mode is ONCE, REPEAT or DEMAND, and its 1
to 8 steps are GAP steps and PHRASE steps that name a phrase up to 63. -/
def ProgramsOk (t : Tables) : Prop :=
  ∀ n : Fin 4, ∃ c, EntryStands t n.val (.program t.progs[n]) c

/-- Every program in use passes the check of R126 wherever a program can come to play from: in the working
tables, in the NV copy of the Playout Programs while its check passes, and in the contents that a commit in
flight is writing; the check of the table in its step fails (R201, R202). -/
structure ProgramsStand (s : State) : Prop where
  work  : ProgramsOk s.work
  nv    : s.nvOk[(9 : Fin 12)] = true → ProgramsOk s.nv
  image : ∀ c, s.commit = some c → ProgramsOk c.image ∧ s.nvOk[c.table]? ≠ some true

end Sys2Proof.Machine
end

