-- ==== Sys2Proof/Certificates/Slice0/Obligations.lean ====
section
/-!
DEFINITION. The statements about the JD2416, for the provers. Each docstring names the rules a
statement formalises; where a clause rests on the model's own choice it names the log entry.
-/

open Sys2Proof Sys2Proof.Machine

/-! ## The machine -/

/-- A step runs the command at the front of the queue of waiting commands on the state with the queue's
rest; on an empty queue it answers the state itself (model's choice, log entries 1 and 2). -/
def Obligations.StepRunsFrontCommand : Prop :=
  (∀ (c : Instr) (rest : List Instr) (s : State), s.pending = c :: rest →
    Machine.step s = exec c { s with pending := rest }) ∧
  ∀ s : State, s.pending = [] → Machine.step s = .next s

/-- No command of the table faults or is refused, in any state, and none touches the queue of the
commands that wait (chapter 0; the table gives every row an effect, log entries 1 and 3). -/
def Obligations.EveryCommandGoesOn : Prop :=
  ∀ (c : Instr) (s : State), ∃ t : State, exec c s = .next t ∧ t.pending = s.pending

/-- The checks of the Command Engine, in their order (R198): the first that fails gives the reply, and
the command changes nothing and leaves the queue. The result of a code the router does not know is that
of UNKNOWN_COMMAND_CODE. -/
def Obligations.ChecksInOrder : Prop :=
  (∀ (q : Request) (n : Nat) (s : State), s.cmdQueue.head? = some ⟨q, .unknown n⟩ →
    mayBegin s 1 = true →
    exec (.unknownCommandCode q n) s = .next (repliedWith s q (.unknown n) .badArgument .none)) ∧
  ∀ (i : Instr) (e : Entry) (s : State), i.entry = some e → s.cmdQueue.head? = some e →
    mayBegin s 1 = true →
    ((∀ n, e.body ≠ .unknown n) →
      ((e.req.cls = 4 ∨ e.req.cls = 5) →
        exec i s = .next (repliedWith s e.req e.body .notPermitted .none)) ∧
      (e.req.cls ≠ 4 → e.req.cls ≠ 5 →
        (permits s.work.orig[e.req.cls].perms e.body = false →
          exec i s = .next (repliedWith s e.req e.body .notPermitted .none)) ∧
        (permits s.work.orig[e.req.cls].perms e.body = true →
          (bodyFits e = false →
            exec i s = .next (repliedWith s e.req e.body .badArgument .none)) ∧
          (bodyFits e = true → s.alarmLock = true →
            ((∃ t n c, e.body = .tableWrite t n c) ∨ e.body = .commit ∨
              (∃ p n ms, e.body = .capture p n ms) ∨ e.body = .slotClearAll) →
            exec i s = .next (repliedWith s e.req e.body .locked .none)))))

/-! ## Invariants -/

/-- Every step keeps the alarm lock in agreement with the Activation List and the alarm-band claims
(R199). -/
def Obligations.AlarmLockKept : Prop :=
  ∀ s t : State, LockAgrees s → Machine.step s = .next t → LockAgrees t

/-- Every step keeps every zone's claim list in order: at most 6 claims, sorted by priority and
placement time, at most one claim of each owner (R77–R79). -/
def Obligations.ClaimListsKept : Prop :=
  ∀ s t : State, ListsOk s → Machine.step s = .next t → ListsOk t

/-- Every step keeps every queue within its size (R182, R187, R188, R196, R197, R206). -/
def Obligations.QueuesBoundedKept : Prop :=
  ∀ s t : State, Bounded s → Machine.step s = .next t → Bounded t

/-- Every step keeps the message store (R123) in its canonical form (model's choice, log entry 14), and every
running channel in a program in use, with the current address of its PHRASE step in the extent of a valid
phrase, from its start up to but not including start plus length, and as many samples remaining as are left
from there (R127, R129); the phrase of a capture in flight is not valid (R140). That the end of such a step is
due at its last sample until PLAYOUT_STEP_END takes it is the model's (log entry 19). Every step also keeps the
programs in use as R126 admits them, in the working tables, in the NV copy while its check passes and in a
commit's contents, the check of the table in its step failing (R201, R202); the clause on the channels has
this as a premise, which only states that no run reaches fail. -/
def Obligations.StoreFormKept : Prop :=
  (∀ s t : State, StoreOk s → Machine.step s = .next t → StoreOk t) ∧
  (∀ s t : State, ProgramsStand s → Machine.step s = .next t → ProgramsStand t) ∧
  ∀ s t : State, OutputsFollow s → ProgramsStand s → PhrasesPlay s → Machine.step s = .next t →
    PhrasesPlay t

/-- Every step keeps the Activation List within 32 records of distinct detection zones, each record
within 16 references, a timer only on a reference at ALERT stage, and no timer at 0 (R17, R42, R58). That
the expiry of a timer's last millisecond is marked until it is taken is log entry 4. -/
def Obligations.RecordsKept : Prop :=
  ∀ s t : State, RecordsOk s → Machine.step s = .next t → RecordsOk t

/-- No step gives both standby channels to one zone, or leaves a zone with a FAILED one (R166, R169). Every
step leaves the pool as the arbiter settles it, so that a winner change of a zone whose channel holds AMP
FAILED, which gains a winner, loses it or takes another priority, has its run (R88, R167, R168): served zones
are failed zones, no channel stays FREE while one waits, none waits that outranks a served one. A zone taken
up is reported ASSIGNED or PREEMPTED, and one given up RELEASED, PREEMPTED or CHANNEL FAILED, or dropped by a
full report queue (R206); COLD_START and RESTART_EFFECT free the pool without a report (R174, R204). The
reports of expiries that a millisecond takes (log entry 4) are not said here. -/
def Obligations.OneFeedKept : Prop :=
  (∀ s t : State, OneFeed s → Machine.step s = .next t → OneFeed t) ∧
  (∀ s t : State, OneFeed s → OutputsFollow s → PoolSettled s → Machine.step s = .next t →
    PoolSettled t) ∧
  ∀ (c : Instr) (s t : State) (k : Fin 2) (z : Zone), (∀ o, c ≠ .timebaseMillisecond o) →
    exec c s = .next t →
    (t.serving[k] = some z → s.serving[k] ≠ some z →
      Told (.standbyChange k (.assigned z)) t ∨ ∃ y, Told (.standbyChange k (.preempted y z)) t) ∧
    (s.serving[k] = some z → t.serving[k] ≠ some z → (∀ b, c ≠ .coldStart b) → c ≠ .restartEffect →
      Told (.standbyChange k (.released z)) t ∨ (∃ y, Told (.standbyChange k (.preempted z y)) t) ∨
        Told (.standbyChange k (.channelFailed z)) t)

/-- Every step keeps the RIF, the warden's slot and the capture quiet outside LOCKED, where no slot of the
ring is heard (R105, R142, R155, R180). -/
def Obligations.QuietUnlessLockedKept : Prop :=
  ∀ s t : State, QuietUnlessLocked s → Machine.step s = .next t → QuietUnlessLocked t

/-- Every step keeps every zone output in agreement with the zone's winner, its trim and the ring state, and
until the start-up load completes no cause recorded, no claim held and every zone muted (R6, R32, R102–R104,
R106). Every command that changes a zone's effective source puts its current attenuation to 120, and none but
the millisecond moves it otherwise (R108, R109); what a millisecond does is said in MillisecondCounts. -/
def Obligations.OutputsFollowKept : Prop :=
  (∀ s t : State, OutputsFollow s → Machine.step s = .next t → OutputsFollow t) ∧
  ∀ (c : Instr) (s t : State) (z : Zone), (∀ o, c ≠ .timebaseMillisecond o) → exec c s = .next t →
    (t.outs[z].effective ≠ s.outs[z].effective → t.outs[z].current = 120) ∧
    (t.outs[z].current = s.outs[z].current ∨ t.outs[z].current = 120)

/-- Every step keeps the listener counts in agreement with the effective sources of the zones (R111, R118,
R132), every cadence running while it has listeners and only then (R118), one whose entry is not in use at the
start of ON with its stored on-time (R119), and the channel of a DEMAND program running while it has listeners
(R133). A rise from 0 starts a cadence in its ON phase, at its first burst, and
the channel of a DEMAND program that does not run, or of a ONCE program that is IDLE, at step 0 (R129, R136);
a fall to 0 stops a cadence. The sample times that a step begins with are those of log entry 19. Rises by the
expiries that a millisecond takes (log entry 4) are not said here. -/
def Obligations.ListenersCountedKept : Prop :=
  (∀ s t : State, ListenersCounted s → Machine.step s = .next t → ListenersCounted t) ∧
  (∀ s t : State, OutputsFollow s → ListenersCounted s → ListenersServed s →
    Machine.step s = .next t → ListenersServed t) ∧
  ∀ (c : Instr) (s t : State) (n : Fin 4), (∀ o, c ≠ .timebaseMillisecond o) → OutputsFollow s →
    ListenersCounted s → exec c s = .next t →
    (s.cads[n].listeners = 0 → 0 < t.cads[n].listeners → t.cads[n] =
      { listeners := t.cads[n].listeners, running := true, phase := .on, burst := 1
        remaining := t.work.cad[n].on }) ∧
    (0 < s.cads[n].listeners → t.cads[n].listeners = 0 → t.cads[n].running = false) ∧
    (s.chans[n].listeners = 0 → 0 < t.chans[n].listeners → s.work.progs[n].inUse = true →
      ((s.work.progs[n].mode = .named .demand ∧ s.chans[n].state ≠ .running) ∨
        (s.work.progs[n].mode = .named .once ∧ s.chans[n].state = .idle)) →
      ChanBegun t n 0 0 t.chans[n])

/-- The state after reset meets every invariant (R32, R102, R103, R119, R122, R126, R166, R195, R199). -/
def Obligations.ResetMeetsInvariants : Prop :=
  LockAgrees State.reset ∧ ListsOk State.reset ∧ Bounded State.reset ∧ StoreOk State.reset ∧
  RecordsOk State.reset ∧ OneFeed State.reset ∧ QuietUnlessLocked State.reset ∧
  OutputsFollow State.reset ∧ ListenersCounted State.reset ∧ ListenersServed State.reset ∧
  PoolSettled State.reset ∧ PhrasesPlay State.reset ∧ ProgramsStand State.reset

/-! ## Start, load and power loss -/

/-- COLD_START (R32, R74, R102, R103, R122, R158, R174, R189, R195, R203): the timebase is 0, every list,
queue and timer is empty, every zone muted, every line UNTESTED with no window end set, every health record
clear, the RIF in BYPASS with nothing to send; the message store stays, and the non-volatile copies and their
checks stay where no commit was in flight. The values that the rules do not give stand in log entries 13, 35
and 36. POWER_LOSS (R202, log entry 32): the router stops; a commit in flight ends without reply, and every
table that is not in its step keeps its non-volatile contents and its check. -/
def Obligations.ColdStartAndPowerLoss : Prop :=
  let clear (h : Health) : Health := { active := h.active, dropped := !h.active, failed := false
                                       candidate := none, run := 0, whole := true }
  (∀ (straps : BitVec 8) (s : State), ∃ t : State, exec (.coldStart straps) s = .next t ∧
    t.phase = .loading ∧ t.now = 0 ∧ t.acts = [] ∧ t.overflow = false ∧ t.hold = false ∧
    t.isoTimer = none ∧ t.isoEscalated = false ∧ (∀ z : Zone, t.lists[z] = [] ∧ t.outs[z] = mutedOut) ∧
    (∀ n : Fin 4, t.cads[n].listeners = 0 ∧ t.cads[n].running = false ∧
      (t.work.cad[n].inUse = false → t.cads[n].phase = .on ∧ t.cads[n].burst = 1 ∧
        t.cads[n].remaining = t.work.cad[n].on) ∧
      t.chans[n].state = .idle ∧ t.chans[n].listeners = 0) ∧
    (∀ n : Fin 8, t.inputs[n] = { active := false, due := none }) ∧
    t.capture = none ∧ t.phraseMissing = false ∧ t.warden = coldWarden ∧
    t.serving = Vector.replicate 2 none ∧
    (∀ (z : Zone) (l : Line), relayConnected t z l = true) ∧
    (∀ z : Zone, t.lines[z].a = { state := .untested, pulses := 0, hold := none, candidate := none
                                  run := 0, whole := true } ∧
      t.lines[z].lost = false ∧ t.amps[z] = clear s.amps[z]) ∧
    (∀ k : Fin 2, t.standbyAmps[k] = clear s.standbyAmps[k]) ∧ t.windowEnd = none ∧
    t.rif.ring = .bypass ∧ t.rif.tx = none ∧ t.rif.rx = none ∧ t.rif.arrived = [] ∧ t.rif.fwd = [] ∧
    t.rif.returns = [] ∧ t.rif.tag = 0 ∧ t.rif.lost = 0 ∧
    (∀ i : Fin 16, t.slots.entries[i].held = none ∧ t.slots.entries[i].announced = false ∧
      t.slots.entries[i].absence = 0) ∧
    t.slots.pending = .all ∧ t.cmdQueue = [] ∧ t.deferred = [] ∧ t.outbound = [] ∧
    t.reports = [] ∧ t.reportOverflow = false ∧ t.alarmLock = false ∧ t.commit = none ∧
    t.restart = none ∧ t.store = s.store ∧ t.nvOk = s.nvOk ∧
    (∀ k, (∀ c, s.commit = some c → k ≠ c.table) → tableEq k t.nv s.nv = true) ∧
    t.pins = { s.pins with straps := straps } ∧ t.pending = s.pending) ∧
  ∀ s : State, ∃ t : State, exec .powerLoss s = .next t ∧
    t = { s with phase := .off, commit := none, nv := t.nv } ∧
    ∀ k, (∀ c, s.commit = some c → k ≠ c.table) → tableEq k t.nv s.nv = true

/-- START_UP_LOAD_COMPLETE (R14, R24, R160, R174, R179, R183, R195, R201, R203, R206): each table from its
non-volatile copy where its check passes and from the factory default otherwise, TABLE INVALID for the latter,
the address and the role of R183, SEEKING, the debounce of the inputs in use and of the key, the lines of the
zones in use UNTESTED, the window clock, every cadence stopped at the start of its on-time (R119, R122; of an
entry in use the model's choice, log entry 35), and the COLD START report. -/
def Obligations.LoadCompletes : Prop :=
  let untested : LineMon := { state := .untested, pulses := 0, hold := none, candidate := none
                              run := 0, whole := true }
  let begun (h : Health) : Health := { h with dropped := !h.active, whole := true }
  ∀ s : State, s.phase = .loading → (∀ z : Zone, s.lists[z] = [] ∧ s.outs[z] = mutedOut) →
    s.warden = coldWarden → (∀ n : Fin 8, s.inputs[n] = { active := false, due := none }) →
    s.reports.length < 16 →
    ∃ t : State, exec .startUpLoadComplete s = .next t ∧ t.phase = .running ∧
      (∀ k : Fin 12, tableEq k.val t.work (if s.nvOk[k] then s.nv else Config.factory) = true ∧
        t.invalid[k] = !s.nvOk[k]) ∧
      t.defaultMode = t.work.ce.toList.all (fun e => !e.inUse) ∧
      (s.nvOk[(0 : Fin 12)] = true → t.work.node.addr ≠ 0 →
        t.rif.addr = t.work.node.addr ∧ t.rif.master = t.work.node.master) ∧
      (s.nvOk[(0 : Fin 12)] = true → t.work.node.addr = 0 →
        1 ≤ s.pins.straps.toNat → s.pins.straps.toNat ≤ 239 →
        t.rif.addr = s.pins.straps.toNat ∧ t.rif.master = t.work.node.master) ∧
      (s.nvOk[(0 : Fin 12)] = true → t.work.node.addr = 0 →
        (s.pins.straps.toNat = 0 ∨ 239 < s.pins.straps.toNat) →
        t.rif.addr = 0 ∧ t.rif.master = false) ∧
      (s.nvOk[(0 : Fin 12)] = false →
        t.rif.addr = (if 1 ≤ s.pins.straps.toNat ∧ s.pins.straps.toNat ≤ 239
          then s.pins.straps.toNat else 0) ∧
        t.rif.master = decide (s.pins.straps.toNat = 239)) ∧
      t.rif = { s.rif with ring := .seeking, since := s.now, addr := t.rif.addr
                           master := t.rif.master } ∧
      (∀ n : Fin 8, t.inputs[n] =
        { active := false
          due := if t.work.inputs[n].inUse = true ∧
              s.pins.inputHigh[n] = t.work.inputs[n].activeHigh then some (s.now + 200) else none }) ∧
      t.warden = { coldWarden with
        due := if s.pins.keyClosed = true then some (s.now + 50) else none } ∧
      t.windowEnd = some (s.now + t.work.window) ∧
      (∀ z : Zone, t.lines[z] =
        { a := untested
          b := if t.work.spk[z].inUse = true ∧ t.work.spk[z].lineCfg = .aAndB then some untested else none
          lost := false }) ∧
      t.amps = s.amps.map begun ∧ t.standbyAmps = s.standbyAmps.map begun ∧
      (∀ n : Fin 4, t.cads[n] = { s.cads[n] with
        running := false, phase := .on, burst := 1, remaining := t.work.cad[n].on }) ∧
      t.reports = s.reports ++
        [⟨.coldStart (((List.finRange 12).filter fun k => !s.nvOk[k]).map fun k => k.val) t.rif.addr,
          s.now⟩] ∧
      t = { s with
        phase := .running, work := t.work, invalid := t.invalid, defaultMode := t.defaultMode
        rif := t.rif, inputs := t.inputs, warden := t.warden, windowEnd := t.windowEnd
        cads := t.cads, lines := t.lines, amps := t.amps, standbyAmps := t.standbyAmps, reports := t.reports }

/-! ## The timebase -/

/-- TIMEBASE_MILLISECOND with no expiry outstanding (R59, R69, R108, R119, R129–R131, R150, R176, R192): the
timebase rises by 1; while hold is off stage timers fall by 1, but that a timer's last millisecond makes its
expiry due (log entry 4); the isolation timer falls, the talk timer of a press rises, the absence times of
HELD slots rise at the master, GAP and MISSING steps and the phases of running cadences in use count down.
Which oscillator milliseconds come while LOCKED is left to the sender, without the 1.5 ms of R176: that is the
model's choice (log entry 20). Unless the RIF is LOCKED, PHRASE steps give 16 samples; one that gives its last
is marked to end, and what a step at its end does not take is owed to the next (log entry 19). Every zone's
attenuation moves by at most 2 steps toward its target. Nothing else changes. -/
def Obligations.MillisecondCounts : Prop :=
  ∀ (o : MsOrigin) (s : State), s.phase ≠ .off →
    (match o with
     | .frame => s.rif.ring = .locked ∧ s.msDue = true
     | .oscillator => ¬(s.rif.ring = .locked ∧ s.msDue = true)) →
    (∀ r ∈ s.acts, ∀ f ∈ r.refs, f.due = false) →
    ∃ t : State, exec (.timebaseMillisecond o) s = .next t ∧ t.now = s.now + 1 ∧
      t.acts = (if s.hold = true then s.acts else
        s.acts.map fun r => { r with refs := r.refs.map fun f =>
          match f.timer with
          | none => f
          | some k => if k ≤ 1 then { f with due := true } else { f with timer := some (k - 1) } }) ∧
      t.isoTimer = s.isoTimer.map (fun k => k - 1) ∧
      t.warden = (if (s.warden.key = .pressed ∧ s.work.warden.enabled = true) ∨
          s.warden.fresh.isSome = true
        then { s.warden with talk := s.warden.talk.map fun k => k + 1 } else s.warden) ∧
      (∀ i : Fin 16, t.slots.entries[i] =
        if s.rif.master = true ∧ s.slots.entries[i].held.isSome = true
        then { s.slots.entries[i] with absence := s.slots.entries[i].absence + 1 }
        else s.slots.entries[i]) ∧
      (∀ n : Fin 4,
        let c := s.chans[n]
        (c.state ≠ .running → t.chans[n] = c) ∧
        (c.state = .running → c.kind ≠ .phrase → 0 < c.remaining →
          t.chans[n] = { c with remaining := c.remaining - 1 }) ∧
        (c.state = .running → (c.kind = .phrase ∨ c.remaining = 0) → s.rif.ring = .locked →
          t.chans[n] = c) ∧
        (c.state = .running → c.kind = .phrase → s.rif.ring ≠ .locked →
          (c.due = false → 16 < c.remaining →
            t.chans[n] = { c with addr := c.addr + 16, remaining := c.remaining - 16 }) ∧
          (c.due = false → 0 < c.remaining → c.remaining ≤ 16 →
            t.chans[n] = { c with addr := c.addr + (c.remaining - 1), remaining := 1, due := true
                                  owed := c.owed + (16 - c.remaining) }) ∧
          (c.due = true → t.chans[n] = { c with owed := c.owed + 16 })) ∧
        (c.state = .running → c.kind ≠ .phrase → s.rif.ring ≠ .locked → c.remaining = 0 →
          t.chans[n] = { c with late := c.late - 16, owed := c.owed + (16 - c.late) })) ∧
      (∀ n : Fin 4, t.cads[n] =
        if s.cads[n].running = true ∧ s.work.cad[n].inUse = true
        then { s.cads[n] with remaining := s.cads[n].remaining - 1 } else s.cads[n]) ∧
      (∀ z : Zone, t.outs[z] = { s.outs[z] with
        current :=
          if s.outs[z].target + 2 ≤ s.outs[z].current then s.outs[z].current - 2
          else if s.outs[z].current + 2 ≤ s.outs[z].target then s.outs[z].current + 2
          else s.outs[z].target }) ∧
      t = { s with
        now := t.now, msDue := (match o with | .frame => false | .oscillator => s.msDue)
        sampleTimes := 0, acts := t.acts, isoTimer := t.isoTimer, warden := t.warden
        slots := t.slots, chans := t.chans, cads := t.cads, outs := t.outs } ∧
      t.slots = { s.slots with entries := t.slots.entries }

/-! ## Frames -/

/-- RING_FRAME_RECEIVED at a node that is not LOCKED and not the master, its ring-out carrying no message of
its own (R105, R176, R177, R179). In BYPASS a frame passes unchanged and nothing else happens. Outside it a
valid frame goes on as received and counts toward the run of valid frames, a frame whose check fails goes on
as a void frame, and one whose marker is wrong does not go on. That the loss deadline counts from every valid
frame, that the command carries whether a gap broke the run, and that the idle fill of a void frame is one
pattern are the model's choices (log entries 22, 21 and 8). -/
def Obligations.UnlockedNodeForwards : Prop :=
  (∀ (f : Frame) (gap : Bool) (mic : Sample) (s : State), s.phase ≠ .off → s.rif.ring = .bypass →
    exec (.ringFrameReceived f gap mic) s = .next { s with rif := { s.rif with ringOut := some f } }) ∧
  ∀ (f : Frame) (gap : Bool) (mic : Sample) (s : State), s.phase ≠ .off → s.rif.ring ≠ .bypass →
    s.rif.ring ≠ .locked → s.rif.master = false → s.rif.tx = none →
    (f.marker = marker → f.check = crc16 (frameBody f) →
      exec (.ringFrameReceived f gap mic) s = .next { s with rif := { s.rif with
        run := if gap = true then 1 else min 32 (s.rif.run + 1)
        runStart := some (if gap = true then s.now else s.rif.runStart.getD s.now)
        lastOk := s.now, lossAt := s.now + 4, heard := silentSlots, ringOut := some f } }) ∧
    (f.marker = marker → f.check ≠ crc16 (frameBody f) →
      ∃ g : Frame,
        exec (.ringFrameReceived f gap mic) s = .next { s with rif := { s.rif with
          run := 0, runStart := none, heard := silentSlots, ringOut := some g } } ∧
        g.marker = f.marker ∧ g.count = f.count ∧ g.control = .void ∧ g.presence = 0#32 ∧
        g.relay = 0#32 ∧ g.slots = Vector.replicate 32 0#16 ∧ g.ctl = idleFill ∧
        g.check = crc16 (frameBody g)) ∧
    (f.marker ≠ marker →
      exec (.ringFrameReceived f gap mic) s = .next { s with rif := { s.rif with
        run := 0, runStart := none, heard := silentSlots } })

/-- RING_FRAME_RECEIVED at a LOCKED node (R154, R176–R178, R180–R182, R188). Where it is not the master, a
valid frame goes on with its marker and count, the slot that the warden holds carrying the microphone with
presence set and relay mark clear, every other slot as received, and a new frame check. Its control bytes are
those of a message in passage, or the next four bytes of the message being sent, START first; the frame with
the last of them creates the return record of a message of the node's own, 50 ms long. With nothing to send it
carries IDLE, a void frame staying VOID, and idle fill (model's reading, log entries 8 and 9). A frame whose
check fails goes on as a void frame, its marker and count as received, every presence flag, relay mark and
sample clear, idle fill and a new frame check; it is no part of any message, and the message being sent waits
for the next frame (model's choice, log entry 54). Where the return record begins is log entry 23. At every
LOCKED node START begins a message part and CONTINUE joins four bytes to it; the frame that carries the last
byte its header calls for makes it a complete message, which waits behind those already complete; IDLE, VOID,
a CONTINUE without a START, a frame in passage and a frame that is not valid leave no part. That a header of
more than 32 body bytes is no message's, and that a missing frame does not end a part, are the model's choices
(log entries 46 and 62). -/
def Obligations.HeldSlotInserted : Prop :=
  (∀ (f : Frame) (gap : Bool) (mic : Sample) (s : State), s.phase ≠ .off → s.rif.ring = .locked →
    s.rif.master = false → f.marker = marker → f.check = crc16 (frameBody f) →
    ∃ (t : State) (g : Frame), exec (.ringFrameReceived f gap mic) s = .next t ∧
      t.rif.ringOut = some g ∧ g.marker = f.marker ∧ g.count = f.count ∧
      g.check = crc16 (frameBody g) ∧
      (∀ n label, s.warden.slot = .holding n label → n < 32 →
        g.slots[n]? = some mic ∧ g.presence.getLsbD n = true ∧ g.relay.getLsbD n = false ∧
        ∀ m < 32, m ≠ n → g.slots[m]? = f.slots[m]? ∧
          g.presence.getLsbD m = f.presence.getLsbD m ∧ g.relay.getLsbD m = f.relay.getLsbD m) ∧
      ((∀ n label, s.warden.slot ≠ .holding n label) →
        g.slots = f.slots ∧ g.presence = f.presence ∧ g.relay = f.relay) ∧
      (s.rif.passing = true → f.control ≠ .idle → f.control ≠ .start →
        g.control = f.control ∧ g.ctl = f.ctl) ∧
      ((s.rif.passing = false ∨ f.control = .idle ∨ f.control = .start) →
        (∀ x, s.rif.tx = some x →
          g.control = (if x.fresh = true then .start else .continue) ∧ g.ctl = chunk x.rest ∧
          t.rif.tx = (if x.rest.length ≤ 4 then none
            else some { x with rest := x.rest.drop 4, fresh := false }) ∧
          t.rif.returns = (if x.rest.length ≤ 4 ∧ x.own = true
            then s.rif.returns ++ [⟨x.tag, s.now + 50⟩] else s.rif.returns)) ∧
        (s.rif.tx = none →
          g.control = (if f.control = .void then .void else .idle) ∧ g.ctl = idleFill ∧
          t.rif.returns = s.rif.returns))) ∧
  (∀ (f : Frame) (gap : Bool) (mic : Sample) (s : State), s.phase ≠ .off → s.rif.ring = .locked →
    s.rif.master = false → f.marker = marker → f.check ≠ crc16 (frameBody f) →
    ∃ (t : State) (g : Frame), exec (.ringFrameReceived f gap mic) s = .next t ∧
      t.rif.ringOut = some g ∧ g.marker = f.marker ∧ g.count = f.count ∧ g.control = .void ∧
      g.presence = 0#32 ∧ g.relay = 0#32 ∧ g.slots = Vector.replicate 32 0#16 ∧ g.ctl = idleFill ∧
      g.check = crc16 (frameBody g) ∧ t.rif.tx = s.rif.tx ∧ t.rif.rx = none ∧
      t.rif.arrived = s.rif.arrived ∧ t.rif.returns = s.rif.returns) ∧
  ∀ (f : Frame) (gap : Bool) (mic : Sample) (s : State), s.phase ≠ .off → s.rif.ring = .locked →
    ∃ t : State, exec (.ringFrameReceived f gap mic) s = .next t ∧
      let valid : Prop := f.marker = marker ∧ f.check = crc16 (frameBody f)
      let noPart : Prop := t.rif.rx = none ∧ t.rif.arrived = s.rif.arrived
      (¬valid → noPart ∧ t.rif.passing = s.rif.passing) ∧
      (valid →
        ((f.control = .idle ∨ f.control = .start) → t.rif.passing = false) ∧
        ((f.control = .continue ∨ f.control = .void) → t.rif.passing = s.rif.passing) ∧
        ((f.control = .idle ∨ f.control = .void ∨
          (f.control = .continue ∧ (s.rif.rx = none ∨ s.rif.passing = true))) → noPart) ∧
        (f.control = .start →
          t.rif.rx = some f.ctl.toList ∧ t.rif.arrived = s.rif.arrived) ∧
        ∀ (p : List Byte) (b : Byte), f.control = .continue → s.rif.passing = false →
          s.rif.rx = some p → (p ++ f.ctl.toList)[4]? = some b →
          (32 < b.toNat → noPart) ∧
          (b.toNat ≤ 32 → p.length + 4 < 10 + b.toNat →
            t.rif.rx = some (p ++ f.ctl.toList) ∧ t.rif.arrived = s.rif.arrived) ∧
          (b.toNat ≤ 32 → 10 + b.toNat ≤ p.length + 4 →
            t.rif.rx = none ∧ t.rif.arrived = s.rif.arrived ++ [p ++ f.ctl.toList]))

/-- RING_FRAME_RECEIVED at a LOCKED node with a capture in flight that has met no limit (R105, R129, R140):
one sample is written at the capture's position, that of its slot where the frame is valid and the presence
flag set, silence otherwise; every other address of the store reads as before; a PHRASE step comes to its next
sample, or, its last sample given, is marked to end, and then owes each sample time to the next; a silence
whose last millisecond has passed comes one sample time nearer to its end (log entry 19). Without a capture
the store is unchanged. -/
def Obligations.CaptureTakesSample : Prop :=
  ∀ (f : Frame) (gap : Bool) (mic : Sample) (s : State), s.phase ≠ .off → s.rif.ring = .locked →
    StoreOk s →
    ∃ t : State, exec (.ringFrameReceived f gap mic) s = .next t ∧
      t.sampleTimes = s.sampleTimes + 1 ∧
      (s.capture = none → t.store = s.store ∧ t.capture = none) ∧
      (∀ c p, s.capture = some c → s.work.phrases[c.phrase]? = some p → c.slot < 32 →
        c.recorded < p.capacity → c.recorded < c.maxSamples →
        t.capture = some { c with recorded := c.recorded + 1 } ∧
        (f.marker = marker → f.check = crc16 (frameBody f) →
          storeRead t.store (p.start + c.recorded) =
            if f.presence.getLsbD c.slot = true then f.slots.toList.getD c.slot 0#16 else 0#16) ∧
        (¬(f.marker = marker ∧ f.check = crc16 (frameBody f)) →
          storeRead t.store (p.start + c.recorded) = 0#16) ∧
        ∀ a, a ≠ p.start + c.recorded → storeRead t.store a = storeRead s.store a) ∧
      (∀ n : Fin 4, s.chans[n].state = .running →
        (s.chans[n].kind = .phrase → s.chans[n].due = false →
          (1 < s.chans[n].remaining → t.chans[n] = { s.chans[n] with
            addr := s.chans[n].addr + 1, remaining := s.chans[n].remaining - 1 }) ∧
          (s.chans[n].remaining = 1 → t.chans[n] = { s.chans[n] with due := true })) ∧
        (s.chans[n].kind = .phrase → s.chans[n].due = true →
          t.chans[n] = { s.chans[n] with owed := s.chans[n].owed + 1 }) ∧
        (s.chans[n].kind ≠ .phrase → 0 < s.chans[n].remaining → t.chans[n] = s.chans[n]) ∧
        (s.chans[n].kind ≠ .phrase → s.chans[n].remaining = 0 → 0 < s.chans[n].late →
          t.chans[n] = { s.chans[n] with late := s.chans[n].late - 1 }))

/-- MASTER_FRAME_ORIGINATE (R175, R177, R178): the frame carries the marker and the frame count, fresh slots
of the latest frame received with the relay mark set, every other slot cleared, and a new frame check; the
count rises by 1, from 15 back to 0. The slot that the master's own warden holds carries its microphone. The
control bytes are the next four of the message being sent, START first, the last of them creating the return
record of the node's own (R188), and with none, or outside LOCKED, IDLE and idle fill; a message in passage
is not said here. That a slot is cleared whole, sample and relay mark, where no frame has come, what the
control bytes are with nothing to send, and where the return record begins, are the model's choices (log
entries 39, 8 and 23). RING_FRAME_RECEIVED at the master outside BYPASS (R177, R178, R192): a valid frame is
kept to be carried forward, and a HELD slot that it shows present with a clear relay mark has its absence
time set back to 0; a frame that is not valid changes neither; nothing goes on to ring-out before the next
frame is originated. -/
def Obligations.MasterCarriesSlots : Prop :=
  (∀ (f : Frame) (gap : Bool) (mic : Sample) (s : State), s.phase ≠ .off → s.rif.master = true →
    s.rif.ring ≠ .bypass →
    ∃ t : State, exec (.ringFrameReceived f gap mic) s = .next t ∧
      t.rif.ringOut = s.rif.ringOut ∧ t.slots = { s.slots with entries := t.slots.entries } ∧
      (f.marker = marker → f.check = crc16 (frameBody f) → t.rif.carry = some f ∧
        ∀ i : Fin 16, t.slots.entries[i] =
          if s.slots.entries[i].held.isSome = true ∧ f.presence.getLsbD (16 + i.val) = true ∧
              f.relay.getLsbD (16 + i.val) = false
          then { s.slots.entries[i] with absence := 0 } else s.slots.entries[i]) ∧
      (¬(f.marker = marker ∧ f.check = crc16 (frameBody f)) →
        t.rif.carry = s.rif.carry ∧ t.slots = s.slots)) ∧
  ∀ (mic : Sample) (s : State), s.phase = .running → s.rif.master = true → s.rif.ring ≠ .bypass →
    ∃ (t : State) (g : Frame), exec (.masterFrameOriginate mic) s = .next t ∧
      t.rif.ringOut = some g ∧ g.marker = (71#8, 209#8) ∧ g.count = s.rif.count ∧
      g.check = crc16 (frameBody g) ∧ t.rif.count = s.rif.count + 1#4 ∧ t.rif.carry = none ∧
      t = { s with rif := t.rif } ∧
      (∀ m < 32, (∀ label, s.warden.slot ≠ .holding m label) →
        (∀ f, s.rif.carry = some f → f.presence.getLsbD m = true → f.relay.getLsbD m = false →
          g.slots[m]? = f.slots[m]? ∧ g.presence.getLsbD m = true ∧ g.relay.getLsbD m = true) ∧
        ((∀ f, s.rif.carry = some f → f.presence.getLsbD m = false ∨ f.relay.getLsbD m = true) →
          g.slots[m]? = some 0#16 ∧ g.presence.getLsbD m = false ∧ g.relay.getLsbD m = false)) ∧
      (∀ x, s.rif.ring = .locked → s.rif.passing = false → s.rif.tx = some x →
        g.control = (if x.fresh = true then .start else .continue) ∧ g.ctl = chunk x.rest ∧
        t.rif.tx = (if x.rest.length ≤ 4 then none
          else some { x with rest := x.rest.drop 4, fresh := false }) ∧
        t.rif.returns = (if x.rest.length ≤ 4 ∧ x.own = true
          then s.rif.returns ++ [⟨x.tag, s.now + 50⟩] else s.rif.returns)) ∧
      (s.rif.tx = none → t.rif.returns = s.rif.returns) ∧
      ((s.rif.ring ≠ .locked ∨ (s.rif.passing = false ∧ s.rif.tx = none)) →
        g.control = .idle ∧ g.ctl = idleFill) ∧
      ∀ n label, s.warden.slot = .holding n label → n < 32 → s.rif.ring = .locked →
        g.slots[n]? = some mic ∧ g.presence.getLsbD n = true ∧ g.relay.getLsbD n = false

/-! ## Messages -/

/-- RING_MESSAGE_COMPLETE for a COMMAND of the command queue (R182, R184–R186, R196): a node that the
destination names enters it with its whole message, acknowledged TAKEN, or, where 8 are held, does not enter
it, acknowledged FULL; a node that it does not name only sends it on. A message of the node's own is stripped
instead of sent on. A message of any kind that fails one of the three checks, and one that finds two in the
forward hold, goes no further and is not taken; bytes that fail one of them are discarded whatever message
the command names; with no message received there is none to act on. That a message which finds two in the
hold is discarded even where it would be stripped, and that bytes which more than one content can spell are
read as the command says, and that a byte 7 which no flags spell and a byte 2 without a kind fail the checks,
are the model's choices (log entries 24, 63 and 64). -/
def Obligations.CommandEntersQueue : Prop :=
  (∀ (s : State) (m : Message) (formOk : Bool) (b : CmdBody), m.content = .command formOk b →
    (∀ n, b ≠ .slotRequest n) → (∀ l, b ≠ .slotRelease l) → Arrives s m →
    (((m.dest = 253 ∧ s.rif.master = true) ∨ Named s m.dest) →
      (s.cmdQueue.length < 8 →
        exec (.ringMessageComplete m) s = .next (sentAlong (withTaken m)
          { s with cmdQueue := s.cmdQueue ++ [⟨⟨m.origin, m.cls, m.tag, formOk⟩, b⟩] })) ∧
      (8 ≤ s.cmdQueue.length →
        exec (.ringMessageComplete m) s = .next (sentAlong (withFull m) s))) ∧
    (¬Named s m.dest → (m.dest = 253 → s.rif.master = false) →
      exec (.ringMessageComplete m) s = .next (sentAlong m s))) ∧
  ∀ (s : State) (m : Message),
    (Received s m →
      (m.check ≠ messageCheck m ∨ m.taken = m.takenBar ∨ m.full = m.fullBar ∨ 255 ≤ m.hops ∨
        2 ≤ s.rif.fwd.length) →
      exec (.ringMessageComplete m) s = .next (actedOn s)) ∧
    (∀ (bs : List Byte) (rest : List (List Byte)) (n : Byte), s.phase = .running →
      s.rif.ring = .locked → s.rif.arrived = bs :: rest → bs[4]? = some n →
      10 + n.toNat ≤ bs.length → m.body.length ≤ 32 →
      ((bs.drop (8 + n.toNat)).take 2 ≠
          bytes16 (crc16 (bs.take 6 ++ (bs.drop 8).take n.toNat)) ∨
        bs[6]? = some 255#8 ∨
        (∀ a b v, bs[7]? ≠ some (Config.unionByte a (!a) b (!b) v)) ∨
        ∀ (k : MsgKind) (c : Byte), bs[2]? = some c → c.extractLsb' 3 2 ≠ Config.kindBits k) →
      exec (.ringMessageComplete m) s = .next (actedOn s)) ∧
    (s.rif.arrived = [] → exec (.ringMessageComplete m) s = .next s)

/-- RING_MESSAGE_COMPLETE for a SLOT REQUEST to the master (R185, R190): BAD COUNT for a count of 0 or above
4; the lowest-numbered FREE, announced slots under the lowest one's number as label where there are enough,
with the free count that is left; DENIED with the free count otherwise. A node that is not the master, named
by its own address, answers NOT MASTER (R184); at either, without room in the outbound queue for the answer,
nothing is settled and the acknowledgement is FULL; a node that does not take it only sends it on. That the
form of the body plays no part here is the model's choice (log entry 27). -/
def Obligations.SlotRequestSettled : Prop :=
  ∀ (s : State) (m : Message) (formOk : Bool) (n : Nat), m.content = .command formOk (.slotRequest n) →
    Arrives s m →
    let q : Request := ⟨m.origin, m.cls, m.tag, formOk⟩
    let free := (List.finRange 16).filter fun i =>
      s.slots.entries[i].held.isNone && s.slots.entries[i].announced
    (s.rif.master = true → (m.dest = 253 ∨ Named s m.dest) → 0 < s.room →
      ((n = 0 ∨ 4 < n) → exec (.ringMessageComplete m) s = .next (sentAlong (withTaken m)
        (place (replyMsg q .slotRequest .badCount .none) s))) ∧
      (1 ≤ n → n ≤ 4 → free.length < n → exec (.ringMessageComplete m) s = .next
        (sentAlong (withTaken m)
          (place (replyMsg q .slotRequest .denied (.freeCount free.length)) s))) ∧
      (∀ i rest, 1 ≤ n → n ≤ 4 → n ≤ free.length → free.take n = i :: rest →
        ∃ t : State, exec (.ringMessageComplete m) s = .next t ∧
          t = sentAlong (withTaken m) (place
            (replyMsg q .slotRequest .granted (.granted ((free.take n).map fun j => 16 + j.val)
              (16 + i.val) (free.length - n)))
            { s with slots := { s.slots with entries := t.slots.entries } }) ∧
          ∀ j : Fin 16, t.slots.entries[j] =
            if j ∈ free.take n
            then { held := some (16 + i.val, m.origin), announced := false, absence := 0
                   freedFrom := none }
            else s.slots.entries[j])) ∧
    SlotNotSettled s m q .slotRequest

/-- RING_MESSAGE_COMPLETE for a SLOT RELEASE (R185, R190, R191). At the master the slots HELD under the label,
all of them the origin's, become FREE and announced with absence time 0, answered DONE; HELD by another they
stay, answered NOT HOLDER; none HELD under the label, nothing changes, answered DONE. No notice is placed. A
node that is not the master, named by its own address, answers NOT MASTER (R184); at either, without room in
the outbound queue for the answer, nothing is settled and the acknowledgement is FULL; a node that does not
take it only sends it on. That the form of the body plays no part here is the model's choice (log entry 27).
-/
def Obligations.SlotReleaseSettled : Prop :=
  ∀ (s : State) (m : Message) (formOk : Bool) (l : Nat), m.content = .command formOk (.slotRelease l) →
    Arrives s m →
    let q : Request := ⟨m.origin, m.cls, m.tag, formOk⟩
    let under (i : Fin 16) : Prop := ∃ h, s.slots.entries[i].held = some (l, h)
    (s.rif.master = true → (m.dest = 253 ∨ Named s m.dest) → 0 < s.room →
      ((∃ i, under i) → (∀ i, under i → s.slots.entries[i].held = some (l, m.origin)) →
        ∃ t : State, exec (.ringMessageComplete m) s = .next t ∧
          t = sentAlong (withTaken m) (place (replyMsg q .slotRelease .done .none)
            { s with slots := { s.slots with entries := t.slots.entries } }) ∧
          ∀ i : Fin 16,
            (under i → t.slots.entries[i].held = none ∧ t.slots.entries[i].announced = true ∧
              t.slots.entries[i].absence = 0) ∧
            (¬under i → t.slots.entries[i] = s.slots.entries[i])) ∧
      ((∃ (i : Fin 16) (h : Nat), s.slots.entries[i].held = some (l, h) ∧ h ≠ m.origin) →
        exec (.ringMessageComplete m) s = .next (sentAlong (withTaken m)
          (place (replyMsg q .slotRelease .notHolder .none) s))) ∧
      ((∀ i, ¬under i) →
        exec (.ringMessageComplete m) s = .next (sentAlong (withTaken m)
          (place (replyMsg q .slotRelease .done .none) s)))) ∧
    SlotNotSettled s m q .slotRelease

/-- R194: a SLOTS CLEARED notice taken by a router. Where it names the label of the slot the warden holds, or
carries ALL, the insertion stops, WARDEN LOCAL ONLY is queued and the press is marked as one for which no new
request is made (R154); otherwise nothing changes; the notice is acknowledged TAKEN in every case. -/
def Obligations.NoticeTaken : Prop :=
  ∀ (s : State) (m : Message) (c : Cleared), m.content = .notice (.slotsCleared c) → Arrives s m →
    Named s m.dest →
    (∀ n l, s.warden.slot = .holding n l → (c = .all ∨ ∃ ls, c = .labels ls ∧ l ∈ ls) →
      exec (.ringMessageComplete m) s = .next (sentAlong (withTaken m)
        (report (.wardenLocalOnly (.cleared n l))
          { s with warden := { s.warden with slot := .none, cleared := true } }))) ∧
    (∀ n l, s.warden.slot = .holding n l → (∃ ls, c = .labels ls ∧ l ∉ ls) →
      exec (.ringMessageComplete m) s = .next (sentAlong (withTaken m) s)) ∧
    ((∀ n l, s.warden.slot ≠ .holding n l) →
      exec (.ringMessageComplete m) s = .next (sentAlong (withTaken m) s))

/-- RING_MESSAGE_COMPLETE for a message that this node does not take, or takes to no effect (R153, R182, R184,
R185, R194): a REPORT of any node, a REPLY for another node and a NOTICE that does not name this node go on as
they are, the union unchanged; a REPLY to this node that is no answer to a SLOT REQUEST, and a NOTICE of
another code that names it, go on acknowledged TAKEN; nothing else changes. One that has returned to its origin
is stripped in place of being sent on (R186), as shown for a report: its return record goes. That an answer to
a SLOT REQUEST without a slot or a count changes nothing is the model's choice (log entry 74).
RETURN_RECORD_EXPIRY (R188): the first record whose deadline is reached goes, and the lost-message count rises
by 1, up to 255. -/
def Obligations.ReturnRecordsSettled : Prop :=
  (∀ (s : State) (m : Message) (r : Report), m.content = .report r →
    Arrives s m → m.origin = s.rif.addr →
    exec (.ringMessageComplete m) s = .next { s with rif := { s.rif with
      arrived := s.rif.arrived.tail, returns := s.rif.returns.eraseP fun x => x.tag == m.tag } }) ∧
  (∀ (s : State) (m : Message), Arrives s m →
    let leaves (m' : Message) : Prop := exec (.ringMessageComplete m) s = .next (sentAlong m' s)
    let own : Prop := s.rif.addr ≠ 0 ∧ m.dest = s.rif.addr
    (((∃ r, m.content = .report r) ∨ ∃ n, m.content = .foreignReport n) → leaves m) ∧
    (((∃ r, m.content = .reply r) ∨ ∃ n, m.content = .foreignReply n) → ¬own → leaves m) ∧
    (((∃ r, m.content = .reply r ∧ NoAnswer r) ∨ ∃ n, m.content = .foreignReply n) → own →
      leaves (withTaken m)) ∧
    (∀ c, m.content = .notice c → ¬Named s m.dest → leaves m) ∧
    (∀ n, m.content = .notice (.other n) → Named s m.dest → leaves (withTaken m))) ∧
  ∀ (s : State) (a b : List ReturnRec) (x : ReturnRec), s.phase = .running →
    s.rif.returns = a ++ x :: b → (∀ y ∈ a, s.now < y.deadline) → x.deadline ≤ s.now →
    exec .returnRecordExpiry s = .next { s with rif := { s.rif with
      returns := a ++ b, lost := min 255 (s.rif.lost + 1) } }

/-- FORWARD_HOLD_SEND (R182): the first message of the hold begins, its hops raised by 1. INSERTION_BEGIN
(R187, R206): with the hold empty and fewer than 16 return records, the oldest message of the outbound queue
begins, or, where that is empty, the oldest report, addressed to the report address as it stands; each takes
the node's next tag, class 4, hops 0 and an empty union, with the body of its content and the message check
over it (R181). That the next tag is the one held, before it is raised, that the last three bits of header
byte 2 and the four of byte 7 beside the flags are the same in every message, and the form of a body are the
model's choices (log entries 59, 44, 64 and 6). -/
def Obligations.SendingBegins : Prop :=
  ∀ s : State, s.phase = .running → s.rif.ring = .locked → s.rif.tx = none → s.rif.passing = false →
    (∀ m rest, s.rif.fwd = m :: rest →
      exec .forwardHoldSend s = .next { s with rif := { s.rif with
        fwd := rest
        tx := some { tag := m.tag, own := false, fresh := true, begun := s.now
                     rest := messageBytes { m with hops := m.hops + 1 } } } }) ∧
    (s.rif.fwd = [] → s.rif.returns.length < 16 →
      let own (o : OutMsg) : Rif := { s.rif with
        tag := (s.rif.tag + 1) % 256
        tx := some { tag := s.rif.tag, own := true, fresh := true, begun := s.now
                     rest := messageBytes (sealMessage
                       { dest := o.dest, origin := s.rif.addr, cls := 4, low := Config.lowBits
                         content := o.content, tag := s.rif.tag, hops := 0
                         taken := false, takenBar := true, full := false, fullBar := true
                         spare := Config.spareBits
                         body := (bodyOf o.content).getD [], check := 0#16 }) } }
      (∀ o rest, s.outbound = o :: rest →
        exec .insertionBegin s = .next { s with outbound := rest, rif := own o }) ∧
      (∀ r rest, s.outbound = [] → s.reports = r :: rest →
        exec .insertionBegin s = .next { s with
          reports := rest, rif := own { dest := s.work.node.report, content := .report r } }))

/-! ## Ring states -/

/-- RING_LOCK and ISOLATED_RELOCK (R104, R110, R152, R153, R155, R157, R179, R180): the 32nd consecutive valid
frame in SEEKING or LOST, or 1,000 ms of uninterrupted valid frames in ISOLATED, lock the node; every zone in
use plays its winner's own source again; a key still pressed, its press taken while enabled, has its slot
requested, and a press taken while not enabled requests none; the departure from ISOLATED ends the isolation
timer and condition and reports the length of the isolation. A zone whose effective source changes fades in
from 120, and its output is otherwise as before (R109). A request without room in the outbound queue is not
sent, and WARDEN LOCAL ONLY with NO ROOM is the last report, or dropped by a full report queue (R206). No
request is made for a press whose slot was cleared (R154). That this holds at a relock too, against R155, and
that ISOLATION LEFT stands before the other reports of the relock, are the model's choices (log entries 57 and
42). -/
def Obligations.RingLocks : Prop :=
  let relocked (s t : State) : Prop :=
    t.lists = s.lists ∧ t.alarmLock = s.alarmLock ∧ t.capture = s.capture ∧
    (∀ z : Zone, s.work.spk[z].inUse = true →
      t.outs[z].effective = s.outs[z].source ∧ t.outs[z].substituted = false) ∧
    (∀ z : Zone, RingSettled s t z) ∧
    (s.warden.slot = .none → s.warden.key = .pressed → s.warden.talk ≠ none →
      s.work.warden.enabled = true → s.work.warden.announce = true → s.warden.cleared = false →
      (0 < s.room → t.warden.slot = .requested (s.now + 100) ∧
        t.outbound = s.outbound ++ [{ dest := 253, content := .command true (.slotRequest 1) }]) ∧
      (s.room = 0 → t.warden = s.warden ∧ t.outbound = s.outbound ∧
        ToldLast (.wardenLocalOnly .noRoom) t)) ∧
    (s.warden.slot = .none →
      (s.warden.key ≠ .pressed ∨ s.warden.talk = none ∨ s.work.warden.enabled = false ∨
        s.work.warden.announce = false ∨ s.warden.cleared = true) →
      t.warden = s.warden ∧ t.outbound = s.outbound)
  (∀ s : State, s.phase = .running → (s.rif.ring = .seeking ∨ s.rif.ring = .lost) → 32 ≤ s.rif.run →
    ∃ t : State, exec .ringLock s = .next t ∧ relocked s t ∧
      OnlyWarden { s with rif := { s.rif with
        ring := .locked, since := s.now, passing := true, rx := none, arrived := [] } } t) ∧
  ∀ (s : State) (r : Nat), s.phase = .running → s.rif.ring = .isolated → s.rif.runStart = some r →
    r + 1000 ≤ s.now → s.now ≤ s.rif.lastOk + 1 → s.reports.length < 16 →
    ∃ t : State, exec .isolatedRelock s = .next t ∧ relocked s t ∧
      OnlyWarden { s with
        isoTimer := none, isoEscalated := false
        rif := { s.rif with
          ring := .locked, since := s.now, passing := true, rx := none, arrived := [] } } t ∧
      s.reports ++ [⟨.isolationLeft (s.now - s.rif.since), s.now⟩] <+: t.reports

/-- RING_LOSS (R142, R155, R179, R180, R188): 4 ms without a valid frame in LOCKED. The RIF enters LOST,
drops its insertion, its forward hold and the message part it receives, and keeps the return record of an
abandoned message of its own; the warden's slot becomes NONE; a capture in flight is aborted; claims stand,
and where the outputs followed no zone's output, cadence or channel changes (R104, R110). That the run of
valid frames begins anew, that a frame millisecond still due is dropped and that the frames since the last
millisecond are counted anew are the model's choices (log entries 22, 20 and 19). -/
def Obligations.RingLost : Prop :=
  ∀ s : State, s.phase = .running → s.rif.ring = .locked → s.rif.lossAt ≤ s.now →
    ∃ t : State, exec .ringLoss s = .next t ∧
      t.rif = { s.rif with
        ring := .lost, since := s.now, run := 0, runStart := none, heard := silentSlots, rx := none
        arrived := [], passing := false, fwd := [], tx := none
        returns := s.rif.returns ++ (match s.rif.tx with
          | some x => if x.own = true then [⟨x.tag, x.begun + 50⟩] else []
          | none => []) } ∧
      t.warden = { s.warden with slot := .none } ∧ t.capture = none ∧ t.lists = s.lists ∧
      (∀ z : Zone, RingSettled s t z) ∧
      (OutputsFollow s → t.outs = s.outs ∧ t.cads = s.cads ∧ t.chans = s.chans ∧
        t.phraseMissing = s.phraseMissing ∧ t.reports = s.reports ∧
        t.reportOverflow = s.reportOverflow) ∧
      (∀ c, s.capture = some c → s.deferred = [] → 0 < s.room →
        t.outbound = s.outbound ++ [replyMsg c.requester .capture .aborted .none] ∧
        t.deferred = []) ∧
      (∀ c, s.capture = some c → (s.deferred ≠ [] ∨ s.room = 0) →
        t.outbound = s.outbound ∧
        t.deferred = s.deferred ++ [replyMsg c.requester .capture .aborted .none]) ∧
      (s.capture = none → t.outbound = s.outbound ∧ t.deferred = s.deferred) ∧
      t = { s with
        rif := t.rif, warden := t.warden, msDue := false, sampleTimes := 0, capture := none
        outs := t.outs, cads := t.cads, chans := t.chans, phraseMissing := t.phraseMissing
        reports := t.reports, reportOverflow := t.reportOverflow, outbound := t.outbound
        deferred := t.deferred }

/-- RING_ISOLATION (R69, R104, R110, R179, R180): 2,000 ms in LOST without a relock. The isolation timer
is created where the delay is not 0, ISOLATION ENTERED is queued, and every zone in use whose winner names a
ring slot and a fallback plays the fallback, fading in from 120; every other zone plays its own source, and
the outputs are otherwise as before (R109). That ISOLATION ENTERED stands before the other reports of the
entry, and that the run of valid frames begins anew at it, are the model's choices (log entries 42 and
22). -/
def Obligations.RingIsolates : Prop :=
  ∀ s : State, s.phase = .running → s.rif.ring = .lost → s.rif.since + 2000 ≤ s.now →
    s.rif.run < 32 → s.reports.length < 16 →
    ∃ t : State, exec .ringIsolation s = .next t ∧
      s.reports ++ [⟨.isolationEntered, s.now⟩] <+: t.reports ∧
      (∀ (z : Zone) (n : Nat), s.work.spk[z].inUse = true → s.outs[z].source = .ring n →
        (∀ k, s.outs[z].fallback = some (.playout k) →
          t.outs[z].effective = .playout k ∧ t.outs[z].substituted = true) ∧
        (∀ k, s.outs[z].fallback = some (.tone k) →
          t.outs[z].effective = .tone k ∧ t.outs[z].substituted = true) ∧
        (s.outs[z].fallback = none →
          t.outs[z].effective = .ring n ∧ t.outs[z].substituted = false)) ∧
      (∀ z : Zone, RingSettled s t z ∧
        (s.work.spk[z].inUse = true → (∀ n, s.outs[z].source ≠ .ring n) →
          t.outs[z].effective = s.outs[z].source ∧ t.outs[z].substituted = false)) ∧
      t = { s with
        rif := { s.rif with ring := .isolated, since := s.now, run := 0, runStart := none }
        isoTimer := if s.work.node.isoDelay = 0 then none else some (s.work.node.isoDelay * 1000)
        outs := t.outs, cads := t.cads, chans := t.chans, phraseMissing := t.phraseMissing
        reports := t.reports, reportOverflow := t.reportOverflow }

/-! ## The Slot Allocation Table and the queues -/

/-- STALE_RECLAIM (R192): every slot HELD under a label one of whose slots has been absent for 5,000 ms
becomes FREE and not announced, and the label joins the pending set. SLOTS_CLEARED_NOTICE (R193): the
pending set goes into a notice addressed to 255, and the slots it names become announced. That a notice
names the FREE slots taken from its labels, and every FREE slot under ALL, and keeps them with it is the
model's choice (log entry 28). DEFERRED_REPLY_PLACE (R197): the first deferred reply is placed as soon as
room opens. -/
def Obligations.SlotsReclaimedAndAnnounced : Prop :=
  (∀ (s : State) (l : Nat) (i : Fin 16) (h : Nat), s.phase = .running → s.rif.master = true →
    s.slots.entries[i].held = some (l, h) → 5000 ≤ s.slots.entries[i].absence →
    ∃ t : State, exec (.staleReclaim l) s = .next t ∧ t = { s with slots := t.slots } ∧
      (∀ j : Fin 16,
        ((∃ k, s.slots.entries[j].held = some (l, k)) →
          t.slots.entries[j].held = none ∧ t.slots.entries[j].announced = false ∧
          t.slots.entries[j].freedFrom = some l) ∧
        ((¬∃ k, s.slots.entries[j].held = some (l, k)) →
          t.slots.entries[j] = s.slots.entries[j])) ∧
      (s.slots.pending = .all → t.slots.pending = .all) ∧
      ∀ ls, s.slots.pending = .labels ls →
        ∃ ls', t.slots.pending = .labels ls' ∧ ∀ x, x ∈ ls' ↔ x = l ∨ x ∈ ls) ∧
  (∀ s : State, s.phase = .running → s.rif.master = true → s.rif.ring = .locked → 0 < s.room →
    s.deferred = [] → s.slots.pending ≠ .labels [] →
    let names (j : Fin 16) : Prop := s.slots.entries[j].held = none ∧
      (s.slots.pending = .all ∨
        ∃ ls l, s.slots.pending = .labels ls ∧ s.slots.entries[j].freedFrom = some l ∧ l ∈ ls)
    ∃ (t : State) (named : List (Fin 16 × Option Nat)), exec .slotsClearedNotice s = .next t ∧
      t = { s with
        slots := t.slots
        outbound := s.outbound ++ [⟨255, .notice (.slotsCleared s.slots.pending), named⟩] } ∧
      t.slots.pending = .labels [] ∧
      (∀ j l, (j, l) ∈ named ↔ names j ∧ l = s.slots.entries[j].freedFrom) ∧
      ∀ j : Fin 16,
        (names j → t.slots.entries[j] =
          { s.slots.entries[j] with announced := true, freedFrom := none }) ∧
        (¬names j → t.slots.entries[j] = s.slots.entries[j])) ∧
  ∀ (s : State) (m : OutMsg) (rest : List OutMsg), s.phase = .running → s.deferred = m :: rest →
    0 < s.room →
    exec .deferredReplyPlace s = .next { s with
      deferred := rest, outbound := s.outbound ++ [m] }

/-- SLOT_CLEAR_ALL (R193, R196): a node that is not the master answers NOT MASTER. At the master every HELD
slot becomes FREE and not announced, and its label joins the pending set; a slot that is FREE already stays as
it is. Where the node is LOCKED (the set is then empty before, or the command would wait, R187) the notice of
those labels is placed before the reply, and the slots it names become announced: the slots that were HELD, and
a FREE slot taken from one of those labels before; every other slot stays as it is. That a notice names the
FREE slots taken from its labels and keeps them with it, that the absence time stays, and that no notice is
placed where no slot was HELD, are the model's choices (log entries 28 and 60). -/
def Obligations.SlotClearAllActs : Prop :=
  (∀ (s : State) (q : Request), s.rif.master = false → Admitted s q .slotClearAll 1 →
    exec (.slotClearAll q) s = .next (repliedWith s q .slotClearAll .notMaster .none)) ∧
  ∀ (s : State) (q : Request), s.rif.master = true → Admitted s q .slotClearAll 2 →
    let former (i : Fin 16) : Option Nat := match s.slots.entries[i].held with
      | some h => some h.1
      | none => s.slots.entries[i].freedFrom
    ∃ t : State, exec (.slotClearAll q) s = .next t ∧
      (∀ i : Fin 16, t.slots.entries[i].held = none) ∧
      (s.rif.ring ≠ .locked →
        t.outbound = s.outbound ++ [replyMsg q .slotClearAll .done .none] ∧
        (∀ i : Fin 16, (s.slots.entries[i].held = none → t.slots.entries[i] = s.slots.entries[i]) ∧
          ∀ h, s.slots.entries[i].held = some h → t.slots.entries[i] =
            { s.slots.entries[i] with held := none, announced := false, freedFrom := some h.1 }) ∧
        (s.slots.pending = .all → t.slots.pending = .all) ∧
        ∀ ls, s.slots.pending = .labels ls → ∃ ls', t.slots.pending = .labels ls' ∧
          ∀ l, l ∈ ls' ↔ l ∈ ls ∨ ∃ (i : Fin 16) (h : Nat), s.slots.entries[i].held = some (l, h)) ∧
      (s.rif.ring = .locked → (∀ i : Fin 16, s.slots.entries[i].held = none) →
        t.slots = s.slots ∧
        t.outbound = s.outbound ++ [replyMsg q .slotClearAll .done .none]) ∧
      (s.rif.ring = .locked →
        (∃ (i : Fin 16) (h : Nat × Nat), s.slots.entries[i].held = some h) →
        t.slots.pending = .labels [] ∧
        ∃ (ls : List Nat) (named : List (Fin 16 × Option Nat)),
          let names (j : Fin 16) : Prop := ∃ l ∈ ls, former j = some l
          t.outbound = s.outbound ++ [⟨255, .notice (.slotsCleared (.labels ls)), named⟩,
            replyMsg q .slotClearAll .done .none] ∧
          (∀ l, l ∈ ls ↔ ∃ (i : Fin 16) (h : Nat), s.slots.entries[i].held = some (l, h)) ∧
          (∀ j l, (j, l) ∈ named ↔ names j ∧ l = former j) ∧
          ∀ j : Fin 16,
            (names j → t.slots.entries[j] =
              { s.slots.entries[j] with held := none, announced := true, freedFrom := none }) ∧
            (¬names j → t.slots.entries[j] = s.slots.entries[j])) ∧
      t = { leftQueue s with slots := t.slots, outbound := t.outbound }

/-! ## Causes -/

/-- CAUSE_ON for a detection zone without a record, with room in the list (R3, R15, R19, R20, R25, R41, R42,
R54, R71): the record is appended with its fields as the rules fix them, at once escalated while the isolation
escalated condition holds; the alarm lock is set and the reply is DONE. Outside DEFAULT MODE the merged claim
of the record, where there is one, is offered to each zone: it stands there, or was displaced or rejected with
its report (R80–R83); a zone without one gets none, and one that no reference reaches keeps its list. The
claims of other owners stay, but where they were displaced with a report (R101) or are SILENCE claims where a
claim came to EVACUATE (R84), and what is new is what that brings by its refill (R86). In DEFAULT MODE the
first record offers the OVERFLOW claim to each zone in use, and a further one changes no list. -/
def Obligations.CauseRecorded : Prop :=
  ∀ (s : State) (q : Request) (dz : Nat), dz ≤ 511 → recordOf s dz = none → s.acts.length < 32 →
    Admitted s q (.causeOn dz) 1 →
    ∃ u : State, exec (.causeOn q dz) s = .next (place (replyMsg q .causeOn .done .none) u) ∧
      OnlyCauses (leftQueue s) u ∧ Recorded s u dz q.cls q.origin none

/-- Matching, reach and merge (R36, R39, R41–R43, R45–R53). The references of a detection zone are those of
the effects of the in-use entries whose range holds it, in order of entry and effect, at EVACUATE, or at
ALERT with the delay in ms as timer, where that is not 0; a record takes the first 16. An effect reaches a
zone in use that passes its scope, its kinds, its sector filter and the class's reach. The merged claim has
the record's detection zone as owner and the source, priority, attenuation and fallback of the current-stage
template of one of its references that reach the zone, with that reference's stage; no reference that
reaches the zone with a template in use has a higher priority, and none before the chosen one has the same.
There is none only where no reference reaches the zone with a template in use. -/
def Obligations.MergeTakesHighest : Prop :=
  (∀ (t : Tables) (dz : Nat) (f : Ref), f ∈ allRefs t dz ↔
    ∃ (e : CeEntry) (x : Effect), t.ce[f.entry]? = some e ∧ e.inUse = true ∧ e.dzLo ≤ dz ∧
      dz ≤ e.dzHi ∧ e.effects[f.effect]? = some x ∧ f.due = false ∧
      (x.first = .named .alert → f.stage = .alert ∧
        f.timer = if x.delay = 0 then none else some (x.delay * 1000)) ∧
      (x.first ≠ .named .alert → f.stage = .evacuate ∧ f.timer = none)) ∧
  (∀ (t : Tables) (dz : Nat), matchRefs t dz = (allRefs t dz).take 16 ∧
    (allRefs t dz).Pairwise fun a b => a.entry < b.entry ∨ (a.entry = b.entry ∧ a.effect < b.effect)) ∧
  (∀ (t : Tables) (r : ActRecord) (f : Ref) (z : Zone), refReaches t r f z = true ↔
    ∃ (e : CeEntry) (x : Effect), t.ce[f.entry]? = some e ∧ e.effects[f.effect]? = some x ∧
      t.spk[z].inUse = true ∧
      ((∃ (lo hi : Int) (l a b : Nat), x.scope = .named (.relative lo hi) ∧ r.level = some l ∧
          t.spk[z].levelLo = some a ∧ t.spk[z].levelHi = some b ∧
          (a : Int) ≤ min 127 (max 0 (l + hi)) ∧ min 127 (max 0 (l + lo)) ≤ (b : Int)) ∨
        ∃ zs, x.scope = .named (.fixed zs) ∧ inSet zs z = true) ∧
      ((t.spk[z].kind = .named .floor ∧ x.kinds.floor = true) ∨
        (t.spk[z].kind = .named .stair ∧ x.kinds.stair = true) ∨
        (t.spk[z].kind = .named .lift ∧ x.kinds.lift = true) ∨
        (t.spk[z].kind = .named .refuge ∧ x.kinds.refuge = true)) ∧
      (x.sector = .named .any ∨ (x.sector = .named .same ∧
        ∃ c, r.sector = some c ∧ (t.spk[z].sector = 7 ∨ t.spk[z].sector = c))) ∧
      inSet t.orig[r.cls].reach z = true) ∧
  (∀ (t : Tables) (f : Ref) (m : Template), stageTemplate t f = some m ↔
    m.inUse = true ∧ ∃ (e : CeEntry) (x : Effect), t.ce[f.entry]? = some e ∧
      e.effects[f.effect]? = some x ∧
      t.templ[if f.stage = .alert then x.alert else x.evacuate]? = some m) ∧
  ∀ (t : Tables) (now : Nat) (r : ActRecord) (z : Zone),
    (∀ c, mergeClaim t now r z = some c →
      ∃ (i : Nat) (f : Ref) (m : Template), r.refs[i]? = some f ∧ refReaches t r f z = true ∧
        stageTemplate t f = some m ∧
        c = { owner := .cause r.dz, source := sourceOf m.source, fallback := fallbackOf m.fallback
              prio := m.prio, atten := m.atten, stage := some f.stage, placed := now } ∧
        ∀ j f' m', r.refs[j]? = some f' → refReaches t r f' z = true →
          stageTemplate t f' = some m' → m'.prio ≤ m.prio ∧ (j < i → m'.prio < m.prio)) ∧
    (mergeClaim t now r z = none →
      ∀ f ∈ r.refs, refReaches t r f z = true → stageTemplate t f = none)

/-- R18: a CAUSE ON above 511 is refused; one for a recorded detection zone clears the record's restored
flag and changes nothing else, from the ring, answered DONE, and from a local input alike; no written
local input in use has a detection zone above 511. -/
def Obligations.CauseRepeated : Prop :=
  (∀ (s : State) (q : Request) (dz : Nat), 511 < dz → Admitted s q (.causeOn dz) 1 →
    exec (.causeOn q dz) s = .next (repliedWith s q (.causeOn dz) .badArgument .none)) ∧
  (∀ (s : State) (q : Request) (dz : Nat) (r : ActRecord), dz ≤ 511 → recordOf s dz = some r →
    Admitted s q (.causeOn dz) 1 →
    exec (.causeOn q dz) s = .next (repliedWith
      { s with acts := s.acts.map fun x => if x.dz = dz then { x with restored := false } else x }
      q (.causeOn dz) .done .none)) ∧
  (∀ (s : State) (n : Fin 8) (d : Nat) (r : ActRecord), s.phase = .running →
    s.work.inputs[n].inUse = true → s.inputs[n].due = some d → d ≤ s.now →
    s.pins.inputHigh[n] = s.work.inputs[n].activeHigh →
    recordOf s s.work.inputs[n].dz = some r →
    exec (.localInputTaken n) s = .next { s with
      inputs := s.inputs.set n { active := true, due := none }
      acts := s.acts.map fun x =>
        if x.dz = s.work.inputs[n].dz then { x with restored := false } else x }) ∧
  ∀ (t : Tables) (i : Nat) (e e' : LocalIn), checkLocalIn t i e = some e' → e'.inUse = true →
    e'.dz ≤ 511

/-- CAUSE_ON that finds 32 records and none of its zone (R21, R23): no record is created, ACTIVATION OVERFLOW
holds, an OVERFLOW report of the zone and class is queued (or dropped by a full report queue, R206), and the
reply is DONE with the overflow indication. On entry into the state the OVERFLOW claim, built from template 0
or from its factory default, is offered to each zone in use (R80–R83): where DEFAULT MODE has brought it
already it keeps its placement time (R25, R81); the claims of other owners stay, but where one was displaced
with its report (R101); in the state already, no claim list changes. That the OVERFLOW report stands behind
those of the claim's offers is the model's choice (log entry 47). -/
def Obligations.CauseOverflows : Prop :=
  ∀ (s : State) (q : Request) (dz : Nat), dz ≤ 511 → recordOf s dz = none → 32 ≤ s.acts.length →
    Admitted s q (.causeOn dz) 1 →
    ∃ u : State, exec (.causeOn q dz) s = .next (place (replyMsg q .causeOn .done .overflowed) u) ∧
      OnlyCauses (leftQueue s) u ∧ Overflowed s u dz q.cls

/-- CAUSE_OFF (R26, R27): BAD ARGUMENT above 511; DONE and no change without a record; restored set on a
latched record; a record that is not latched goes, with every claim of its own, and with the last one
ACTIVATION OVERFLOW and every OVERFLOW claim. A zone that held none of these keeps its list. In the others
every other claim stays, but where the refill displaces it with a report (R101) or brings a cause to EVACUATE
over a SILENCE claim (R84); with the last record they stay as they are. The refill offers each record left
that holds no claim there its merged claim, and the OVERFLOW claim while its condition holds (R23, R86). A
report may be dropped by a full report queue (R206). -/
def Obligations.CauseOffActs : Prop :=
  ∀ (s : State) (q : Request) (dz : Nat), Admitted s q (.causeOff dz) 1 →
    (511 < dz → exec (.causeOff q dz) s =
      .next (repliedWith s q (.causeOff dz) .badArgument .none)) ∧
    (dz ≤ 511 → recordOf s dz = none →
      exec (.causeOff q dz) s = .next (repliedWith s q (.causeOff dz) .done .none)) ∧
    (∀ r, dz ≤ 511 → recordOf s dz = some r → r.latched = true →
      exec (.causeOff q dz) s = .next (repliedWith
        { s with acts := s.acts.map fun x => if x.dz = dz then { x with restored := true } else x }
        q (.causeOff dz) .done .none)) ∧
    ∀ r, dz ≤ 511 → recordOf s dz = some r → r.latched = false →
      ∃ u : State, exec (.causeOff q dz) s = .next (place (replyMsg q .causeOff .done .none) u) ∧
        OnlyCauses (leftQueue s) u ∧ RecordGone s u dz

/-- CAUSE_RESET and CAUSE_RESET_ALL (R26, R28, R29): the record goes whether latched or not, or every record
goes, with the claims; without a record nothing changes; BAD ARGUMENT above 511. The other claims of the zones
stay and the zones are refilled as CauseOffActs says (R84, R86, R101); with every record gone a zone that held
no cause claim and no OVERFLOW claim keeps its list, and the others take no new claim. -/
def Obligations.CauseResets : Prop :=
  (∀ (s : State) (q : Request) (dz : Nat), Admitted s q (.causeReset dz) 1 →
    (511 < dz → exec (.causeReset q dz) s =
      .next (repliedWith s q (.causeReset dz) .badArgument .none)) ∧
    (dz ≤ 511 → recordOf s dz = none →
      exec (.causeReset q dz) s = .next (repliedWith s q (.causeReset dz) .done .none)) ∧
    ∀ r, dz ≤ 511 → recordOf s dz = some r →
      ∃ u : State, exec (.causeReset q dz) s =
          .next (place (replyMsg q .causeReset .done .none) u) ∧
        OnlyCauses (leftQueue s) u ∧ RecordGone s u dz) ∧
  ∀ (s : State) (q : Request), Admitted s q .causeResetAll 1 →
    (s.acts = [] →
      exec (.causeResetAll q) s = .next (repliedWith s q .causeResetAll .done .none)) ∧
    (s.acts ≠ [] →
      ∃ u : State, exec (.causeResetAll q) s =
          .next (place (replyMsg q .causeReset .done .none) u) ∧
        OnlyCauses (leftQueue s) u ∧ u.acts = [] ∧ u.overflow = false ∧
        ∀ z : Zone,
          (∀ c ∈ u.lists[z], c.owner ≠ .overflow ∧ (∀ r ∈ s.acts, c.owner ≠ .cause r.dz) ∧
            c ∈ s.lists[z]) ∧
          ClaimsKept s.acts (fun c => c.owner == .overflow ||
            s.acts.any fun r => c.owner == .cause r.dz) s u z)

/-- LOCAL_INPUT_EDGE and KEY_EDGE (R11, R14, R146, R158): the pin takes its level. Once the load has
completed, a difference of an input in use from its taken state creates a pending change 200 ms later or
keeps the one it has, and equality removes it; the key likewise with 50 ms, but for a fresh take to come,
which only notes that the key has opened. A TABLE_WRITE of an input's entry starts its debounce over from
INACTIVE (R13). -/
def Obligations.EdgesObserved : Prop :=
  (∀ (s : State) (n : Fin 8) (high : Bool),
    let p : Pins := { s.pins with inputHigh := s.pins.inputHigh.set n high }
    (s.phase ≠ .running ∨ s.work.inputs[n].inUse = false →
      exec (.localInputEdge n high) s = .next { s with pins := p }) ∧
    (s.phase = .running → s.work.inputs[n].inUse = true →
      exec (.localInputEdge n high) s = .next { s with
        pins := p
        inputs := s.inputs.set n { s.inputs[n] with
          due :=
            if (high == s.work.inputs[n].activeHigh) = s.inputs[n].active then none
            else some (s.inputs[n].due.getD (s.now + 200)) } })) ∧
  (∀ (s : State) (closed : Bool),
    let p : Pins := { s.pins with keyClosed := closed }
    (s.phase ≠ .running → exec (.keyEdge closed) s = .next { s with pins := p }) ∧
    (s.phase = .running → s.warden.fresh = none →
      exec (.keyEdge closed) s = .next { s with
        pins := p
        warden := { s.warden with
          due := if closed = s.warden.taken then none
            else some (s.warden.due.getD (s.now + 50)) } }) ∧
    ∀ f, s.phase = .running → s.warden.fresh = some f →
      exec (.keyEdge closed) s = .next { s with
        pins := p
        warden := { s.warden with fresh := some { f with closed := f.closed && closed } } }) ∧
  ∀ (s : State) (q : Request) (n : Fin 8) (e e' : LocalIn),
    WriteTaken s q 3 n.val (.localIn e) (.localIn e') →
    writeLeaves s q 3 n.val (.localIn e) { written n.val (.localIn e') s with
      inputs := s.inputs.set n (
        { active := false
          due := if e'.inUse = true ∧ s.pins.inputHigh[n] = e'.activeHigh then some (s.now + 200)
            else none }) }

/-- LOCAL_INPUT_TAKEN (R11, R12, R19–R21, R26, R27): the taken state becomes the input's activity. ACTIVE
records the entry's detection zone with class 4, the node address in use and the entry's latch flag, its
position, references, claims and timers as for a CAUSE ON of the ring, with the other claims of every zone
kept as there (R3, R25, R54, R71, R80–R84); it finds a full list as a CAUSE ON does, with the same state,
claims and report (R23), the report behind those of the claim's offers (model's choice, log entry 47).
INACTIVE removes its record with its claims and refills the zones (R86), or sets restored where it is latched.
No reply is placed and the command queue is untouched. -/
def Obligations.LocalInputTaken : Prop :=
  ∀ (s : State) (n : Fin 8) (d : Nat), s.phase = .running → s.work.inputs[n].inUse = true →
    s.inputs[n].due = some d → d ≤ s.now →
    let e := s.work.inputs[n]
    let at' (active : Bool) : State := { s with inputs := s.inputs.set n { active := active, due := none } }
    (s.pins.inputHigh[n] = e.activeHigh → recordOf s e.dz = none →
      (s.acts.length < 32 → ∃ t : State, exec (.localInputTaken n) s = .next t ∧
        OnlyCauses (at' true) t ∧ Recorded s t e.dz 4 s.rif.addr (some e.latch)) ∧
      (32 ≤ s.acts.length → ∃ t : State, exec (.localInputTaken n) s = .next t ∧
        OnlyCauses (at' true) t ∧ Overflowed s t e.dz 4)) ∧
    (s.pins.inputHigh[n] ≠ e.activeHigh →
      (recordOf s e.dz = none → exec (.localInputTaken n) s = .next (at' false)) ∧
      (∀ r, recordOf s e.dz = some r → r.latched = true →
        exec (.localInputTaken n) s = .next { at' false with
          acts := s.acts.map fun x => if x.dz = e.dz then { x with restored := true } else x }) ∧
      ∀ r, recordOf s e.dz = some r → r.latched = false →
        ∃ t : State, exec (.localInputTaken n) s = .next t ∧ OnlyCauses (at' false) t ∧
          RecordGone s t e.dz)

/-! ## Stage timers -/

/-- STAGE_TIMER_EXPIRY (R55, R58, R60, R61, R84): the reference whose timer has come to its end becomes
EVACUATE without a timer. In a zone that it reaches, the new merge replaces the cause's claim in the same
place, or is offered where the cause held none (R80–R83); where the merge has no result the claim leaves and
the zone is refilled (R85, R86); where the merge brings the claim into EVACUATE, no SILENCE claim stays, and,
no other record calling for a refill, every other claim does. The claims of other owners stay, but where they
were displaced with a report (R101) or are such SILENCE claims. Every zone that it does not reach keeps its
list. CAUSE ESCALATED is queued last (or dropped by a full report queue, R206). That a timer at its end waits
under a mark for this step, and that the next millisecond brings it about where it has not come, are the
model's (log entry 4). -/
def Obligations.StageTimerExpires : Prop :=
  ∀ (s : State) (dz i : Nat) (r : ActRecord) (f : Ref), s.phase = .running →
    recordOf s dz = some r → r.refs[i]? = some f → f.due = true →
    let f' : Ref := { f with stage := .evacuate, timer := none, due := false }
    let r' : ActRecord := { r with refs := r.refs.set i f' }
    ∃ t : State, exec (.stageTimerExpiry dz i) s = .next t ∧ OnlyCauses s t ∧
      t.acts = s.acts.map (fun x => if x.dz = dz then r' else x) ∧ t.overflow = s.overflow ∧
      ToldLast (.causeEscalated dz f.entry f.effect) t ∧
      (∀ z : Zone, refReaches s.work r' f' z = false → t.lists[z] = s.lists[z]) ∧
      (∀ z : Zone, refReaches s.work r' f' z = true →
        let mine (d : Claim) : Bool := d.owner == .cause dz
        OthersKept t.acts mine s t z ∧
        (∀ c, mergeClaim s.work s.now r' z = some c →
          ((∃ d ∈ t.lists[z], d = { c with placed := d.placed }) ∨ Offered z c t) ∧
          ((∀ d ∈ s.lists[z], d.owner ≠ .cause dz) → Offered z c t) ∧
          ((c.stage ≠ some .evacuate ∨ ∀ d ∈ s.lists[z], ∀ k, d.owner ≠ .silence k) →
            OfferSettled z c s t)) ∧
        (mergeClaim s.work s.now r' z = none → (∀ d ∈ t.lists[z], d.owner ≠ .cause dz) ∧
          ClaimsKept t.acts mine s t z ∧ (RecordsOk s → Refilled mine s t z))) ∧
      (∀ (z : Zone) (held c : Claim), refReaches s.work r' f' z = true → s.lists[z] = [held] →
        held.owner = .cause dz → mergeClaim s.work s.now r' z = some c →
        t.lists[z] = [{ c with placed := held.placed }]) ∧
      (∀ (z : Zone) (held c : Claim), refReaches s.work r' f' z = true → ListOk s.lists[z] →
        held ∈ s.lists[z] → held.owner = .cause dz → held.stage ≠ some .evacuate →
        mergeClaim s.work s.now r' z = some c → c.stage = some .evacuate →
        (∀ d ∈ t.lists[z], ∀ k, d.owner ≠ .silence k) ∧
        (s.acts = [r] → s.overflow = false → s.defaultMode = false → ∀ d, d ∈ t.lists[z] ↔
          (d ∈ s.lists[z] ∧ d ≠ held ∧ ∀ k, d.owner ≠ .silence k) ∨
            d = { c with placed := held.placed })) ∧
      ((∀ x ∈ s.acts, ∀ j g, x.refs[j]? = some g → g.due = true → x.dz = dz ∧ j = i) →
        RecordsOk s → ∀ o, msMayComplete o s = true →
        exec (.timebaseMillisecond o) s = exec (.timebaseMillisecond o) t)

/-- ESCALATE_NOW, ESCALATE_NOW_ALL and ISOLATION_ESCALATION (R60, R61, R63, R64, R70): every stage timer of
the record, or of every record, goes and its reference becomes EVACUATE; the order of records and references
stays; a detection zone without a record changes nothing, and one above 511 is refused. A zone that no such
timer reaches keeps its list. In one that it reaches, the record's claim is its new merge, or was displaced or
rejected with a report, or is gone where the merge has no result (R55, R101); a lone claim of the record keeps
its place and time; where a claim has come to EVACUATE no SILENCE claim stays (R84); the claims of other
owners stay, but where they were displaced with a report or are such SILENCE claims. A CAUSE ESCALATED report
of each expiry is queued, in their order, until the report queue is full (R206). HOLD_STAGES and
RELEASE_STAGES (R65–R67): the hold flag is set or cleared, and no timer changes by it; a timer whose last
millisecond has passed without its expiry keeps that millisecond under the hold (log entry 4). -/
def Obligations.TimersEscalatedAndHeld : Prop :=
  let kept (r : ActRecord) : ActRecord :=
    { r with refs := r.refs.map fun f => { f with due := false } }
  (∀ (s : State) (q : Request) (dz : Nat), Admitted s q (.escalateNow dz) 1 → RecordsOk s →
    (511 < dz → exec (.escalateNow q dz) s =
      .next (repliedWith s q (.escalateNow dz) .badArgument .none)) ∧
    (dz ≤ 511 → recordOf s dz = none →
      exec (.escalateNow q dz) s = .next (repliedWith s q (.escalateNow dz) .done .none)) ∧
    (dz ≤ 511 → ∃ u : State, exec (.escalateNow q dz) s =
        .next (place (replyMsg q .escalateNow .done .none) u) ∧
      OnlyCauses (leftQueue s) u ∧ u.overflow = s.overflow ∧
      u.acts = (s.acts.map fun x => if x.dz = dz then timedOut x else x) ∧
      Escalated (s.acts.filter fun x => x.dz == dz) s u)) ∧
  (∀ (s : State) (q : Request), Admitted s q .escalateNowAll 1 → RecordsOk s →
    ∃ u : State, exec (.escalateNowAll q) s =
        .next (place (replyMsg q .escalateNow .done .none) u) ∧
      OnlyCauses (leftQueue s) u ∧ u.overflow = s.overflow ∧ u.acts = s.acts.map timedOut ∧
      Escalated s.acts s u) ∧
  (∀ s : State, s.phase = .running → s.rif.ring = .isolated → s.isoTimer = some 0 → RecordsOk s →
    ∃ t : State, exec .isolationEscalation s = .next t ∧
      OnlyCauses { s with isoTimer := none, isoEscalated := true } t ∧ t.overflow = s.overflow ∧
      t.acts = s.acts.map timedOut ∧ Escalated s.acts s t) ∧
  (∀ (s : State) (q : Request), Admitted s q .holdStages 1 →
    exec (.holdStages q) s = .next (repliedWith { s with hold := true, acts := s.acts.map kept }
      q .holdStages .done .none)) ∧
  ∀ (s : State) (q : Request), Admitted s q .releaseStages 1 →
    exec (.releaseStages q) s =
      .next (repliedWith { s with hold := false } q .releaseStages .done .none)

/-! ## Zone sets -/

/-- ZONE_SET (R80–R83, R94–R96): BAD ARGUMENT where the class's preset template is not in use. Otherwise a
zone outside the set, outside the reach or not in use keeps its list, and so does one where the command
yields and another owner's claim stands at or above the built claim's priority. A zone that the claim comes
to takes it where there is room; a full one gives up its last claim to a higher priority, reported CLAIM
DISPLACED, and otherwise keeps its list, reported CLAIM REJECTED; where it holds a COMMAND claim of the class
already, that one is replaced with its placement time kept, in its place while the priority stays. -/
def Obligations.ZoneSetPlaces : Prop :=
  ∀ (s : State) (q : Request) (zs : ZoneSet) (yield : Bool), Admitted s q (.zoneSet zs yield) 1 →
    (templateInUse s.work s.work.orig[q.cls].preset = none →
      exec (.zoneSet q zs yield) s =
        .next (repliedWith s q (.zoneSet zs yield) .badArgument .none)) ∧
    ∀ m, templateInUse s.work s.work.orig[q.cls].preset = some m → ListsOk s →
      let c : Claim := { owner := .command q.cls, source := sourceOf m.source
                         fallback := fallbackOf m.fallback, prio := m.prio, atten := m.atten
                         stage := none, placed := s.now }
      ∃ u : State, exec (.zoneSet q zs yield) s = .next (place (trimReply s q .zoneSet zs) u) ∧
        OnlyZones (leftQueue s) u ∧
        (∀ z : Zone, ¬Stays s q.cls zs z → u.lists[z] = s.lists[z]) ∧
        (∀ z : Zone, yield = true →
          (∃ d ∈ s.lists[z], d.owner ≠ .command q.cls ∧ m.prio ≤ d.prio) →
          u.lists[z] = s.lists[z]) ∧
        ∀ z : Zone, Stays s q.cls zs z →
          (yield = false ∨ ∀ d ∈ s.lists[z], d.owner ≠ .command q.cls → d.prio < m.prio) →
          OfferSettled z c s u

/-- ZONE_CLEAR and RESOUND (R85, R86, R94, R97, R99): a zone that stays after trimming keeps no COMMAND claim
of the class, or no SILENCE claim of any class; a zone that does not stay, or that holds none, keeps its list.
Where no record and no overflow calls for a refill, every other claim of the zone stays where it was; a zone
with room for all is refilled with the merged claim of each record that held none in it, and with the OVERFLOW
claim while ACTIVATION OVERFLOW holds; in any zone the other claims stay, but where the refill displaces one
with a report (R101) or brings a cause to EVACUATE over a SILENCE claim (R84), and those claims are offered. A
TABLE_WRITE of an Originator Table entry (R93) removes the class's claims where its reach or its permission
has gone, and those of the warden where the reach of class 5 has, and keeps and refills as those two do. -/
def Obligations.ZonesClearedAndResounded : Prop :=
  let cleared (zs : ZoneSet) (cls : Fin 8) (mine : Claim → Bool) (s u : State) : Prop :=
    OnlyZones (leftQueue s) u ∧
    (∀ z : Zone, ¬Stays s cls zs z → u.lists[z] = s.lists[z]) ∧
    (∀ z : Zone, (∀ c ∈ s.lists[z], mine c = false) → u.lists[z] = s.lists[z]) ∧
    (∀ z : Zone, Stays s cls zs z → ∀ c ∈ u.lists[z], mine c = false) ∧
    (s.acts = [] → s.overflow = false → ∀ z : Zone, Stays s cls zs z →
      u.lists[z] = s.lists[z].filter fun c => !mine c) ∧
    (∀ z : Zone, RecordsOk s → Stays s cls zs z → s.acts.length + s.lists[z].length ≤ 6 →
      (∃ c ∈ s.lists[z], mine c = true) →
      (∀ r ∈ s.acts, ∀ c, (∀ d ∈ s.lists[z], d.owner ≠ .cause r.dz) →
        mergeClaim s.work s.now r z = some c → c ∈ u.lists[z]) ∧
      (s.overflow = true → (∀ d ∈ s.lists[z], d.owner ≠ .overflow) → overflowClaim s ∈ u.lists[z])) ∧
    ∀ z : Zone, Stays s cls zs z →
      ClaimsKept s.acts mine s u z ∧ (RecordsOk s → Refilled mine s u z)
  (∀ (s : State) (q : Request) (zs : ZoneSet), Admitted s q (.zoneClear zs) 1 →
    ∃ u : State, exec (.zoneClear q zs) s = .next (place (trimReply s q .zoneClear zs) u) ∧
      cleared zs q.cls (fun c => c.owner == .command q.cls) s u) ∧
  (∀ (s : State) (q : Request) (zs : ZoneSet), Admitted s q (.resound zs) 1 →
    ∃ u : State, exec (.resound q zs) s = .next (place (trimReply s q .resound zs) u) ∧
      cleared zs q.cls (fun c => match c.owner with
        | .silence _ => true
        | _ => false) s u) ∧
  ∀ (s : State) (q : Request) (k : Fin 8) (e e' : OrigEntry),
    WriteTaken s q 6 k.val (.originator e) (.originator e') →
    let old := s.work.orig[k]
    let w := written k.val (.originator e') s
    ∃ u : State, writeLeaves s q 6 k.val (.originator e) u ∧ OnlyZones w u ∧
      ∀ z : Zone,
        let gone : Prop := inSet old.reach z = true ∧ inSet e'.reach z = false
        let noZone : Prop := old.perms.zone = true ∧ e'.perms.zone = false
        let noSilence : Prop := old.perms.silence = true ∧ e'.perms.silence = false
        ((gone ∨ noZone) → ∀ c ∈ u.lists[z], c.owner ≠ .command k) ∧
        ((gone ∨ noSilence) → ∀ c ∈ u.lists[z], c.owner ≠ .silence k) ∧
        (gone → k = 5 → ∀ c ∈ u.lists[z], c.owner ≠ .warden) ∧
        (¬gone → ¬noZone → ¬noSilence → u.lists[z] = s.lists[z]) ∧
        ∀ removed : Claim → Bool,
          (∀ c, removed c = true ↔
            (c.owner = .command k ∧ (gone ∨ noZone)) ∨ (c.owner = .silence k ∧ (gone ∨ noSilence)) ∨
              (c.owner = .warden ∧ gone ∧ k = 5)) →
          ClaimsKept s.acts removed w u z ∧ (RecordsOk s → Refilled removed w u z) ∧
          (s.acts = [] → s.overflow = false → u.lists[z] = s.lists[z].filter fun c => !removed c)

/-- SILENCE (R80–R83, R94, R98): each zone that stays after trimming is offered a SILENCE claim of the class
with source NONE at priority 13 and attenuation 0. One with room and no such claim takes it; a full one gives
up a last claim below 13, reported CLAIM DISPLACED (R101), and otherwise keeps its list, reported CLAIM
REJECTED; one that holds the class's SILENCE claim keeps it with its placement time, and the others in their
places. Every zone that does not stay keeps its list. -/
def Obligations.SilencePlaces : Prop :=
  ∀ (s : State) (q : Request) (zs : ZoneSet), Admitted s q (.silence zs) 1 →
    ∃ u : State, exec (.silence q zs) s = .next (place (trimReply s q .silence zs) u) ∧
      OnlyZones (leftQueue s) u ∧
      (∀ z : Zone, ¬Stays s q.cls zs z → u.lists[z] = s.lists[z]) ∧
      ∀ z : Zone, Stays s q.cls zs z → OfferSettled z
        { owner := .silence q.cls, source := .none, fallback := none, prio := 13, atten := 0
          stage := none, placed := s.now } s u

/-! ## Cadences, channels and the capture -/

/-- CADENCE_PHASE_END (R117, R119): ON is followed by OFF, the last OFF of a burst count by PAUSE, the others
by the next ON; OFF and PAUSE of length 0 are passed over; nothing else changes. A TABLE_WRITE of a cadence
puts it at the start of its on-time, running where it has listeners and stopped otherwise (R119, R121; of a
stopped one in use the model's choice, log entry 35). The audio of a zone (R105, R112, R120,
R128–R130), at its current attenuation, 120 of which is silence: the tone of a cadence in use that runs, in
its ON phase; the sample that a channel's PHRASE step has come to; the microphone; a ring slot's sample of the
frame just taken, where the frame is valid and the slot's presence flag set; silence in every other case, and
of a ring slot outside LOCKED. A standby channel carries what the zone that it serves does. That audio is what
stands at the outputs at a moment, and that a slot's sample stands until the next frame, are the model's
choices (log entries 33 and 45). -/
def Obligations.CadenceAdvances : Prop :=
  (∀ (s : State) (q : Request) (n : Fin 4) (e e' : Cadence),
    WriteTaken s q 7 n.val (.cadence e) (.cadence e') →
    writeLeaves s q 7 n.val (.cadence e) { written n.val (.cadence e') s with
      cads := s.cads.set n (
        if 0 < s.cads[n].listeners
        then { s.cads[n] with running := true, phase := .on, burst := 1, remaining := e'.on }
        else { s.cads[n] with running := false, phase := .on, burst := 1, remaining := e'.on }) }) ∧
  (∀ (s : State) (z : Zone),
    let source := s.outs[z].effective
    let audio := (zoneAudio s z).1
    (zoneAudio s z).2 = s.outs[z].current ∧
    (source = .none → audio = .silence) ∧ (source = .warden → audio = .microphone) ∧
    (∀ n : Fin 4, source = .tone n.val →
      let sounds : Prop := s.cads[n].running = true ∧ s.work.cad[n].inUse = true ∧ s.cads[n].phase = .on
      (sounds → audio = .tone s.work.cad[n].freq) ∧ (¬sounds → audio = .silence)) ∧
    (∀ n : Fin 4, source = .playout n.val →
      let plays : Prop := s.chans[n].state = .running ∧ s.chans[n].kind = .phrase
      (plays → audio = .sample (storeRead s.store s.chans[n].addr)) ∧ (¬plays → audio = .silence)) ∧
    ∀ n, source = .ring n → QuietUnlessLocked s → s.rif.ring ≠ .locked → audio = .silence) ∧
  (∀ (f : Frame) (gap : Bool) (mic : Sample) (s : State), s.phase ≠ .off → s.rif.ring = .locked →
    ∃ t : State, exec (.ringFrameReceived f gap mic) s = .next t ∧
      ∀ (z : Zone) (n : Nat), n < 32 → s.outs[z].effective = .ring n →
        (f.marker = marker → f.check = crc16 (frameBody f) → (zoneAudio t z).1 =
          if f.presence.getLsbD n = true then .sample (f.slots.toList.getD n 0#16) else .silence) ∧
        (¬(f.marker = marker ∧ f.check = crc16 (frameBody f)) → (zoneAudio t z).1 = .silence)) ∧
  (∀ (s : State) (k : Fin 2),
    (∀ z, s.standbyAmps[k].failed = false → s.serving[k] = some z →
      standbyAudio s k = some (zoneAudio s z)) ∧
    ((s.standbyAmps[k].failed = true ∨ s.serving[k] = none) → standbyAudio s k = none)) ∧
  ∀ (s : State) (n : Fin 4), s.phase = .running → s.cads[n].running = true →
    s.work.cad[n].inUse = true → s.cads[n].remaining = 0 → 0 < s.work.cad[n].on →
    let c := s.work.cad[n]
    let r := s.cads[n]
    let afterOff : CadRun :=
      if c.bursts = 0 then { r with phase := .on, remaining := c.on }
      else if r.burst < c.bursts then { r with phase := .on, burst := r.burst + 1, remaining := c.on }
      else if c.pause = 0 then { r with phase := .on, burst := 1, remaining := c.on }
      else { r with phase := .pause, remaining := c.pause }
    exec (.cadencePhaseEnd n) s = .next { s with cads := s.cads.set n (
      match r.phase with
      | .on => if c.off = 0 then afterOff else { r with phase := .off, remaining := c.off }
      | .off => afterOff
      | .pause => { r with phase := .on, burst := 1, remaining := c.on }) }

/-- PLAYOUT_STEP_END (R129–R131, R133, R135–R137), and the end of a step by a TABLE_WRITE of the phrase that
it plays (R125). A PHRASE step ends once its last sample is given, marked by the model till then, a silence
when its time has run out (log entries 4 and 19). A DEMAND channel without listeners waits; otherwise the next
step begins, step 0 again after the last but in a ONCE program, which ends with every claim that names the
channel removed. A GAP step counts its milliseconds; a PHRASE step plays its phrase from the start where the
phrase is usable, and is 500 ms of silence with PHRASE MISSING and its report otherwise. A write of a phrase
that no channel plays ends no step. Of the claims that name the channel no COMMAND, WARDEN or SILENCE claim
stays, and a CAUSE or OVERFLOW claim stands afterwards only as the refill has placed it; the others stay, but
where that refill displaces one with a report (R101) or brings a cause to EVACUATE over a SILENCE claim (R84),
and what the refill offers is in the list, displaced or rejected (R86). The sample times owed from step to
step are those of log entry 19, and the fields of a channel that waits those of log entries 30 and 35. -/
def Obligations.PlayoutStepEnds : Prop :=
  let onceLeft (s : State) (n : Fin 4) (t : State) : Prop := t.chans[n].state = .ended ∧
    ∀ z : Zone,
      ((∀ d ∈ s.lists[z], d.source ≠ .playout n.val) → t.lists[z] = s.lists[z]) ∧
      (s.acts = [] → s.overflow = false →
        t.lists[z] = s.lists[z].filter fun d => d.source != .playout n.val) ∧
      (∀ d ∈ t.lists[z], d.source = .playout n.val →
        (∃ dz, d.owner = .cause dz) ∨ d.owner = .overflow) ∧
      ClaimsKept s.acts (fun d => d.source == .playout n.val) s t z ∧
      (RecordsOk s → Refilled (fun d => d.source == .playout n.val) s t z)
  let goesOn (s : State) (n : Fin 4) (k : Nat) : Prop :=
    ¬(s.work.progs[n].mode = .named .demand ∧ s.chans[n].listeners = 0) ∧
      ((s.chans[n].step + 1 < s.work.progs[n].steps.length ∧ k = s.chans[n].step + 1) ∨
        (s.work.progs[n].steps.length ≤ s.chans[n].step + 1 ∧
          s.work.progs[n].mode ≠ .named .once ∧ k = 0))
  (∀ (s : State) (n : Fin 4), s.phase = .running → s.chans[n].state = .running →
    (s.chans[n].kind = .phrase → s.chans[n].due = true) →
    (s.chans[n].kind ≠ .phrase → s.chans[n].remaining = 0 ∧ s.chans[n].late = 0) →
    (s.work.progs[n].mode = .named .demand → s.chans[n].listeners = 0 →
      exec (.playoutStepEnd n) s = .next (stopped s n .waiting)) ∧
    (∀ k, goesOn s n k → ∃ t : State,
      exec (.playoutStepEnd n) s = .next t ∧ Begun s n k s.chans[n].owed t) ∧
    (s.work.progs[n].mode = .named .once →
      s.work.progs[n].steps.length ≤ s.chans[n].step + 1 →
      ∃ t : State, exec (.playoutStepEnd n) s = .next t ∧ OnlyZones s t ∧ onceLeft s n t)) ∧
  ∀ (s : State) (q : Request) (i : Nat) (e e' : Phrase),
    WriteTaken s q 8 i (.phrase e) (.phrase e') →
    let w := written i (.phrase e') s
    let playing (m : Fin 4) : Prop := s.chans[m].state = .running ∧ s.chans[m].kind = .phrase ∧
      s.work.progs[m].steps[s.chans[m].step]? = some (.named (.phrase i))
    ((∀ m, ¬playing m) → writeLeaves s q 8 i (.phrase e) w) ∧
    ∀ n : Fin 4, playing n → (∀ m, m ≠ n → ¬playing m) →
      (s.work.progs[n].mode = .named .demand → s.chans[n].listeners = 0 →
        writeLeaves s q 8 i (.phrase e) (stopped w n .waiting)) ∧
      (∀ k, goesOn s n k → ∃ u : State,
        writeLeaves s q 8 i (.phrase e) u ∧ Begun w n k s.chans[n].owed u) ∧
      (s.work.progs[n].mode = .named .once →
        s.work.progs[n].steps.length ≤ s.chans[n].step + 1 →
        ∃ u : State, writeLeaves s q 8 i (.phrase e) u ∧ OnlyZones w u ∧ onceLeft w n u)

/-- PLAY_START, PLAY_STOP and TABLE_WRITE of a playout program (R127, R133, R135, R136, R139): BAD ARGUMENT
above channel 3; a REPEAT or ONCE program starts at step 0, a running one stops; a program not in use, or of
mode DEMAND, is left as it is, and so is a channel already where the command would bring it. A written
program starts at step 0 where the channel was running under its mode or a DEMAND program has listeners; a
channel that is ENDED stays so under a ONCE program, and every other is IDLE. The fields of a channel that
is stopped are those of log entries 30 and 35; that a written program whose step 0 is MISSING queues its
report within the write is the model's choice (log entry 52). -/
def Obligations.PlayCommands : Prop :=
  (∀ (s : State) (q : Request) (ch : Nat), 4 ≤ ch →
    (Admitted s q (.playStart ch) 1 → exec (.playStart q ch) s =
      .next (repliedWith s q (.playStart ch) .badArgument .none)) ∧
    (Admitted s q (.playStop ch) 1 → exec (.playStop q ch) s =
      .next (repliedWith s q (.playStop ch) .badArgument .none))) ∧
  (∀ (s : State) (q : Request) (n : Fin 4),
    let p := s.work.progs[n]
    let c := s.chans[n]
    (Admitted s q (.playStart n.val) 1 →
      ((p.inUse = false ∨ p.mode = .named .demand ∨ (p.mode = .named .repeat ∧ c.state ≠ .idle) ∨
          (p.mode = .named .once ∧ c.state ≠ .idle ∧ c.state ≠ .ended)) →
        exec (.playStart q n.val) s =
          .next (repliedWith s q (.playStart n.val) .done .none)) ∧
      (p.inUse = true →
        ((p.mode = .named .repeat ∧ c.state = .idle) ∨
          (p.mode = .named .once ∧ (c.state = .idle ∨ c.state = .ended))) →
        ∃ u : State, exec (.playStart q n.val) s =
            .next (place (replyMsg q .playStart .done .none) u) ∧ Begun (leftQueue s) n 0 0 u)) ∧
    (Admitted s q (.playStop n.val) 1 →
      ((p.inUse = false ∨ p.mode = .named .demand ∨
          (p.mode = .named .repeat ∧ c.state ≠ .running) ∨
          (p.mode = .named .once ∧ c.state ≠ .running ∧ c.state ≠ .ended)) →
        exec (.playStop q n.val) s = .next (repliedWith s q (.playStop n.val) .done .none)) ∧
      (p.inUse = true →
        ((p.mode = .named .repeat ∧ c.state = .running) ∨
          (p.mode = .named .once ∧ (c.state = .running ∨ c.state = .ended))) →
        exec (.playStop q n.val) s = .next (repliedWith (stopped s n .idle) q
          (.playStop n.val) .done .none)))) ∧
  ∀ (s : State) (q : Request) (n : Fin 4) (e e' : Program),
    WriteTaken s q 9 n.val (.program e) (.program e') →
    let w := written n.val (.program e') s
    let c := s.chans[n]
    (e'.inUse = true →
      ((e'.mode = .named .demand ∧ 0 < c.listeners) ∨ (e'.mode = .named .repeat ∧ c.state = .running) ∨
        (e'.mode = .named .once ∧ c.state = .running)) →
      ∃ u : State, writeLeaves s q 9 n.val (.program e) u ∧ Begun w n 0 0 u) ∧
    (e'.inUse = true → e'.mode = .named .once → c.state = .ended →
      writeLeaves s q 9 n.val (.program e) (stopped w n .ended)) ∧
    ((e'.inUse = false ∨ (e'.mode = .named .demand ∧ c.listeners = 0) ∨
        (e'.mode = .named .repeat ∧ c.state ≠ .running) ∨
        (e'.mode = .named .once ∧ c.state ≠ .running ∧ c.state ≠ .ended)) →
      writeLeaves s q 9 n.val (.program e) (stopped w n .idle))

/-- CAPTURE (R140, R197): the refusals of the Playout Unit in their order, and otherwise the beginning of
the capture: the phrase is marked not valid, the capture record holds the requester, and no reply is
placed yet. -/
def Obligations.CaptureBegins : Prop :=
  ∀ (s : State) (q : Request) (p slot ms : Nat), Admitted s q (.capture p slot ms) 1 →
    let refused (r : Result) :=
      exec (.capture q p slot ms) s = .next (repliedWith s q (.capture p slot ms) r .none)
    ((63 < p ∨ 31 < slot ∨ ms = 0) → refused .badArgument) ∧
    (p ≤ 63 → slot ≤ 31 → 0 < ms →
      (s.capture ≠ none → refused .busy) ∧
      (s.capture = none →
        let used := ∃ n : Fin 4, s.work.progs[n].inUse = true ∧
          (s.chans[n].state = .running ∨ s.chans[n].state = .waiting) ∧
          .named (.phrase p) ∈ s.work.progs[n].steps
        (used → refused .inUse) ∧
        (¬used → ∀ ph, s.work.phrases[p]? = some ph →
          (ph.capacity = 0 → refused .badArgument) ∧
          (0 < ph.capacity → s.rif.ring ≠ .locked → refused .aborted) ∧
          (0 < ph.capacity → s.rif.ring = .locked →
            exec (.capture q p slot ms) s = .next
              { leftQueue s with
                work := { s.work with
                  phrases := s.work.phrases.setIfInBounds p { ph with valid := false } }
                capture := some { phrase := p, slot := slot, maxSamples := min ms 262144 * 16
                                  recorded := 0, requester := q } }))))

/-- CAPTURE_LIMIT and CAPTURE_STOP (R141, R197): at the phrase's capacity or the maximum of samples, or at
the command, the phrase becomes valid with the recorded length and the requester has DONE with the count,
placed where there is room and no deferred reply before it, held otherwise. CAPTURE STOP with no capture
in flight is answered DONE. -/
def Obligations.CaptureEnds : Prop :=
  (∀ (s : State) (c : Capture) (ph : Phrase), s.phase = .running → s.capture = some c →
    s.work.phrases[c.phrase]? = some ph → (ph.capacity ≤ c.recorded ∨ c.maxSamples ≤ c.recorded) →
    let m := replyMsg c.requester .capture .done (.captured c.recorded)
    let s1 := { s with
      work := { s.work with phrases := s.work.phrases.setIfInBounds c.phrase (
        { ph with length := c.recorded, valid := true }) }
      capture := none }
    (s.deferred = [] → 0 < s.room → exec .captureLimit s = .next (place m s1)) ∧
    ((s.deferred ≠ [] ∨ s.room = 0) →
      exec .captureLimit s = .next { s1 with deferred := s.deferred ++ [m] })) ∧
  ∀ (s : State) (q : Request),
    (s.capture = none → Admitted s q .captureStop 1 →
      exec (.captureStop q) s = .next (repliedWith s q .captureStop .done .none)) ∧
    ∀ c ph, s.capture = some c → s.work.phrases[c.phrase]? = some ph →
      Admitted s q .captureStop 2 →
      exec (.captureStop q) s = .next { leftQueue s with
        work := { s.work with phrases := s.work.phrases.setIfInBounds c.phrase (
          { ph with length := c.recorded, valid := true }) }
        capture := none
        outbound := s.outbound ++ [replyMsg c.requester .capture .done (.captured c.recorded),
          replyMsg q .captureStop .done .none] }

/-! ## The warden -/

/-- KEY_PRESS, and WARDEN_FRESH_TAKE with the key closed since the RESTART (R146–R148, R150, R152, R158): the
key is PRESSED; with the warden disabled the press offers, times and requests nothing. Where a fresh take
builds no claim, the warden being disabled or class 5's preset template not in use, what it finds of the press
that the RESTART interrupted goes, its talk timer and its claims (the model's reading, log entry 29); the other
claims of those zones are kept, and the zones refilled, as CauseOffActs says (R84–R86, R101). Enabled,
the talk timer starts at 0, and the claim built from class 5's preset template is offered to each in-use zone
of the reach of class 5 (R80–R83, R101): one with room takes it; a full one gives up its last claim to a
higher priority, reported CLAIM DISPLACED, and otherwise stays, reported CLAIM REJECTED; one that holds the
WARDEN claim keeps it with its placement time. Announcing to a LOCKED ring with room and no slot, a SLOT
REQUEST of 1 is placed with the deadline 100 ms later; without room none is, and WARDEN LOCAL ONLY with NO
ROOM is the last report, or dropped by a full report queue (R206); a request cancelled and still awaited
serves the new press. -/
def Obligations.PressTaken : Prop :=
  let pressed (fresh : Option FreshTake) (i : Instr) (s : State) : Prop :=
    let w : Warden := { s.warden with
      taken := true, due := none, key := .pressed, cleared := false, fresh := fresh }
    (s.work.warden.enabled = true →
      ∃ t : State, exec i s = .next t ∧ OnlyWarden s t ∧
        t.warden = { w with talk := some 0, slot := t.warden.slot } ∧
        (∀ z : Zone, inSet s.work.orig[(5 : Fin 8)].reach z = false ∨ s.work.spk[z].inUse = false →
          (templateInUse s.work s.work.orig[(5 : Fin 8)].preset ≠ none ∨
            ∀ c ∈ s.lists[z], c.owner ≠ .warden) → t.lists[z] = s.lists[z]) ∧
        (∀ (m : Template) (z : Zone),
          templateInUse s.work s.work.orig[(5 : Fin 8)].preset = some m →
          inSet s.work.orig[(5 : Fin 8)].reach z = true → s.work.spk[z].inUse = true →
          OfferSettled z { owner := .warden, source := .warden, fallback := none, prio := m.prio
                           atten := m.atten, stage := none, placed := s.now } s t) ∧
        (s.work.warden.announce = true → s.rif.ring = .locked → s.warden.slot = .none →
          0 < s.room → s.capture = none →
          t.warden.slot = .requested (s.now + 100) ∧
          t.outbound = s.outbound ++ [{ dest := 253, content := .command true (.slotRequest 1) }]) ∧
        (s.work.warden.announce = true → s.rif.ring = .locked → s.warden.slot = .none → s.room = 0 →
          t.warden.slot = .none ∧ t.outbound = s.outbound ∧
          ToldLast (.wardenLocalOnly .noRoom) t) ∧
        (∀ d, s.work.warden.announce = true → s.rif.ring = .locked →
          s.warden.slot = .cancelled d → t.warden.slot = .requested d) ∧
        ((s.work.warden.announce = false ∨ s.rif.ring ≠ .locked) →
          t.warden.slot = s.warden.slot))
  (∀ (s : State) (d : Nat), s.phase = .running → s.warden.due = some d → d ≤ s.now →
    s.pins.keyClosed = true → pressed s.warden.fresh .keyPress s ∧
      (s.work.warden.enabled = true →
        templateInUse s.work s.work.orig[(5 : Fin 8)].preset = none →
        ∃ t : State, exec .keyPress s = .next t ∧ t.lists = s.lists) ∧
      (s.work.warden.enabled = false → exec .keyPress s = .next { s with
        warden := { s.warden with
          taken := true, due := none, key := .pressed, talk := none, cleared := false } })) ∧
  ∀ (s : State) (f : FreshTake), s.phase = .running → s.warden.fresh = some f →
    f.deadline ≤ s.now → f.closed = true → s.pins.keyClosed = true →
    pressed none .wardenFreshTake s ∧
    (s.work.warden.enabled = true → templateInUse s.work s.work.orig[(5 : Fin 8)].preset = none →
      ∃ t : State, exec .wardenFreshTake s = .next t ∧ WardenGone s t) ∧
    (s.work.warden.enabled = false → ∃ t : State, exec .wardenFreshTake s = .next t ∧ OnlyWarden s t ∧
      t.warden = { s.warden with
        taken := true, due := none, key := .pressed, fresh := none, talk := none, cleared := false } ∧
      WardenGone s t)

/-- KEY_RELEASE, FORCED_RELEASE and WARDEN_FRESH_TAKE with the key opened since the RESTART (R146, R147, R149,
R150, R153, R158): the talk timer and every WARDEN claim go; a zone that held none keeps its list, and in the
others every other claim stays and the zone is refilled as CauseOffActs says (R84–R86, R101: a merged claim of
each record that holds none there, and the OVERFLOW claim while its condition holds, are offered; a claim goes
only where the refill displaces it with a report, or is a SILENCE claim as a cause comes to EVACUATE); an
awaited request is cancelled, a held slot becomes NONE with its SLOT RELEASE placed where there is room and no
capture in flight. A forced release of a key PRESSED locks it out, one before the fresh take of a RESTART
leaves the key as it is, and each is reported last (or dropped by a full report queue, R206); a release of a
key that is not PRESSED only takes the key's position. A TABLE_WRITE of Warden Settings during a press (R157)
ends it where the warden is disabled, forces the release where the new max talk is reached, and with the
announcement withdrawn gives the slot up; enabling the warden does nothing to it. That a write which disables
the warden ends the press whatever it makes of max talk is the model's choice (log entry 58). -/
def Obligations.PressEnds : Prop :=
  let ended (s t : State) : Prop :=
    t.warden.talk = none ∧ WardenGone s t ∧
    (∀ d, s.warden.slot = .requested d → t.warden.slot = .cancelled d) ∧
    (∀ n l, s.warden.slot = .holding n l → t.warden.slot = .none ∧
      (0 < s.room → s.capture = none →
        t.outbound = s.outbound ++ [{ dest := 253, content := .command true (.slotRelease l) }])) ∧
    ((s.warden.slot = .none ∨ ∃ d, s.warden.slot = .cancelled d) →
      t.warden.slot = s.warden.slot) ∧
    OnlyWarden s t
  (∀ (s : State) (d : Nat), s.phase = .running → s.warden.due = some d → d ≤ s.now →
    s.pins.keyClosed = false →
    (s.warden.key ≠ .pressed →
      exec .keyRelease s = .next { s with
        warden := { s.warden with taken := false, due := none, key := .released } }) ∧
    (s.warden.key = .pressed → ∃ t : State, exec .keyRelease s = .next t ∧ ended s t ∧
      t.warden.key = .released ∧ t.warden.taken = false ∧ t.warden.due = none)) ∧
  (∀ (s : State) (e : Nat), s.phase = .running →
    ((s.warden.key = .pressed ∧ s.work.warden.enabled = true) ∨ s.warden.fresh ≠ none) →
    s.warden.talk = some e → s.work.warden.maxTalk * 1000 ≤ e →
    ∃ t : State, exec .forcedRelease s = .next t ∧ ended s t ∧
      t.warden.key = (if s.warden.key = .pressed then .lockedOut else s.warden.key) ∧
      t.warden.fresh = s.warden.fresh ∧
      t.warden.taken = s.warden.taken ∧ t.warden.due = s.warden.due ∧
      ToldLast (.forcedRelease s.work.warden.maxTalk) t) ∧
  (∀ (s : State) (f : FreshTake), s.phase = .running → s.warden.fresh = some f →
    f.deadline ≤ s.now → (f.closed = false ∨ s.pins.keyClosed = false) →
    ∃ t : State, exec .wardenFreshTake s = .next t ∧ ended s t ∧ t.warden.fresh = none ∧
      t.warden.key = s.warden.key ∧ t.warden.taken = s.warden.taken ∧
      t.warden.due =
        if s.pins.keyClosed = s.warden.taken then none
        else some (s.warden.due.getD (s.now + 50))) ∧
  ∀ (s : State) (q : Request) (e e' : WardenSettings),
    WriteTaken s q 11 0 (.warden e) (.warden e') →
    let w := written 0 (.warden e') s
    let old := s.work.warden
    let slotGiven (x : SlotState) : State := { w with warden := { s.warden with slot := x } }
    (s.warden.key ≠ .pressed → writeLeaves s q 11 0 (.warden e) w) ∧
    (s.warden.key = .pressed →
      (old.enabled = true → e'.enabled = false →
        ∃ u : State, writeLeaves s q 11 0 (.warden e) u ∧ ended w u ∧ u.warden.key = .pressed) ∧
      (old.enabled = false → s.warden.talk = none → s.warden.slot = .none →
        writeLeaves s q 11 0 (.warden e) w) ∧
      (∀ k, old.enabled = true → e'.enabled = true → old.maxTalk ≠ e'.maxTalk →
        s.warden.talk = some k → e'.maxTalk * 1000 ≤ k →
        ∃ u : State, writeLeaves s q 11 0 (.warden e) u ∧ ended w u ∧ u.warden.key = .lockedOut ∧
          ToldLast (.forcedRelease e'.maxTalk) u) ∧
      (old.enabled = true → e'.enabled = true →
        (old.maxTalk = e'.maxTalk ∨ ∀ k, s.warden.talk = some k → k < e'.maxTalk * 1000) →
        ((old.announce = false ∨ e'.announce = true) → writeLeaves s q 11 0 (.warden e) w) ∧
        (old.announce = true → e'.announce = false →
          (∀ d, s.warden.slot = .requested d →
            writeLeaves s q 11 0 (.warden e) (slotGiven (.cancelled d))) ∧
          (∀ n l, s.warden.slot = .holding n l →
            writeLeaves s q 11 0 (.warden e) (place
              { dest := 253, content := .command true (.slotRelease l) } (slotGiven .none))) ∧
          ((s.warden.slot = .none ∨ ∃ d, s.warden.slot = .cancelled d) →
            writeLeaves s q 11 0 (.warden e) w))))

/-- SLOT_ANSWER_DEADLINE (R153): a request awaited past its deadline is given up with WARDEN LOCAL ONLY,
detail NO ANSWER; a cancelled one is given up without a report. RING_MESSAGE_COMPLETE with the answer to the
warden's SLOT REQUEST, addressed to this node (R153, R154, R184, R185): GRANTED to an awaited request makes
the slot record HOLDING the slot under its label, with WARDEN ON AIR; to a cancelled request, to none, and
under another label than the one held, the slot is given back by a SLOT RELEASE where there is room, and one
under the label held changes nothing. DENIED gives an awaited request up with WARDEN LOCAL ONLY and the free
count, and a cancelled one without a report. Each is acknowledged TAKEN. -/
def Obligations.AnswerDeadlinePasses : Prop :=
  (∀ (s : State) (d : Nat), s.phase = .running → d ≤ s.now →
    (s.warden.slot = .requested d →
      exec .slotAnswerDeadline s = .next (report (.wardenLocalOnly .noAnswer)
        { s with warden := { s.warden with slot := .none } })) ∧
    (s.warden.slot = .cancelled d →
      exec .slotAnswerDeadline s = .next { s with warden := { s.warden with slot := .none } })) ∧
  ∀ (s : State) (m : Message) (r : Reply), m.content = .reply r → r.code = .slotRequest →
    Arrives s m → s.rif.addr ≠ 0 → m.dest = s.rif.addr →
    let leaves (u : State) : Prop :=
      exec (.ringMessageComplete m) s = .next (sentAlong (withTaken m) u)
    let record (x : SlotState) : State := { s with warden := { s.warden with slot := x } }
    let given (l : Nat) (u : State) : State :=
      if 0 < s.room then place { dest := 253, content := .command true (.slotRelease l) } u else u
    (∀ n ns l free, r.result = .granted → r.data = .granted (n :: ns) l free →
      (∀ d, s.warden.slot = .requested d → leaves (report (.wardenOnAir n l) (record (.holding n l)))) ∧
      (∀ d, s.warden.slot = .cancelled d → leaves (given l (record .none))) ∧
      (s.warden.slot = .none → leaves (given l s)) ∧
      ∀ k l', s.warden.slot = .holding k l' →
        (l = l' → leaves s) ∧ (l ≠ l' → leaves (given l s))) ∧
    ∀ free, r.result = .denied → r.data = .freeCount free →
      (∀ d, s.warden.slot = .requested d →
        leaves (report (.wardenLocalOnly (.denied free)) (record .none))) ∧
      (∀ d, s.warden.slot = .cancelled d → leaves (record .none)) ∧
      ((s.warden.slot = .none ∨ ∃ k l, s.warden.slot = .holding k l) → leaves s)

/-! ## Line supervision -/

/-- PILOT_PULSE (R161): counted up to 65,535 on a measured line of a zone in use; a SHORT line, a zone
without line B and a zone not in use count nothing. HEALTH_INPUT_CHANGE (R165): the input takes its level,
and an inactive level is remembered for the window. -/
def Obligations.LineAndHealthInputs : Prop :=
  (∀ (s : State) (z : Zone), s.phase = .running → s.work.spk[z].inUse = true →
    let l := s.lines[z]
    (l.a.state ≠ .short → exec (.pilotPulse z .a) s = .next { s with lines := s.lines.set z (
      { l with a := { l.a with pulses := min 65535 (l.a.pulses + 1) } }) }) ∧
    (l.a.state = .short → exec (.pilotPulse z .a) s = .next s) ∧
    (∀ b, l.b = some b → b.state ≠ .short →
      exec (.pilotPulse z .b) s = .next { s with lines := s.lines.set z (
        { l with b := some { b with pulses := min 65535 (b.pulses + 1) } }) }) ∧
    ((l.b = none ∨ ∃ b, l.b = some b ∧ b.state = .short) →
      exec (.pilotPulse z .b) s = .next s)) ∧
  (∀ (s : State) (z : Zone) (l : Line), s.work.spk[z].inUse = false →
    exec (.pilotPulse z l) s = .next s) ∧
  (∀ (s : State) (z : Zone) (active : Bool),
    exec (.healthInputChange (.zone z) active) s = .next { s with amps := s.amps.set z (
      { s.amps[z] with active := active, dropped := s.amps[z].dropped || !active }) }) ∧
  ∀ (s : State) (k : Fin 2) (active : Bool),
    exec (.healthInputChange (.standby k) active) s =
      .next { s with standbyAmps := s.standbyAmps.set k (
        { s.standbyAmps[k] with
          active := active, dropped := s.standbyAmps[k].dropped || !active }) }

/-- WINDOW_END (R160–R170): the next window begins at the end of this one. Lines A and B of each zone in use
and all 26 amplifier channels are judged, measured over the whole window or not, and each change of state is
reported FAULT RAISED or FAULT CLEARED; a zone not in use is not evaluated. OUTPUT LOST holds where no line of
a zone is connected any more and its coming is reported. A standby channel that fails while it serves gives
up its zone. Where any failed flag has changed the arbiter runs: served zones are failed zones, no channel
stays FREE while one waits, none waits that outranks a served one, and what changed is reported. Otherwise
the standby channels serve as before. -/
def Obligations.WindowEnds : Prop :=
  ∀ (s : State) (d : Nat), s.phase = .running → s.windowEnd = some d → d ≤ s.now →
    ∃ t : State, exec .windowEnd s = .next t ∧ t.windowEnd = some (d + s.work.window) ∧
      (∀ z : Zone, s.work.spk[z].inUse = false →
        t.lines[z] = s.lines[z] ∧ t.amps[z] = s.amps[z]) ∧
      (∀ z : Zone, s.work.spk[z].inUse = true →
        let lim := s.work.limits[z]
        LineJudged lim.aLower lim.aUpper s.lines[z].a t.lines[z].a ∧
        LineTold z .a s.lines[z].a.state t.lines[z].a.state t ∧
        (s.lines[z].b = none → t.lines[z].b = none) ∧
        (∀ b, s.lines[z].b = some b → ∃ b', t.lines[z].b = some b' ∧
          LineJudged lim.bLower lim.bUpper b b' ∧ LineTold z .b b.state b'.state t) ∧
        (t.lines[z].lost = true ↔
          t.lines[z].a.state = .short ∧ ∀ b, t.lines[z].b = some b → b.state = .short) ∧
        (s.lines[z].lost = false → t.lines[z].lost = true →
          Told (.outputLost z t.lines[z].a.state (t.lines[z].b.map fun b => b.state)) t) ∧
        HealthJudged s.amps[z] t.amps[z] ∧
        HealthTold (.zone z) s.amps[z].failed t.amps[z].failed t) ∧
      (∀ k : Fin 2, HealthJudged s.standbyAmps[k] t.standbyAmps[k] ∧
        HealthTold (.standby k) s.standbyAmps[k].failed t.standbyAmps[k].failed t ∧
        ∀ z, s.serving[k] = some z → s.standbyAmps[k].failed = false →
          t.standbyAmps[k].failed = true → Told (.standbyChange k (.channelFailed z)) t) ∧
      (let same : Prop := (∀ z : Zone, t.amps[z].failed = s.amps[z].failed) ∧
        ∀ k : Fin 2, t.standbyAmps[k].failed = s.standbyAmps[k].failed
      (same → t.serving = s.serving) ∧
      (¬same → OneFeed s → PoolSettled t ∧ ∀ (k : Fin 2) (z : Zone),
        (s.serving[k] = some z → t.standbyAmps[k].failed = false → failedZone t z = false →
          Told (.standbyChange k (.released z)) t) ∧
        (t.serving[k] = some z → s.serving[k] ≠ some z →
          Told (.standbyChange k (.assigned z)) t ∨
            ∃ y, Told (.standbyChange k (.preempted y z)) t))) ∧
      t = { s with
        windowEnd := t.windowEnd, lines := t.lines, amps := t.amps, standbyAmps := t.standbyAmps
        serving := t.serving, reports := t.reports, reportOverflow := t.reportOverflow }

/-- CLEAR_FAULTS (R160, R171): every line of a monitor is UNTESTED with its debounce and hold value empty,
OUTPUT LOST and PHRASE MISSING are cleared, the health debounce starts over with the failed flags kept, and
the window clock restarts. A TABLE_WRITE of a zone's Supervision Limits empties the debounce of its measured
lines, and one of the window restarts the window clock with the new length (R159, R160). -/
def Obligations.FaultsCleared : Prop :=
  (∀ (s : State) (q : Request), Admitted s q .clearFaults 1 →
    let untested : LineMon := { state := .untested, pulses := 0, hold := none, candidate := none
                                run := 0, whole := true }
    let health (h : Health) : Health :=
      { h with candidate := none, run := 0, dropped := !h.active, whole := true }
    exec (.clearFaults q) s = .next (repliedWith
      { s with
        lines := s.lines.map fun l =>
          { a := untested, b := l.b.map fun _ => untested, lost := false }
        amps := s.amps.map health, standbyAmps := s.standbyAmps.map health
        phraseMissing := false, windowEnd := some (s.now + s.work.window) }
      q .clearFaults .done .none)) ∧
  (∀ (s : State) (q : Request) (z : Zone) (e e' : Limits),
    WriteTaken s q 10 z.val (.limits e) (.limits e') →
    let emptied (m : LineMon) : LineMon :=
      if m.state = .short then m else { m with candidate := none, run := 0 }
    writeLeaves s q 10 z.val (.limits e) { written z.val (.limits e') s with
      lines := s.lines.set z (
        { s.lines[z] with a := emptied s.lines[z].a, b := s.lines[z].b.map emptied }) }) ∧
  ∀ (s : State) (q : Request) (ms ms' : Nat), WriteTaken s q 10 24 (.window ms) (.window ms') →
    let line (m : LineMon) : LineMon := { m with pulses := 0, whole := true }
    let health (h : Health) : Health := { h with dropped := !h.active, whole := true }
    writeLeaves s q 10 24 (.window ms) { written 24 (.window ms') s with
      windowEnd := some (s.now + ms')
      lines := s.lines.map fun l => { l with a := line l.a, b := l.b.map line }
      amps := s.amps.map health, standbyAmps := s.standbyAmps.map health }

/-! ## Tables, reads and restart -/

/-- TABLE_WRITE (R8, R24, R124, R200). What the check of each table refuses and clamps is EntryStands: R68 and
R183, R1, R2 and R5, R10, R36, R38, R91, R115, R124, R126, R145, R159; entries not in use, the start of a
phrase, EVACUATE delays and endless cadences are the model's choices there (log entries 16, 17, 18, 48 and
49). BAD ARGUMENT for an entry that no table has, BUSY while a commit is in flight, IN USE for the phrase a
capture is recording, BAD ARGUMENT for a structural error of the owning rule. A write that is taken is
answered DONE, the entry then reads as it is stored, every other entry as before, and the non-volatile copies,
their checks and TABLE INVALID stay. Node Identity, detection zones and templates have no further effect; an
entry of the Cause-and-Effect Table settles DEFAULT MODE anew. A speaker zone that leaves use loses its
claims, is muted and is served by no standby channel; one that enters use starts its lines and its health
afresh; a new trim sets the target, a new line configuration makes or removes line B with OUTPUT LOST
evaluated, a new eligibility runs the arbiter. That IN USE comes before the check of the contents, and that
contents equal after clamping change nothing, are read from the rules (log entries 18 and 15). -/
def Obligations.TableWritten : Prop :=
  (∀ (t : Tables) (i : Nat) (c c' : Contents), checkContents t i c = some c' ↔ EntryStands t i c c') ∧
  (∀ (s : State) (q : Request) (table i : Nat) (c c' : Contents), WriteTaken s q table i c c' →
    (table = 0 ∨ table = 1 ∨ table = 5 → writeLeaves s q table i c (written i c' s)) ∧
    (table = 4 → writeLeaves s q table i c { written i c' s with
      defaultMode := (putEntry i c' s.work).ce.toList.all fun x => !x.inUse })) ∧
  (∀ (s : State) (q : Request) (z : Zone) (e e' : SpkZone),
    WriteTaken s q 2 z.val (.spkZone e) (.spkZone e') →
    let leaves (u : State) : Prop := writeLeaves s q 2 z.val (.spkZone e) u
    let w := written z.val (.spkZone e') s
    let old := s.work.spk[z]
    let l := s.lines[z]
    let untested : LineMon := { state := .untested, pulses := 0, hold := none, candidate := none
                                run := 0, whole := false }
    let health : Health := { active := s.amps[z].active, dropped := !s.amps[z].active, failed := false
                             candidate := none, run := 0, whole := false }
    let lines (b : Option LineMon) (lost : Bool) : State :=
      { w with lines := s.lines.set z ({ a := l.a, b := b, lost := lost }) }
    (old.inUse = true → e'.inUse = false → ∃ u : State, leaves u ∧ u.lists[z] = [] ∧
      u.outs[z] = mutedOut ∧ u.lines[z] = { a := untested, b := none, lost := false } ∧
      u.amps[z] = health ∧ (OneFeed s → ∀ k : Fin 2, u.serving[k] ≠ some z) ∧
      ∀ y, y ≠ z → u.lists[y] = s.lists[y] ∧ u.outs[y] = s.outs[y] ∧ u.lines[y] = s.lines[y] ∧
        u.amps[y] = s.amps[y]) ∧
    (old.inUse = false → e'.inUse = true → leaves { w with
      lines := s.lines.set z (
        { a := untested, b := if e'.lineCfg = .aAndB then some untested else none, lost := false })
      amps := s.amps.set z health }) ∧
    (old.inUse = false → e'.inUse = false → leaves w) ∧
    (old.inUse = true → e'.inUse = true →
      ((∃ lo hi sec kind, e' = { old with levelLo := lo, levelHi := hi, sector := sec, kind := kind }) →
        leaves w) ∧
      (e' = { old with trim := e'.trim } → leaves { w with outs := s.outs.set z (
        { s.outs[z] with
          target := targetOf s.outs[z].source s.outs[z].prio s.outs[z].atten e'.trim }) }) ∧
      (e' = { old with lineCfg := .aAndB } → leaves (lines (some untested) false)) ∧
      (e' = { old with lineCfg := .aOnly } →
        (l.a.state = .short → l.lost = false →
          leaves (report (.outputLost z .short none) (lines none true))) ∧
        ((l.a.state ≠ .short ∨ l.lost = true) → leaves (lines none (decide (l.a.state = .short))))) ∧
      (e' = { old with eligible := e'.eligible } → ∃ u : State, leaves u ∧
        (OneFeed s → PoolSettled u) ∧
        u = { w with serving := u.serving, reports := u.reports
                     reportOverflow := u.reportOverflow }))) ∧
  ∀ (s : State) (q : Request) (table i : Nat) (c : Contents),
    (Admitted s q (.tableWrite table i c) 1 →
      (entryOf s.work table i = none →
        exec (.tableWrite q table i c) s =
          .next (repliedWith s q (.tableWrite table i c) .badArgument .none)) ∧
      (entryOf s.work table i ≠ none → s.commit ≠ none →
        exec (.tableWrite q table i c) s =
          .next (repliedWith s q (.tableWrite table i c) .busy .none)) ∧
      (∀ x, entryOf s.work table i ≠ none → s.commit = none → s.capture = some x → table = 8 →
        i = x.phrase →
        exec (.tableWrite q table i c) s =
          .next (repliedWith s q (.tableWrite table i c) .inUse .none)) ∧
      (entryOf s.work table i ≠ none → s.commit = none →
        (∀ x, s.capture = some x → ¬(table = 8 ∧ i = x.phrase)) →
        checkContents s.work i c = none →
        exec (.tableWrite q table i c) s =
          .next (repliedWith s q (.tableWrite table i c) .badArgument .none))) ∧
    ∀ c', entryOf s.work table i ≠ none → s.commit = none →
      (∀ x, s.capture = some x → ¬(table = 8 ∧ i = x.phrase)) →
      checkContents s.work i c = some c' →
      Admitted s q (.tableWrite table i c)
        (if table = 11 ∧ (insertionSlot s).isSome = true then 2 else 1) →
      ∃ u : State, exec (.tableWrite q table i c) s =
          .next (place (replyMsg q .tableWrite .done .none) u) ∧
        entryOf u.work table i = some c' ∧
        (∀ t j, (t ≠ table ∨ j ≠ i) → entryOf u.work t j = entryOf s.work t j) ∧
        u.nv = s.nv ∧ u.nvOk = s.nvOk ∧ u.invalid = s.invalid ∧ u.store = s.store ∧
        u.acts = s.acts ∧ u.hold = s.hold ∧ u.rif = s.rif ∧ u.slots = s.slots ∧
        u.cmdQueue = s.cmdQueue.tail ∧ s.outbound <+: u.outbound ∧ u.commit = none ∧
        u.phase = s.phase ∧ u.now = s.now ∧ u.pins = s.pins ∧
        (entryOf s.work table i = some c' → u = leftQueue s)

/-- COMMIT and COMMIT_STEP_END (R201, R202): BUSY while one is in flight; DONE with count 0 where no table
differs and every check passes; otherwise the first table in identifier order that differs or whose check
fails begins its step of 100 ms, its check failing meanwhile. At the end of a step the table's non-volatile
contents are those of the step's beginning, its check passes and TABLE INVALID is cleared; the next such
table begins, or the commit ends with DONE and the number of tables written. That the next step's 100 ms run
from the step's row, also where it comes late, is the model's choice (log entry 43). -/
def Obligations.CommitWritesTables : Prop :=
  let due (s : State) (k : Nat) : Prop :=
    tableEq k s.work s.nv = false ∨ s.nvOk[k]? = some false
  (∀ (s : State) (q : Request), Admitted s q .commit 1 →
    (s.commit ≠ none → exec (.commit q) s = .next (repliedWith s q .commit .busy .none)) ∧
    (s.commit = none → (∀ k < 12, ¬due s k) →
      exec (.commit q) s = .next (repliedWith s q .commit .done (.written 0))) ∧
    ∀ k : Nat, s.commit = none → k < 12 → due s k → (∀ j < k, ¬due s j) →
      exec (.commit q) s = .next { leftQueue s with
        nvOk := s.nvOk.setIfInBounds k false
        commit := some { requester := q, table := k, deadline := s.now + 100, image := s.work
                         written := 0 } }) ∧
  ∀ (s : State) (c : Commit), s.phase = .running → s.commit = some c → c.table < 12 →
    c.deadline ≤ s.now →
    let s1 := { s with
      nv := copyTable c.table c.image s.nv
      nvOk := s.nvOk.setIfInBounds c.table true
      invalid := s.invalid.setIfInBounds c.table false }
    tableEq c.table s1.nv c.image = true ∧
    (∀ k : Nat, c.table < k → k < 12 → due s1 k → (∀ j, c.table < j → j < k → ¬due s1 j) →
      exec .commitStepEnd s = .next { s1 with
        nvOk := s1.nvOk.setIfInBounds k false
        commit := some { requester := c.requester, table := k, deadline := s.now + 100
                         image := s.work, written := c.written + 1 } }) ∧
    ((∀ k, c.table < k → k < 12 → ¬due s1 k) →
      let m := replyMsg c.requester .commit .done (.written (c.written + 1))
      (s.deferred = [] → 0 < s.room →
        exec .commitStepEnd s = .next (place m { s1 with commit := none })) ∧
      ((s.deferred ≠ [] ∨ s.room = 0) →
        exec .commitStepEnd s = .next { s1 with
          commit := none, deferred := s.deferred ++ [m] }))

/-- RESTART and RESTART_EFFECT (R33, R75, R102, R114, R122, R142, R144, R158, R174, R193, R195, R204): RESTART
places no reply and waits for a commit in flight. When it takes effect the queues are emptied, WARM RESTART is
the first report with the number of commands discarded, a capture ends without a reply, the RIF is SEEKING
with its identity and counts kept, every zone plays its own source and fades in from 120, cadences with
listeners start over and the others stop, a running channel begins its program afresh or waits, lines and
health return to their cold start values with no standby channel serving, and the key is taken afresh 50 ms
later; an emptied notice goes back to the pending set with its slots not announced; records, claims, hold,
tables, store, tag and the pins stay. The places of WARM RESTART and of the channels' reports are those of log
entries 31 and 55, the slots of a notice those of log entry 28, a stopped channel's fields those of log
entries 30 and 35, the frozen sample times those of log entry 19, the phase of a stopped cadence in use that
of log entry 35. That the RESTART is noted until RESTART_EFFECT, that the run of valid frames begins anew and
that a frame millisecond still due is dropped are the model's choices (log entries 32, 22 and 20). The
channels of a node that was ISOLATED, and the slots where more than one notice is emptied, are not said here.
-/
def Obligations.RestartTakesEffect : Prop :=
  (∀ (s : State) (q : Request), Admitted s q .restart 0 →
    exec (.restart q) s = .next { leftQueue s with restart := some s.commit.isSome }) ∧
  ∀ (s : State) (b : Bool), s.phase = .running → s.restart = some b → s.commit = none →
    ∃ t : State, exec .restartEffect s = .next t ∧
      t.cmdQueue = [] ∧ t.deferred = [] ∧ t.outbound = [] ∧ t.restart = none ∧ t.capture = none ∧
      [⟨.warmRestart s.cmdQueue.length b, s.now⟩] <+: t.reports ∧
      t.rif = { s.rif with
        ring := .seeking, since := s.now, run := 0, runStart := none, heard := silentSlots
        passing := false, fwd := [], returns := [], tx := none, rx := none, arrived := [] } ∧
      t.isoTimer = none ∧ t.isoEscalated = false ∧
      (∀ z : Zone, t.outs[z].source = s.outs[z].source ∧ t.outs[z].target = s.outs[z].target ∧
        t.outs[z].current = 120 ∧
        (s.work.spk[z].inUse = true →
          t.outs[z].effective = s.outs[z].source ∧ t.outs[z].substituted = false)) ∧
      (∀ n : Fin 4, t.cads[n] =
        if 0 < t.cads[n].listeners
        then { listeners := t.cads[n].listeners, running := true, phase := .on, burst := 1
               remaining := s.work.cad[n].on }
        else { listeners := 0, running := false, phase := .on, burst := 1
               remaining := s.work.cad[n].on }) ∧
      (OutputsFollow s → s.rif.ring ≠ .isolated → ∀ n : Fin 4,
        t.cads[n].listeners = s.cads[n].listeners ∧
        (s.chans[n].state ≠ .running → t.chans[n] = (stopped s n s.chans[n].state).chans[n]) ∧
        (s.chans[n].state = .running →
          (s.work.progs[n].mode = .named .demand → s.chans[n].listeners = 0 →
            t.chans[n] = (stopped s n .waiting).chans[n]) ∧
          (¬(s.work.progs[n].mode = .named .demand ∧ s.chans[n].listeners = 0) →
            ChanBegun s n 0 0 t.chans[n]))) ∧
      (let untested : LineMon := { state := .untested, pulses := 0, hold := none, candidate := none
                                   run := 0, whole := true }
      let health (h : Health) : Health := { active := h.active, dropped := !h.active, failed := false
                                            candidate := none, run := 0, whole := true }
      t.lines = s.lines.map (fun l =>
        { a := untested, b := l.b.map fun _ => untested, lost := false }) ∧
      t.amps = s.amps.map health ∧ t.standbyAmps = s.standbyAmps.map health) ∧
      t.serving = Vector.replicate 2 none ∧ t.windowEnd = some (s.now + s.work.window) ∧
      t.warden = { s.warden with
        taken := false, due := none, key := .released, slot := .none
        fresh := some ⟨s.now + 50, s.pins.keyClosed⟩ } ∧
      (let notice (m : OutMsg) : Prop := ∃ c, m.content = .notice (.slotsCleared c)
      ((∀ m ∈ s.outbound, ¬notice m) → t.slots = s.slots) ∧
      ∀ (before after : List OutMsg) (m : OutMsg) (c : Cleared),
        s.outbound = before ++ m :: after → (∀ x ∈ before ++ after, ¬notice x) →
        m.content = .notice (.slotsCleared c) →
        ((c = .all ∨ s.slots.pending = .all) → t.slots.pending = .all) ∧
        (∀ ls ps, c = .labels ls → s.slots.pending = .labels ps →
          ∃ qs, t.slots.pending = .labels qs ∧ ∀ x, x ∈ qs ↔ x ∈ ls ∨ x ∈ ps) ∧
        ∀ i : Fin 16,
          let d := s.slots.entries[i]
          (((∀ f, (i, f) ∉ m.named) ∨ d.held ≠ none ∨ d.announced = false) →
            t.slots.entries[i] = d) ∧
          ∀ f, (m.named.find? fun p => p.1 == i) = some (i, f) → d.held = none →
            d.announced = true →
            t.slots.entries[i] = { d with announced := false, freedFrom := f }) ∧
      t = { s with
        cmdQueue := [], deferred := [], outbound := [], restart := none, capture := none
        reports := t.reports, reportOverflow := t.reportOverflow, rif := t.rif, slots := t.slots
        isoTimer := none, isoEscalated := false, msDue := false, sampleTimes := 0, outs := t.outs
        cads := t.cads, chans := t.chans, phraseMissing := t.phraseMissing, serving := t.serving
        windowEnd := t.windowEnd, lines := t.lines, amps := t.amps, standbyAmps := t.standbyAmps
        warden := t.warden }

/-- STATUS_READ, ZONE_READ and TABLE_READ (R100, R113, R173, R197, R205, R206): DONE with the record as it
stands, BAD ARGUMENT where the argument names nothing; STATUS READ clears REPORT OVERFLOW after reading
it, and no read changes anything else. A record of 30 bytes or fewer fits one body beside tag and result; a
longer one goes out in parts of 28 bytes, as much as fits, in order, that together carry the whole. The fault
summary counts the lines OPEN and SHORT, and names the failed amplifiers, the zones with OUTPUT LOST and the
states of the standby channels; a zone's standing names the channel that serves it, or that it waits for one.
The fault indicator (R172) is active until the start-up load completes, and then while a condition of the rule
holds. That tag, result, part number and number of parts take a byte each is log entry 25, and that the
indicator is inactive without power is log entry 32. -/
def Obligations.ReadsAnswer : Prop :=
  (∀ (q : Request) (c : CmdCode) (r : Result) (d : ReplyData), recordCode d = some c →
    let bytes := dataBytes c d
    let parts := (bytes.length + 27) / 28
    let share (i : Nat) := (bytes.drop (28 * i)).take 28
    (bytes.length ≤ 30 → replyMsgs q c r d = [replyMsg q c r d]) ∧
    (30 < bytes.length → replyMsgs q c r d = (List.range parts).map (fun i =>
      { dest := q.origin
        content := .reply { code := c, tag := q.tag, result := r, data := .share (share i), part := i
                            parts := parts } }) ∧
      (List.range parts).flatMap share = bytes)) ∧
  (∀ s : State,
    let f := faultSummary s
    let count (st : LineState) : Nat :=
      (allZones.filter fun z => s.work.spk[z].inUse && (s.lines[z].a.state == st)).length +
        (allZones.filter fun z =>
          s.work.spk[z].inUse && ((s.lines[z].b.map fun m => m.state) == some st)).length
    let faulty (m : LineMon) : Prop := m.state = .opened ∨ m.state = .short
    f.linesOpen = count .opened ∧ f.linesShort = count .short ∧
    (∀ z : Zone, (inSet f.ampFailed z = true ↔ s.work.spk[z].inUse = true ∧ s.amps[z].failed = true) ∧
      (inSet f.outputLost z = true ↔ s.lines[z].lost = true)) ∧
    (∀ k : Fin 2, (s.standbyAmps[k].failed = true → f.standby[k] = .failed) ∧
      (s.standbyAmps[k].failed = false → s.serving[k] = none → f.standby[k] = .free) ∧
      ∀ z, s.standbyAmps[k].failed = false → s.serving[k] = some z → f.standby[k] = .serving z) ∧
    f.phraseMissing = s.phraseMissing ∧ (f.lockedOut = true ↔ s.warden.key = .lockedOut) ∧
    f.indicator = faultIndicator s ∧
    (faultIndicator s = true ↔ s.phase = .loading ∨ (s.phase = .running ∧
      ((∃ z : Zone, s.work.spk[z].inUse = true ∧
          (faulty s.lines[z].a ∨ ∃ b, s.lines[z].b = some b ∧ faulty b)) ∨
        (∃ z : Zone, s.work.spk[z].inUse = true ∧ s.amps[z].failed = true) ∨
        (∃ k : Fin 2, s.standbyAmps[k].failed = true) ∨ (∃ z : Zone, s.lines[z].lost = true) ∨
        (∃ k : Fin 12, s.invalid[k] = true) ∨ s.phraseMissing = true ∨ s.rif.ring = .isolated))) ∧
    ∀ z : Zone,
      (OneFeed s → ∀ k : Fin 2, standingOf s z = .served k ↔ s.serving[k] = some z) ∧
      ((∀ k : Fin 2, s.serving[k] ≠ some z) → standingOf s z =
        if s.work.spk[z].inUse = true ∧ s.amps[z].failed = true ∧ s.work.spk[z].eligible = true ∧
            s.lists[z] ≠ [] then .waiting else .notFailed)) ∧
  (∀ (s : State) (q : Request) (r : StatusRecord),
    r = { ring := s.rif.ring, master := s.rif.master, node := s.rif.addr
          alarmLock := s.alarmLock, overflow := s.overflow, defaultMode := s.defaultMode
          count := s.acts.length, hold := s.hold
          commit := s.commit.map fun c => (c.table, c.written)
          capture := s.capture.map fun c => (c.phrase, c.slot, c.recorded)
          faults := faultSummary s, tableInvalid := s.invalid, lost := s.rif.lost
          reportOverflow := s.reportOverflow } →
    Admitted s q .statusRead (partsOf (.status r)) →
    exec (.statusRead q) s = .next
      { repliedWith s q .statusRead .done (.status r) with reportOverflow := false }) ∧
  (∀ (s : State) (q : Request) (z : Zone), s.work.spk[z].inUse = true →
    let o := s.outs[z]
    let l := s.lines[z]
    let d : ReplyData := .zone
      { inUse := true, claims := s.lists[z], effective := o.effective
        substituted := o.substituted, target := o.target, current := o.current
        lineCfg := s.work.spk[z].lineCfg, lineA := (l.a.state, l.a.hold)
        lineB := l.b.map fun m => (m.state, m.hold), outputLost := l.lost
        ampFailed := s.amps[z].failed, standing := standingOf s z }
    Admitted s q (.zoneRead z.val) (partsOf d) →
    exec (.zoneRead q z.val) s = .next (repliedWith s q (.zoneRead z.val) .done d)) ∧
  (∀ (s : State) (q : Request) (z : Zone), s.work.spk[z].inUse = false →
    let d : ReplyData := .zone
      { inUse := false, claims := [], effective := .none, substituted := false, target := 120
        current := 120, lineCfg := s.work.spk[z].lineCfg, lineA := (.untested, none)
        lineB := if s.work.spk[z].lineCfg = .aAndB then some (.untested, none) else none
        outputLost := false, ampFailed := false, standing := .notFailed }
    Admitted s q (.zoneRead z.val) (partsOf d) →
    exec (.zoneRead q z.val) s = .next (repliedWith s q (.zoneRead z.val) .done d)) ∧
  (∀ (s : State) (q : Request) (z : Nat), 24 ≤ z → Admitted s q (.zoneRead z) 1 →
    exec (.zoneRead q z) s = .next (repliedWith s q (.zoneRead z) .badArgument .none)) ∧
  (∀ (s : State) (q : Request) (table i : Nat) (k : Fin 12) (c : Contents), table = k.val →
    entryOf s.work table i = some c →
    let d : ReplyData := .table c s.invalid[k] (!tableEq table s.work s.nv)
    Admitted s q (.tableRead table i) (partsOf d) →
    exec (.tableRead q table i) s = .next (repliedWith s q (.tableRead table i) .done d)) ∧
  ∀ (s : State) (q : Request) (table i : Nat), entryOf s.work table i = none →
    Admitted s q (.tableRead table i) 1 →
    exec (.tableRead q table i) s = .next (repliedWith s q (.tableRead table i) .badArgument .none)

/-- R34: CAUSE READ answers the record at a position of the activation order, no record at or beyond the
activation count, and BAD ARGUMENT above 31; a record behind one that is removed is read one position
earlier. The number of parts of the reply is that of log entry 25, and the mark of log entry 4 is not
shown. -/
def Obligations.CauseReadAnswers : Prop :=
  let shown (r : ActRecord) : ActRecord :=
    { r with refs := r.refs.map fun f => { f with due := false } }
  (∀ (s : State) (q : Request) (i : Nat) (r : ActRecord), i ≤ 31 → s.acts[i]? = some r →
    Admitted s q (.causeRead i) (partsOf (.cause (some (shown r)))) →
    exec (.causeRead q i) s =
      .next (repliedWith s q (.causeRead i) .done (.cause (some (shown r))))) ∧
  (∀ (s : State) (q : Request) (i : Nat), i ≤ 31 → s.acts.length ≤ i →
    Admitted s q (.causeRead i) (partsOf (.cause none)) →
    exec (.causeRead q i) s = .next (repliedWith s q (.causeRead i) .done (.cause none))) ∧
  (∀ (s : State) (q : Request) (i : Nat), 31 < i → Admitted s q (.causeRead i) 1 →
    exec (.causeRead q i) s = .next (repliedWith s q (.causeRead i) .badArgument .none)) ∧
  ∀ (s : State) (a b : List ActRecord) (x r : ActRecord) (k : Nat), RecordsOk s →
    s.acts = a ++ x :: b → s.acts[k]? = some r → a.length < k →
    (removeRecord x.dz s).acts[k - 1]? = some r
end

