-- ==== Sys2Proof/Laws/State.lean ====
section
/-!
SUPPORT. One lemma per field for each named update of the state: what the update leaves as it was. No
later proof needs to unfold a record update for a field that it does not change.
-/

namespace Sys2Proof.Machine

/-! ## report -/

@[simp] theorem report_phase (b : ReportBody) (s : State) :
    (report b s).phase = s.phase := by unfold report; split <;> rfl
@[simp] theorem report_now (b : ReportBody) (s : State) :
    (report b s).now = s.now := by unfold report; split <;> rfl
@[simp] theorem report_msDue (b : ReportBody) (s : State) :
    (report b s).msDue = s.msDue := by unfold report; split <;> rfl
@[simp] theorem report_sampleTimes (b : ReportBody) (s : State) :
    (report b s).sampleTimes = s.sampleTimes := by unfold report; split <;> rfl
@[simp] theorem report_pins (b : ReportBody) (s : State) :
    (report b s).pins = s.pins := by unfold report; split <;> rfl
@[simp] theorem report_work (b : ReportBody) (s : State) :
    (report b s).work = s.work := by unfold report; split <;> rfl
@[simp] theorem report_nv (b : ReportBody) (s : State) :
    (report b s).nv = s.nv := by unfold report; split <;> rfl
@[simp] theorem report_nvOk (b : ReportBody) (s : State) :
    (report b s).nvOk = s.nvOk := by unfold report; split <;> rfl
@[simp] theorem report_invalid (b : ReportBody) (s : State) :
    (report b s).invalid = s.invalid := by unfold report; split <;> rfl
@[simp] theorem report_acts (b : ReportBody) (s : State) :
    (report b s).acts = s.acts := by unfold report; split <;> rfl
@[simp] theorem report_overflow (b : ReportBody) (s : State) :
    (report b s).overflow = s.overflow := by unfold report; split <;> rfl
@[simp] theorem report_defaultMode (b : ReportBody) (s : State) :
    (report b s).defaultMode = s.defaultMode := by unfold report; split <;> rfl
@[simp] theorem report_inputs (b : ReportBody) (s : State) :
    (report b s).inputs = s.inputs := by unfold report; split <;> rfl
@[simp] theorem report_hold (b : ReportBody) (s : State) :
    (report b s).hold = s.hold := by unfold report; split <;> rfl
@[simp] theorem report_isoTimer (b : ReportBody) (s : State) :
    (report b s).isoTimer = s.isoTimer := by unfold report; split <;> rfl
@[simp] theorem report_isoEscalated (b : ReportBody) (s : State) :
    (report b s).isoEscalated = s.isoEscalated := by unfold report; split <;> rfl
@[simp] theorem report_lists (b : ReportBody) (s : State) :
    (report b s).lists = s.lists := by unfold report; split <;> rfl
@[simp] theorem report_outs (b : ReportBody) (s : State) :
    (report b s).outs = s.outs := by unfold report; split <;> rfl
@[simp] theorem report_cads (b : ReportBody) (s : State) :
    (report b s).cads = s.cads := by unfold report; split <;> rfl
@[simp] theorem report_chans (b : ReportBody) (s : State) :
    (report b s).chans = s.chans := by unfold report; split <;> rfl
@[simp] theorem report_store (b : ReportBody) (s : State) :
    (report b s).store = s.store := by unfold report; split <;> rfl
@[simp] theorem report_capture (b : ReportBody) (s : State) :
    (report b s).capture = s.capture := by unfold report; split <;> rfl
@[simp] theorem report_phraseMissing (b : ReportBody) (s : State) :
    (report b s).phraseMissing = s.phraseMissing := by unfold report; split <;> rfl
@[simp] theorem report_warden (b : ReportBody) (s : State) :
    (report b s).warden = s.warden := by unfold report; split <;> rfl
@[simp] theorem report_lines (b : ReportBody) (s : State) :
    (report b s).lines = s.lines := by unfold report; split <;> rfl
@[simp] theorem report_amps (b : ReportBody) (s : State) :
    (report b s).amps = s.amps := by unfold report; split <;> rfl
@[simp] theorem report_standbyAmps (b : ReportBody) (s : State) :
    (report b s).standbyAmps = s.standbyAmps := by unfold report; split <;> rfl
@[simp] theorem report_serving (b : ReportBody) (s : State) :
    (report b s).serving = s.serving := by unfold report; split <;> rfl
@[simp] theorem report_windowEnd (b : ReportBody) (s : State) :
    (report b s).windowEnd = s.windowEnd := by unfold report; split <;> rfl
@[simp] theorem report_rif (b : ReportBody) (s : State) :
    (report b s).rif = s.rif := by unfold report; split <;> rfl
@[simp] theorem report_slots (b : ReportBody) (s : State) :
    (report b s).slots = s.slots := by unfold report; split <;> rfl
@[simp] theorem report_cmdQueue (b : ReportBody) (s : State) :
    (report b s).cmdQueue = s.cmdQueue := by unfold report; split <;> rfl
@[simp] theorem report_deferred (b : ReportBody) (s : State) :
    (report b s).deferred = s.deferred := by unfold report; split <;> rfl
@[simp] theorem report_outbound (b : ReportBody) (s : State) :
    (report b s).outbound = s.outbound := by unfold report; split <;> rfl
@[simp] theorem report_reserved (b : ReportBody) (s : State) :
    (report b s).reserved = s.reserved := by unfold report; split <;> rfl
@[simp] theorem report_alarmLock (b : ReportBody) (s : State) :
    (report b s).alarmLock = s.alarmLock := by unfold report; split <;> rfl
@[simp] theorem report_commit (b : ReportBody) (s : State) :
    (report b s).commit = s.commit := by unfold report; split <;> rfl
@[simp] theorem report_restart (b : ReportBody) (s : State) :
    (report b s).restart = s.restart := by unfold report; split <;> rfl
@[simp] theorem report_pending (b : ReportBody) (s : State) :
    (report b s).pending = s.pending := by unfold report; split <;> rfl

/-! ## place -/

@[simp] theorem place_phase (m : OutMsg) (s : State) : (place m s).phase = s.phase := rfl
@[simp] theorem place_now (m : OutMsg) (s : State) : (place m s).now = s.now := rfl
@[simp] theorem place_msDue (m : OutMsg) (s : State) : (place m s).msDue = s.msDue := rfl
@[simp] theorem place_sampleTimes (m : OutMsg) (s : State) :
    (place m s).sampleTimes = s.sampleTimes := rfl
@[simp] theorem place_pins (m : OutMsg) (s : State) : (place m s).pins = s.pins := rfl
@[simp] theorem place_work (m : OutMsg) (s : State) : (place m s).work = s.work := rfl
@[simp] theorem place_nv (m : OutMsg) (s : State) : (place m s).nv = s.nv := rfl
@[simp] theorem place_nvOk (m : OutMsg) (s : State) : (place m s).nvOk = s.nvOk := rfl
@[simp] theorem place_invalid (m : OutMsg) (s : State) : (place m s).invalid = s.invalid := rfl
@[simp] theorem place_acts (m : OutMsg) (s : State) : (place m s).acts = s.acts := rfl
@[simp] theorem place_overflow (m : OutMsg) (s : State) : (place m s).overflow = s.overflow := rfl
@[simp] theorem place_defaultMode (m : OutMsg) (s : State) :
    (place m s).defaultMode = s.defaultMode := rfl
@[simp] theorem place_inputs (m : OutMsg) (s : State) : (place m s).inputs = s.inputs := rfl
@[simp] theorem place_hold (m : OutMsg) (s : State) : (place m s).hold = s.hold := rfl
@[simp] theorem place_isoTimer (m : OutMsg) (s : State) : (place m s).isoTimer = s.isoTimer := rfl
@[simp] theorem place_isoEscalated (m : OutMsg) (s : State) :
    (place m s).isoEscalated = s.isoEscalated := rfl
@[simp] theorem place_lists (m : OutMsg) (s : State) : (place m s).lists = s.lists := rfl
@[simp] theorem place_outs (m : OutMsg) (s : State) : (place m s).outs = s.outs := rfl
@[simp] theorem place_cads (m : OutMsg) (s : State) : (place m s).cads = s.cads := rfl
@[simp] theorem place_chans (m : OutMsg) (s : State) : (place m s).chans = s.chans := rfl
@[simp] theorem place_store (m : OutMsg) (s : State) : (place m s).store = s.store := rfl
@[simp] theorem place_capture (m : OutMsg) (s : State) : (place m s).capture = s.capture := rfl
@[simp] theorem place_phraseMissing (m : OutMsg) (s : State) :
    (place m s).phraseMissing = s.phraseMissing := rfl
@[simp] theorem place_warden (m : OutMsg) (s : State) : (place m s).warden = s.warden := rfl
@[simp] theorem place_lines (m : OutMsg) (s : State) : (place m s).lines = s.lines := rfl
@[simp] theorem place_amps (m : OutMsg) (s : State) : (place m s).amps = s.amps := rfl
@[simp] theorem place_standbyAmps (m : OutMsg) (s : State) :
    (place m s).standbyAmps = s.standbyAmps := rfl
@[simp] theorem place_serving (m : OutMsg) (s : State) : (place m s).serving = s.serving := rfl
@[simp] theorem place_windowEnd (m : OutMsg) (s : State) : (place m s).windowEnd = s.windowEnd := rfl
@[simp] theorem place_rif (m : OutMsg) (s : State) : (place m s).rif = s.rif := rfl
@[simp] theorem place_slots (m : OutMsg) (s : State) : (place m s).slots = s.slots := rfl
@[simp] theorem place_cmdQueue (m : OutMsg) (s : State) : (place m s).cmdQueue = s.cmdQueue := rfl
@[simp] theorem place_deferred (m : OutMsg) (s : State) : (place m s).deferred = s.deferred := rfl
@[simp] theorem place_reserved (m : OutMsg) (s : State) : (place m s).reserved = s.reserved := rfl
@[simp] theorem place_reports (m : OutMsg) (s : State) : (place m s).reports = s.reports := rfl
@[simp] theorem place_reportOverflow (m : OutMsg) (s : State) :
    (place m s).reportOverflow = s.reportOverflow := rfl
@[simp] theorem place_alarmLock (m : OutMsg) (s : State) : (place m s).alarmLock = s.alarmLock := rfl
@[simp] theorem place_commit (m : OutMsg) (s : State) : (place m s).commit = s.commit := rfl
@[simp] theorem place_restart (m : OutMsg) (s : State) : (place m s).restart = s.restart := rfl
@[simp] theorem place_pending (m : OutMsg) (s : State) : (place m s).pending = s.pending := rfl

/-! ## placeOrDefer -/

@[simp] theorem placeOrDefer_phase (m : OutMsg) (s : State) :
    (placeOrDefer m s).phase = s.phase := by unfold placeOrDefer; split <;> rfl
@[simp] theorem placeOrDefer_now (m : OutMsg) (s : State) :
    (placeOrDefer m s).now = s.now := by unfold placeOrDefer; split <;> rfl
@[simp] theorem placeOrDefer_msDue (m : OutMsg) (s : State) :
    (placeOrDefer m s).msDue = s.msDue := by unfold placeOrDefer; split <;> rfl
@[simp] theorem placeOrDefer_sampleTimes (m : OutMsg) (s : State) :
    (placeOrDefer m s).sampleTimes = s.sampleTimes := by unfold placeOrDefer; split <;> rfl
@[simp] theorem placeOrDefer_pins (m : OutMsg) (s : State) :
    (placeOrDefer m s).pins = s.pins := by unfold placeOrDefer; split <;> rfl
@[simp] theorem placeOrDefer_work (m : OutMsg) (s : State) :
    (placeOrDefer m s).work = s.work := by unfold placeOrDefer; split <;> rfl
@[simp] theorem placeOrDefer_nv (m : OutMsg) (s : State) :
    (placeOrDefer m s).nv = s.nv := by unfold placeOrDefer; split <;> rfl
@[simp] theorem placeOrDefer_nvOk (m : OutMsg) (s : State) :
    (placeOrDefer m s).nvOk = s.nvOk := by unfold placeOrDefer; split <;> rfl
@[simp] theorem placeOrDefer_invalid (m : OutMsg) (s : State) :
    (placeOrDefer m s).invalid = s.invalid := by unfold placeOrDefer; split <;> rfl
@[simp] theorem placeOrDefer_acts (m : OutMsg) (s : State) :
    (placeOrDefer m s).acts = s.acts := by unfold placeOrDefer; split <;> rfl
@[simp] theorem placeOrDefer_overflow (m : OutMsg) (s : State) :
    (placeOrDefer m s).overflow = s.overflow := by unfold placeOrDefer; split <;> rfl
@[simp] theorem placeOrDefer_defaultMode (m : OutMsg) (s : State) :
    (placeOrDefer m s).defaultMode = s.defaultMode := by unfold placeOrDefer; split <;> rfl
@[simp] theorem placeOrDefer_inputs (m : OutMsg) (s : State) :
    (placeOrDefer m s).inputs = s.inputs := by unfold placeOrDefer; split <;> rfl
@[simp] theorem placeOrDefer_hold (m : OutMsg) (s : State) :
    (placeOrDefer m s).hold = s.hold := by unfold placeOrDefer; split <;> rfl
@[simp] theorem placeOrDefer_isoTimer (m : OutMsg) (s : State) :
    (placeOrDefer m s).isoTimer = s.isoTimer := by unfold placeOrDefer; split <;> rfl
@[simp] theorem placeOrDefer_isoEscalated (m : OutMsg) (s : State) :
    (placeOrDefer m s).isoEscalated = s.isoEscalated := by unfold placeOrDefer; split <;> rfl
@[simp] theorem placeOrDefer_lists (m : OutMsg) (s : State) :
    (placeOrDefer m s).lists = s.lists := by unfold placeOrDefer; split <;> rfl
@[simp] theorem placeOrDefer_outs (m : OutMsg) (s : State) :
    (placeOrDefer m s).outs = s.outs := by unfold placeOrDefer; split <;> rfl
@[simp] theorem placeOrDefer_cads (m : OutMsg) (s : State) :
    (placeOrDefer m s).cads = s.cads := by unfold placeOrDefer; split <;> rfl
@[simp] theorem placeOrDefer_chans (m : OutMsg) (s : State) :
    (placeOrDefer m s).chans = s.chans := by unfold placeOrDefer; split <;> rfl
@[simp] theorem placeOrDefer_store (m : OutMsg) (s : State) :
    (placeOrDefer m s).store = s.store := by unfold placeOrDefer; split <;> rfl
@[simp] theorem placeOrDefer_capture (m : OutMsg) (s : State) :
    (placeOrDefer m s).capture = s.capture := by unfold placeOrDefer; split <;> rfl
@[simp] theorem placeOrDefer_phraseMissing (m : OutMsg) (s : State) :
    (placeOrDefer m s).phraseMissing = s.phraseMissing := by unfold placeOrDefer; split <;> rfl
@[simp] theorem placeOrDefer_warden (m : OutMsg) (s : State) :
    (placeOrDefer m s).warden = s.warden := by unfold placeOrDefer; split <;> rfl
@[simp] theorem placeOrDefer_lines (m : OutMsg) (s : State) :
    (placeOrDefer m s).lines = s.lines := by unfold placeOrDefer; split <;> rfl
@[simp] theorem placeOrDefer_amps (m : OutMsg) (s : State) :
    (placeOrDefer m s).amps = s.amps := by unfold placeOrDefer; split <;> rfl
@[simp] theorem placeOrDefer_standbyAmps (m : OutMsg) (s : State) :
    (placeOrDefer m s).standbyAmps = s.standbyAmps := by unfold placeOrDefer; split <;> rfl
@[simp] theorem placeOrDefer_serving (m : OutMsg) (s : State) :
    (placeOrDefer m s).serving = s.serving := by unfold placeOrDefer; split <;> rfl
@[simp] theorem placeOrDefer_windowEnd (m : OutMsg) (s : State) :
    (placeOrDefer m s).windowEnd = s.windowEnd := by unfold placeOrDefer; split <;> rfl
@[simp] theorem placeOrDefer_rif (m : OutMsg) (s : State) :
    (placeOrDefer m s).rif = s.rif := by unfold placeOrDefer; split <;> rfl
@[simp] theorem placeOrDefer_slots (m : OutMsg) (s : State) :
    (placeOrDefer m s).slots = s.slots := by unfold placeOrDefer; split <;> rfl
@[simp] theorem placeOrDefer_cmdQueue (m : OutMsg) (s : State) :
    (placeOrDefer m s).cmdQueue = s.cmdQueue := by unfold placeOrDefer; split <;> rfl
@[simp] theorem placeOrDefer_reserved (m : OutMsg) (s : State) :
    (placeOrDefer m s).reserved = s.reserved := by unfold placeOrDefer; split <;> rfl
@[simp] theorem placeOrDefer_reports (m : OutMsg) (s : State) :
    (placeOrDefer m s).reports = s.reports := by unfold placeOrDefer; split <;> rfl
@[simp] theorem placeOrDefer_reportOverflow (m : OutMsg) (s : State) :
    (placeOrDefer m s).reportOverflow = s.reportOverflow := by unfold placeOrDefer; split <;> rfl
@[simp] theorem placeOrDefer_alarmLock (m : OutMsg) (s : State) :
    (placeOrDefer m s).alarmLock = s.alarmLock := by unfold placeOrDefer; split <;> rfl
@[simp] theorem placeOrDefer_commit (m : OutMsg) (s : State) :
    (placeOrDefer m s).commit = s.commit := by unfold placeOrDefer; split <;> rfl
@[simp] theorem placeOrDefer_restart (m : OutMsg) (s : State) :
    (placeOrDefer m s).restart = s.restart := by unfold placeOrDefer; split <;> rfl
@[simp] theorem placeOrDefer_pending (m : OutMsg) (s : State) :
    (placeOrDefer m s).pending = s.pending := by unfold placeOrDefer; split <;> rfl

/-! ## reply -/

@[simp] theorem reply_phase (e : Entry) (r : Result) (d : ReplyData) (s : State) :
    (reply e r d s).phase = s.phase := rfl
@[simp] theorem reply_now (e : Entry) (r : Result) (d : ReplyData) (s : State) :
    (reply e r d s).now = s.now := rfl
@[simp] theorem reply_msDue (e : Entry) (r : Result) (d : ReplyData) (s : State) :
    (reply e r d s).msDue = s.msDue := rfl
@[simp] theorem reply_sampleTimes (e : Entry) (r : Result) (d : ReplyData) (s : State) :
    (reply e r d s).sampleTimes = s.sampleTimes := rfl
@[simp] theorem reply_pins (e : Entry) (r : Result) (d : ReplyData) (s : State) :
    (reply e r d s).pins = s.pins := rfl
@[simp] theorem reply_work (e : Entry) (r : Result) (d : ReplyData) (s : State) :
    (reply e r d s).work = s.work := rfl
@[simp] theorem reply_nv (e : Entry) (r : Result) (d : ReplyData) (s : State) :
    (reply e r d s).nv = s.nv := rfl
@[simp] theorem reply_nvOk (e : Entry) (r : Result) (d : ReplyData) (s : State) :
    (reply e r d s).nvOk = s.nvOk := rfl
@[simp] theorem reply_invalid (e : Entry) (r : Result) (d : ReplyData) (s : State) :
    (reply e r d s).invalid = s.invalid := rfl
@[simp] theorem reply_acts (e : Entry) (r : Result) (d : ReplyData) (s : State) :
    (reply e r d s).acts = s.acts := rfl
@[simp] theorem reply_overflow (e : Entry) (r : Result) (d : ReplyData) (s : State) :
    (reply e r d s).overflow = s.overflow := rfl
@[simp] theorem reply_defaultMode (e : Entry) (r : Result) (d : ReplyData) (s : State) :
    (reply e r d s).defaultMode = s.defaultMode := rfl
@[simp] theorem reply_inputs (e : Entry) (r : Result) (d : ReplyData) (s : State) :
    (reply e r d s).inputs = s.inputs := rfl
@[simp] theorem reply_hold (e : Entry) (r : Result) (d : ReplyData) (s : State) :
    (reply e r d s).hold = s.hold := rfl
@[simp] theorem reply_isoTimer (e : Entry) (r : Result) (d : ReplyData) (s : State) :
    (reply e r d s).isoTimer = s.isoTimer := rfl
@[simp] theorem reply_isoEscalated (e : Entry) (r : Result) (d : ReplyData) (s : State) :
    (reply e r d s).isoEscalated = s.isoEscalated := rfl
@[simp] theorem reply_lists (e : Entry) (r : Result) (d : ReplyData) (s : State) :
    (reply e r d s).lists = s.lists := rfl
@[simp] theorem reply_outs (e : Entry) (r : Result) (d : ReplyData) (s : State) :
    (reply e r d s).outs = s.outs := rfl
@[simp] theorem reply_cads (e : Entry) (r : Result) (d : ReplyData) (s : State) :
    (reply e r d s).cads = s.cads := rfl
@[simp] theorem reply_chans (e : Entry) (r : Result) (d : ReplyData) (s : State) :
    (reply e r d s).chans = s.chans := rfl
@[simp] theorem reply_store (e : Entry) (r : Result) (d : ReplyData) (s : State) :
    (reply e r d s).store = s.store := rfl
@[simp] theorem reply_capture (e : Entry) (r : Result) (d : ReplyData) (s : State) :
    (reply e r d s).capture = s.capture := rfl
@[simp] theorem reply_phraseMissing (e : Entry) (r : Result) (d : ReplyData) (s : State) :
    (reply e r d s).phraseMissing = s.phraseMissing := rfl
@[simp] theorem reply_warden (e : Entry) (r : Result) (d : ReplyData) (s : State) :
    (reply e r d s).warden = s.warden := rfl
@[simp] theorem reply_lines (e : Entry) (r : Result) (d : ReplyData) (s : State) :
    (reply e r d s).lines = s.lines := rfl
@[simp] theorem reply_amps (e : Entry) (r : Result) (d : ReplyData) (s : State) :
    (reply e r d s).amps = s.amps := rfl
@[simp] theorem reply_standbyAmps (e : Entry) (r : Result) (d : ReplyData) (s : State) :
    (reply e r d s).standbyAmps = s.standbyAmps := rfl
@[simp] theorem reply_serving (e : Entry) (r : Result) (d : ReplyData) (s : State) :
    (reply e r d s).serving = s.serving := rfl
@[simp] theorem reply_windowEnd (e : Entry) (r : Result) (d : ReplyData) (s : State) :
    (reply e r d s).windowEnd = s.windowEnd := rfl
@[simp] theorem reply_rif (e : Entry) (r : Result) (d : ReplyData) (s : State) :
    (reply e r d s).rif = s.rif := rfl
@[simp] theorem reply_slots (e : Entry) (r : Result) (d : ReplyData) (s : State) :
    (reply e r d s).slots = s.slots := rfl
@[simp] theorem reply_cmdQueue (e : Entry) (r : Result) (d : ReplyData) (s : State) :
    (reply e r d s).cmdQueue = s.cmdQueue := rfl
@[simp] theorem reply_deferred (e : Entry) (r : Result) (d : ReplyData) (s : State) :
    (reply e r d s).deferred = s.deferred := rfl
@[simp] theorem reply_reserved (e : Entry) (r : Result) (d : ReplyData) (s : State) :
    (reply e r d s).reserved = s.reserved := rfl
@[simp] theorem reply_reports (e : Entry) (r : Result) (d : ReplyData) (s : State) :
    (reply e r d s).reports = s.reports := rfl
@[simp] theorem reply_reportOverflow (e : Entry) (r : Result) (d : ReplyData) (s : State) :
    (reply e r d s).reportOverflow = s.reportOverflow := rfl
@[simp] theorem reply_alarmLock (e : Entry) (r : Result) (d : ReplyData) (s : State) :
    (reply e r d s).alarmLock = s.alarmLock := rfl
@[simp] theorem reply_commit (e : Entry) (r : Result) (d : ReplyData) (s : State) :
    (reply e r d s).commit = s.commit := rfl
@[simp] theorem reply_restart (e : Entry) (r : Result) (d : ReplyData) (s : State) :
    (reply e r d s).restart = s.restart := rfl
@[simp] theorem reply_pending (e : Entry) (r : Result) (d : ReplyData) (s : State) :
    (reply e r d s).pending = s.pending := rfl

/-! ## setList -/

@[simp] theorem setList_phase (z : Zone) (l : List Claim) (s : State) :
    (setList z l s).phase = s.phase := rfl
@[simp] theorem setList_now (z : Zone) (l : List Claim) (s : State) :
    (setList z l s).now = s.now := rfl
@[simp] theorem setList_msDue (z : Zone) (l : List Claim) (s : State) :
    (setList z l s).msDue = s.msDue := rfl
@[simp] theorem setList_sampleTimes (z : Zone) (l : List Claim) (s : State) :
    (setList z l s).sampleTimes = s.sampleTimes := rfl
@[simp] theorem setList_pins (z : Zone) (l : List Claim) (s : State) :
    (setList z l s).pins = s.pins := rfl
@[simp] theorem setList_work (z : Zone) (l : List Claim) (s : State) :
    (setList z l s).work = s.work := rfl
@[simp] theorem setList_nv (z : Zone) (l : List Claim) (s : State) : (setList z l s).nv = s.nv := rfl
@[simp] theorem setList_nvOk (z : Zone) (l : List Claim) (s : State) :
    (setList z l s).nvOk = s.nvOk := rfl
@[simp] theorem setList_invalid (z : Zone) (l : List Claim) (s : State) :
    (setList z l s).invalid = s.invalid := rfl
@[simp] theorem setList_acts (z : Zone) (l : List Claim) (s : State) :
    (setList z l s).acts = s.acts := rfl
@[simp] theorem setList_overflow (z : Zone) (l : List Claim) (s : State) :
    (setList z l s).overflow = s.overflow := rfl
@[simp] theorem setList_defaultMode (z : Zone) (l : List Claim) (s : State) :
    (setList z l s).defaultMode = s.defaultMode := rfl
@[simp] theorem setList_inputs (z : Zone) (l : List Claim) (s : State) :
    (setList z l s).inputs = s.inputs := rfl
@[simp] theorem setList_hold (z : Zone) (l : List Claim) (s : State) :
    (setList z l s).hold = s.hold := rfl
@[simp] theorem setList_isoTimer (z : Zone) (l : List Claim) (s : State) :
    (setList z l s).isoTimer = s.isoTimer := rfl
@[simp] theorem setList_isoEscalated (z : Zone) (l : List Claim) (s : State) :
    (setList z l s).isoEscalated = s.isoEscalated := rfl
@[simp] theorem setList_outs (z : Zone) (l : List Claim) (s : State) :
    (setList z l s).outs = s.outs := rfl
@[simp] theorem setList_cads (z : Zone) (l : List Claim) (s : State) :
    (setList z l s).cads = s.cads := rfl
@[simp] theorem setList_chans (z : Zone) (l : List Claim) (s : State) :
    (setList z l s).chans = s.chans := rfl
@[simp] theorem setList_store (z : Zone) (l : List Claim) (s : State) :
    (setList z l s).store = s.store := rfl
@[simp] theorem setList_capture (z : Zone) (l : List Claim) (s : State) :
    (setList z l s).capture = s.capture := rfl
@[simp] theorem setList_phraseMissing (z : Zone) (l : List Claim) (s : State) :
    (setList z l s).phraseMissing = s.phraseMissing := rfl
@[simp] theorem setList_warden (z : Zone) (l : List Claim) (s : State) :
    (setList z l s).warden = s.warden := rfl
@[simp] theorem setList_lines (z : Zone) (l : List Claim) (s : State) :
    (setList z l s).lines = s.lines := rfl
@[simp] theorem setList_amps (z : Zone) (l : List Claim) (s : State) :
    (setList z l s).amps = s.amps := rfl
@[simp] theorem setList_standbyAmps (z : Zone) (l : List Claim) (s : State) :
    (setList z l s).standbyAmps = s.standbyAmps := rfl
@[simp] theorem setList_serving (z : Zone) (l : List Claim) (s : State) :
    (setList z l s).serving = s.serving := rfl
@[simp] theorem setList_windowEnd (z : Zone) (l : List Claim) (s : State) :
    (setList z l s).windowEnd = s.windowEnd := rfl
@[simp] theorem setList_rif (z : Zone) (l : List Claim) (s : State) :
    (setList z l s).rif = s.rif := rfl
@[simp] theorem setList_slots (z : Zone) (l : List Claim) (s : State) :
    (setList z l s).slots = s.slots := rfl
@[simp] theorem setList_cmdQueue (z : Zone) (l : List Claim) (s : State) :
    (setList z l s).cmdQueue = s.cmdQueue := rfl
@[simp] theorem setList_deferred (z : Zone) (l : List Claim) (s : State) :
    (setList z l s).deferred = s.deferred := rfl
@[simp] theorem setList_outbound (z : Zone) (l : List Claim) (s : State) :
    (setList z l s).outbound = s.outbound := rfl
@[simp] theorem setList_reserved (z : Zone) (l : List Claim) (s : State) :
    (setList z l s).reserved = s.reserved := rfl
@[simp] theorem setList_reports (z : Zone) (l : List Claim) (s : State) :
    (setList z l s).reports = s.reports := rfl
@[simp] theorem setList_reportOverflow (z : Zone) (l : List Claim) (s : State) :
    (setList z l s).reportOverflow = s.reportOverflow := rfl
@[simp] theorem setList_alarmLock (z : Zone) (l : List Claim) (s : State) :
    (setList z l s).alarmLock = s.alarmLock := rfl
@[simp] theorem setList_commit (z : Zone) (l : List Claim) (s : State) :
    (setList z l s).commit = s.commit := rfl
@[simp] theorem setList_restart (z : Zone) (l : List Claim) (s : State) :
    (setList z l s).restart = s.restart := rfl
@[simp] theorem setList_pending (z : Zone) (l : List Claim) (s : State) :
    (setList z l s).pending = s.pending := rfl

/-! ## setOut -/

@[simp] theorem setOut_phase (z : Zone) (x : ZoneOut) (s : State) :
    (setOut z x s).phase = s.phase := rfl
@[simp] theorem setOut_now (z : Zone) (x : ZoneOut) (s : State) : (setOut z x s).now = s.now := rfl
@[simp] theorem setOut_msDue (z : Zone) (x : ZoneOut) (s : State) :
    (setOut z x s).msDue = s.msDue := rfl
@[simp] theorem setOut_sampleTimes (z : Zone) (x : ZoneOut) (s : State) :
    (setOut z x s).sampleTimes = s.sampleTimes := rfl
@[simp] theorem setOut_pins (z : Zone) (x : ZoneOut) (s : State) :
    (setOut z x s).pins = s.pins := rfl
@[simp] theorem setOut_work (z : Zone) (x : ZoneOut) (s : State) :
    (setOut z x s).work = s.work := rfl
@[simp] theorem setOut_nv (z : Zone) (x : ZoneOut) (s : State) : (setOut z x s).nv = s.nv := rfl
@[simp] theorem setOut_nvOk (z : Zone) (x : ZoneOut) (s : State) :
    (setOut z x s).nvOk = s.nvOk := rfl
@[simp] theorem setOut_invalid (z : Zone) (x : ZoneOut) (s : State) :
    (setOut z x s).invalid = s.invalid := rfl
@[simp] theorem setOut_acts (z : Zone) (x : ZoneOut) (s : State) :
    (setOut z x s).acts = s.acts := rfl
@[simp] theorem setOut_overflow (z : Zone) (x : ZoneOut) (s : State) :
    (setOut z x s).overflow = s.overflow := rfl
@[simp] theorem setOut_defaultMode (z : Zone) (x : ZoneOut) (s : State) :
    (setOut z x s).defaultMode = s.defaultMode := rfl
@[simp] theorem setOut_inputs (z : Zone) (x : ZoneOut) (s : State) :
    (setOut z x s).inputs = s.inputs := rfl
@[simp] theorem setOut_hold (z : Zone) (x : ZoneOut) (s : State) :
    (setOut z x s).hold = s.hold := rfl
@[simp] theorem setOut_isoTimer (z : Zone) (x : ZoneOut) (s : State) :
    (setOut z x s).isoTimer = s.isoTimer := rfl
@[simp] theorem setOut_isoEscalated (z : Zone) (x : ZoneOut) (s : State) :
    (setOut z x s).isoEscalated = s.isoEscalated := rfl
@[simp] theorem setOut_lists (z : Zone) (x : ZoneOut) (s : State) :
    (setOut z x s).lists = s.lists := rfl
@[simp] theorem setOut_cads (z : Zone) (x : ZoneOut) (s : State) :
    (setOut z x s).cads = s.cads := rfl
@[simp] theorem setOut_chans (z : Zone) (x : ZoneOut) (s : State) :
    (setOut z x s).chans = s.chans := rfl
@[simp] theorem setOut_store (z : Zone) (x : ZoneOut) (s : State) :
    (setOut z x s).store = s.store := rfl
@[simp] theorem setOut_capture (z : Zone) (x : ZoneOut) (s : State) :
    (setOut z x s).capture = s.capture := rfl
@[simp] theorem setOut_phraseMissing (z : Zone) (x : ZoneOut) (s : State) :
    (setOut z x s).phraseMissing = s.phraseMissing := rfl
@[simp] theorem setOut_warden (z : Zone) (x : ZoneOut) (s : State) :
    (setOut z x s).warden = s.warden := rfl
@[simp] theorem setOut_lines (z : Zone) (x : ZoneOut) (s : State) :
    (setOut z x s).lines = s.lines := rfl
@[simp] theorem setOut_amps (z : Zone) (x : ZoneOut) (s : State) :
    (setOut z x s).amps = s.amps := rfl
@[simp] theorem setOut_standbyAmps (z : Zone) (x : ZoneOut) (s : State) :
    (setOut z x s).standbyAmps = s.standbyAmps := rfl
@[simp] theorem setOut_serving (z : Zone) (x : ZoneOut) (s : State) :
    (setOut z x s).serving = s.serving := rfl
@[simp] theorem setOut_windowEnd (z : Zone) (x : ZoneOut) (s : State) :
    (setOut z x s).windowEnd = s.windowEnd := rfl
@[simp] theorem setOut_rif (z : Zone) (x : ZoneOut) (s : State) : (setOut z x s).rif = s.rif := rfl
@[simp] theorem setOut_slots (z : Zone) (x : ZoneOut) (s : State) :
    (setOut z x s).slots = s.slots := rfl
@[simp] theorem setOut_cmdQueue (z : Zone) (x : ZoneOut) (s : State) :
    (setOut z x s).cmdQueue = s.cmdQueue := rfl
@[simp] theorem setOut_deferred (z : Zone) (x : ZoneOut) (s : State) :
    (setOut z x s).deferred = s.deferred := rfl
@[simp] theorem setOut_outbound (z : Zone) (x : ZoneOut) (s : State) :
    (setOut z x s).outbound = s.outbound := rfl
@[simp] theorem setOut_reserved (z : Zone) (x : ZoneOut) (s : State) :
    (setOut z x s).reserved = s.reserved := rfl
@[simp] theorem setOut_reports (z : Zone) (x : ZoneOut) (s : State) :
    (setOut z x s).reports = s.reports := rfl
@[simp] theorem setOut_reportOverflow (z : Zone) (x : ZoneOut) (s : State) :
    (setOut z x s).reportOverflow = s.reportOverflow := rfl
@[simp] theorem setOut_alarmLock (z : Zone) (x : ZoneOut) (s : State) :
    (setOut z x s).alarmLock = s.alarmLock := rfl
@[simp] theorem setOut_commit (z : Zone) (x : ZoneOut) (s : State) :
    (setOut z x s).commit = s.commit := rfl
@[simp] theorem setOut_restart (z : Zone) (x : ZoneOut) (s : State) :
    (setOut z x s).restart = s.restart := rfl
@[simp] theorem setOut_pending (z : Zone) (x : ZoneOut) (s : State) :
    (setOut z x s).pending = s.pending := rfl

/-! ## setServing -/

@[simp] theorem setServing_phase (k : Fin 2) (z : Option Zone) (s : State) :
    (setServing k z s).phase = s.phase := rfl
@[simp] theorem setServing_now (k : Fin 2) (z : Option Zone) (s : State) :
    (setServing k z s).now = s.now := rfl
@[simp] theorem setServing_msDue (k : Fin 2) (z : Option Zone) (s : State) :
    (setServing k z s).msDue = s.msDue := rfl
@[simp] theorem setServing_sampleTimes (k : Fin 2) (z : Option Zone) (s : State) :
    (setServing k z s).sampleTimes = s.sampleTimes := rfl
@[simp] theorem setServing_pins (k : Fin 2) (z : Option Zone) (s : State) :
    (setServing k z s).pins = s.pins := rfl
@[simp] theorem setServing_work (k : Fin 2) (z : Option Zone) (s : State) :
    (setServing k z s).work = s.work := rfl
@[simp] theorem setServing_nv (k : Fin 2) (z : Option Zone) (s : State) :
    (setServing k z s).nv = s.nv := rfl
@[simp] theorem setServing_nvOk (k : Fin 2) (z : Option Zone) (s : State) :
    (setServing k z s).nvOk = s.nvOk := rfl
@[simp] theorem setServing_invalid (k : Fin 2) (z : Option Zone) (s : State) :
    (setServing k z s).invalid = s.invalid := rfl
@[simp] theorem setServing_acts (k : Fin 2) (z : Option Zone) (s : State) :
    (setServing k z s).acts = s.acts := rfl
@[simp] theorem setServing_overflow (k : Fin 2) (z : Option Zone) (s : State) :
    (setServing k z s).overflow = s.overflow := rfl
@[simp] theorem setServing_defaultMode (k : Fin 2) (z : Option Zone) (s : State) :
    (setServing k z s).defaultMode = s.defaultMode := rfl
@[simp] theorem setServing_inputs (k : Fin 2) (z : Option Zone) (s : State) :
    (setServing k z s).inputs = s.inputs := rfl
@[simp] theorem setServing_hold (k : Fin 2) (z : Option Zone) (s : State) :
    (setServing k z s).hold = s.hold := rfl
@[simp] theorem setServing_isoTimer (k : Fin 2) (z : Option Zone) (s : State) :
    (setServing k z s).isoTimer = s.isoTimer := rfl
@[simp] theorem setServing_isoEscalated (k : Fin 2) (z : Option Zone) (s : State) :
    (setServing k z s).isoEscalated = s.isoEscalated := rfl
@[simp] theorem setServing_lists (k : Fin 2) (z : Option Zone) (s : State) :
    (setServing k z s).lists = s.lists := rfl
@[simp] theorem setServing_outs (k : Fin 2) (z : Option Zone) (s : State) :
    (setServing k z s).outs = s.outs := rfl
@[simp] theorem setServing_cads (k : Fin 2) (z : Option Zone) (s : State) :
    (setServing k z s).cads = s.cads := rfl
@[simp] theorem setServing_chans (k : Fin 2) (z : Option Zone) (s : State) :
    (setServing k z s).chans = s.chans := rfl
@[simp] theorem setServing_store (k : Fin 2) (z : Option Zone) (s : State) :
    (setServing k z s).store = s.store := rfl
@[simp] theorem setServing_capture (k : Fin 2) (z : Option Zone) (s : State) :
    (setServing k z s).capture = s.capture := rfl
@[simp] theorem setServing_phraseMissing (k : Fin 2) (z : Option Zone) (s : State) :
    (setServing k z s).phraseMissing = s.phraseMissing := rfl
@[simp] theorem setServing_warden (k : Fin 2) (z : Option Zone) (s : State) :
    (setServing k z s).warden = s.warden := rfl
@[simp] theorem setServing_lines (k : Fin 2) (z : Option Zone) (s : State) :
    (setServing k z s).lines = s.lines := rfl
@[simp] theorem setServing_amps (k : Fin 2) (z : Option Zone) (s : State) :
    (setServing k z s).amps = s.amps := rfl
@[simp] theorem setServing_standbyAmps (k : Fin 2) (z : Option Zone) (s : State) :
    (setServing k z s).standbyAmps = s.standbyAmps := rfl
@[simp] theorem setServing_windowEnd (k : Fin 2) (z : Option Zone) (s : State) :
    (setServing k z s).windowEnd = s.windowEnd := rfl
@[simp] theorem setServing_rif (k : Fin 2) (z : Option Zone) (s : State) :
    (setServing k z s).rif = s.rif := rfl
@[simp] theorem setServing_slots (k : Fin 2) (z : Option Zone) (s : State) :
    (setServing k z s).slots = s.slots := rfl
@[simp] theorem setServing_cmdQueue (k : Fin 2) (z : Option Zone) (s : State) :
    (setServing k z s).cmdQueue = s.cmdQueue := rfl
@[simp] theorem setServing_deferred (k : Fin 2) (z : Option Zone) (s : State) :
    (setServing k z s).deferred = s.deferred := rfl
@[simp] theorem setServing_outbound (k : Fin 2) (z : Option Zone) (s : State) :
    (setServing k z s).outbound = s.outbound := rfl
@[simp] theorem setServing_reserved (k : Fin 2) (z : Option Zone) (s : State) :
    (setServing k z s).reserved = s.reserved := rfl
@[simp] theorem setServing_reports (k : Fin 2) (z : Option Zone) (s : State) :
    (setServing k z s).reports = s.reports := rfl
@[simp] theorem setServing_reportOverflow (k : Fin 2) (z : Option Zone) (s : State) :
    (setServing k z s).reportOverflow = s.reportOverflow := rfl
@[simp] theorem setServing_alarmLock (k : Fin 2) (z : Option Zone) (s : State) :
    (setServing k z s).alarmLock = s.alarmLock := rfl
@[simp] theorem setServing_commit (k : Fin 2) (z : Option Zone) (s : State) :
    (setServing k z s).commit = s.commit := rfl
@[simp] theorem setServing_restart (k : Fin 2) (z : Option Zone) (s : State) :
    (setServing k z s).restart = s.restart := rfl
@[simp] theorem setServing_pending (k : Fin 2) (z : Option Zone) (s : State) :
    (setServing k z s).pending = s.pending := rfl

/-! ## setChan -/

@[simp] theorem setChan_phase (n : Fin 4) (f : ChanRun → ChanRun) (s : State) :
    (setChan n f s).phase = s.phase := rfl
@[simp] theorem setChan_now (n : Fin 4) (f : ChanRun → ChanRun) (s : State) :
    (setChan n f s).now = s.now := rfl
@[simp] theorem setChan_msDue (n : Fin 4) (f : ChanRun → ChanRun) (s : State) :
    (setChan n f s).msDue = s.msDue := rfl
@[simp] theorem setChan_sampleTimes (n : Fin 4) (f : ChanRun → ChanRun) (s : State) :
    (setChan n f s).sampleTimes = s.sampleTimes := rfl
@[simp] theorem setChan_pins (n : Fin 4) (f : ChanRun → ChanRun) (s : State) :
    (setChan n f s).pins = s.pins := rfl
@[simp] theorem setChan_work (n : Fin 4) (f : ChanRun → ChanRun) (s : State) :
    (setChan n f s).work = s.work := rfl
@[simp] theorem setChan_nv (n : Fin 4) (f : ChanRun → ChanRun) (s : State) :
    (setChan n f s).nv = s.nv := rfl
@[simp] theorem setChan_nvOk (n : Fin 4) (f : ChanRun → ChanRun) (s : State) :
    (setChan n f s).nvOk = s.nvOk := rfl
@[simp] theorem setChan_invalid (n : Fin 4) (f : ChanRun → ChanRun) (s : State) :
    (setChan n f s).invalid = s.invalid := rfl
@[simp] theorem setChan_acts (n : Fin 4) (f : ChanRun → ChanRun) (s : State) :
    (setChan n f s).acts = s.acts := rfl
@[simp] theorem setChan_overflow (n : Fin 4) (f : ChanRun → ChanRun) (s : State) :
    (setChan n f s).overflow = s.overflow := rfl
@[simp] theorem setChan_defaultMode (n : Fin 4) (f : ChanRun → ChanRun) (s : State) :
    (setChan n f s).defaultMode = s.defaultMode := rfl
@[simp] theorem setChan_inputs (n : Fin 4) (f : ChanRun → ChanRun) (s : State) :
    (setChan n f s).inputs = s.inputs := rfl
@[simp] theorem setChan_hold (n : Fin 4) (f : ChanRun → ChanRun) (s : State) :
    (setChan n f s).hold = s.hold := rfl
@[simp] theorem setChan_isoTimer (n : Fin 4) (f : ChanRun → ChanRun) (s : State) :
    (setChan n f s).isoTimer = s.isoTimer := rfl
@[simp] theorem setChan_isoEscalated (n : Fin 4) (f : ChanRun → ChanRun) (s : State) :
    (setChan n f s).isoEscalated = s.isoEscalated := rfl
@[simp] theorem setChan_lists (n : Fin 4) (f : ChanRun → ChanRun) (s : State) :
    (setChan n f s).lists = s.lists := rfl
@[simp] theorem setChan_outs (n : Fin 4) (f : ChanRun → ChanRun) (s : State) :
    (setChan n f s).outs = s.outs := rfl
@[simp] theorem setChan_cads (n : Fin 4) (f : ChanRun → ChanRun) (s : State) :
    (setChan n f s).cads = s.cads := rfl
@[simp] theorem setChan_store (n : Fin 4) (f : ChanRun → ChanRun) (s : State) :
    (setChan n f s).store = s.store := rfl
@[simp] theorem setChan_capture (n : Fin 4) (f : ChanRun → ChanRun) (s : State) :
    (setChan n f s).capture = s.capture := rfl
@[simp] theorem setChan_phraseMissing (n : Fin 4) (f : ChanRun → ChanRun) (s : State) :
    (setChan n f s).phraseMissing = s.phraseMissing := rfl
@[simp] theorem setChan_warden (n : Fin 4) (f : ChanRun → ChanRun) (s : State) :
    (setChan n f s).warden = s.warden := rfl
@[simp] theorem setChan_lines (n : Fin 4) (f : ChanRun → ChanRun) (s : State) :
    (setChan n f s).lines = s.lines := rfl
@[simp] theorem setChan_amps (n : Fin 4) (f : ChanRun → ChanRun) (s : State) :
    (setChan n f s).amps = s.amps := rfl
@[simp] theorem setChan_standbyAmps (n : Fin 4) (f : ChanRun → ChanRun) (s : State) :
    (setChan n f s).standbyAmps = s.standbyAmps := rfl
@[simp] theorem setChan_serving (n : Fin 4) (f : ChanRun → ChanRun) (s : State) :
    (setChan n f s).serving = s.serving := rfl
@[simp] theorem setChan_windowEnd (n : Fin 4) (f : ChanRun → ChanRun) (s : State) :
    (setChan n f s).windowEnd = s.windowEnd := rfl
@[simp] theorem setChan_rif (n : Fin 4) (f : ChanRun → ChanRun) (s : State) :
    (setChan n f s).rif = s.rif := rfl
@[simp] theorem setChan_slots (n : Fin 4) (f : ChanRun → ChanRun) (s : State) :
    (setChan n f s).slots = s.slots := rfl
@[simp] theorem setChan_cmdQueue (n : Fin 4) (f : ChanRun → ChanRun) (s : State) :
    (setChan n f s).cmdQueue = s.cmdQueue := rfl
@[simp] theorem setChan_deferred (n : Fin 4) (f : ChanRun → ChanRun) (s : State) :
    (setChan n f s).deferred = s.deferred := rfl
@[simp] theorem setChan_outbound (n : Fin 4) (f : ChanRun → ChanRun) (s : State) :
    (setChan n f s).outbound = s.outbound := rfl
@[simp] theorem setChan_reserved (n : Fin 4) (f : ChanRun → ChanRun) (s : State) :
    (setChan n f s).reserved = s.reserved := rfl
@[simp] theorem setChan_reports (n : Fin 4) (f : ChanRun → ChanRun) (s : State) :
    (setChan n f s).reports = s.reports := rfl
@[simp] theorem setChan_reportOverflow (n : Fin 4) (f : ChanRun → ChanRun) (s : State) :
    (setChan n f s).reportOverflow = s.reportOverflow := rfl
@[simp] theorem setChan_alarmLock (n : Fin 4) (f : ChanRun → ChanRun) (s : State) :
    (setChan n f s).alarmLock = s.alarmLock := rfl
@[simp] theorem setChan_commit (n : Fin 4) (f : ChanRun → ChanRun) (s : State) :
    (setChan n f s).commit = s.commit := rfl
@[simp] theorem setChan_restart (n : Fin 4) (f : ChanRun → ChanRun) (s : State) :
    (setChan n f s).restart = s.restart := rfl
@[simp] theorem setChan_pending (n : Fin 4) (f : ChanRun → ChanRun) (s : State) :
    (setChan n f s).pending = s.pending := rfl

/-! ## setRif -/

@[simp] theorem setRif_phase (f : Rif → Rif) (s : State) : (setRif f s).phase = s.phase := rfl
@[simp] theorem setRif_now (f : Rif → Rif) (s : State) : (setRif f s).now = s.now := rfl
@[simp] theorem setRif_msDue (f : Rif → Rif) (s : State) : (setRif f s).msDue = s.msDue := rfl
@[simp] theorem setRif_sampleTimes (f : Rif → Rif) (s : State) :
    (setRif f s).sampleTimes = s.sampleTimes := rfl
@[simp] theorem setRif_pins (f : Rif → Rif) (s : State) : (setRif f s).pins = s.pins := rfl
@[simp] theorem setRif_work (f : Rif → Rif) (s : State) : (setRif f s).work = s.work := rfl
@[simp] theorem setRif_nv (f : Rif → Rif) (s : State) : (setRif f s).nv = s.nv := rfl
@[simp] theorem setRif_nvOk (f : Rif → Rif) (s : State) : (setRif f s).nvOk = s.nvOk := rfl
@[simp] theorem setRif_invalid (f : Rif → Rif) (s : State) : (setRif f s).invalid = s.invalid := rfl
@[simp] theorem setRif_acts (f : Rif → Rif) (s : State) : (setRif f s).acts = s.acts := rfl
@[simp] theorem setRif_overflow (f : Rif → Rif) (s : State) :
    (setRif f s).overflow = s.overflow := rfl
@[simp] theorem setRif_defaultMode (f : Rif → Rif) (s : State) :
    (setRif f s).defaultMode = s.defaultMode := rfl
@[simp] theorem setRif_inputs (f : Rif → Rif) (s : State) : (setRif f s).inputs = s.inputs := rfl
@[simp] theorem setRif_hold (f : Rif → Rif) (s : State) : (setRif f s).hold = s.hold := rfl
@[simp] theorem setRif_isoTimer (f : Rif → Rif) (s : State) :
    (setRif f s).isoTimer = s.isoTimer := rfl
@[simp] theorem setRif_isoEscalated (f : Rif → Rif) (s : State) :
    (setRif f s).isoEscalated = s.isoEscalated := rfl
@[simp] theorem setRif_lists (f : Rif → Rif) (s : State) : (setRif f s).lists = s.lists := rfl
@[simp] theorem setRif_outs (f : Rif → Rif) (s : State) : (setRif f s).outs = s.outs := rfl
@[simp] theorem setRif_cads (f : Rif → Rif) (s : State) : (setRif f s).cads = s.cads := rfl
@[simp] theorem setRif_chans (f : Rif → Rif) (s : State) : (setRif f s).chans = s.chans := rfl
@[simp] theorem setRif_store (f : Rif → Rif) (s : State) : (setRif f s).store = s.store := rfl
@[simp] theorem setRif_capture (f : Rif → Rif) (s : State) : (setRif f s).capture = s.capture := rfl
@[simp] theorem setRif_phraseMissing (f : Rif → Rif) (s : State) :
    (setRif f s).phraseMissing = s.phraseMissing := rfl
@[simp] theorem setRif_warden (f : Rif → Rif) (s : State) : (setRif f s).warden = s.warden := rfl
@[simp] theorem setRif_lines (f : Rif → Rif) (s : State) : (setRif f s).lines = s.lines := rfl
@[simp] theorem setRif_amps (f : Rif → Rif) (s : State) : (setRif f s).amps = s.amps := rfl
@[simp] theorem setRif_standbyAmps (f : Rif → Rif) (s : State) :
    (setRif f s).standbyAmps = s.standbyAmps := rfl
@[simp] theorem setRif_serving (f : Rif → Rif) (s : State) : (setRif f s).serving = s.serving := rfl
@[simp] theorem setRif_windowEnd (f : Rif → Rif) (s : State) :
    (setRif f s).windowEnd = s.windowEnd := rfl
@[simp] theorem setRif_slots (f : Rif → Rif) (s : State) : (setRif f s).slots = s.slots := rfl
@[simp] theorem setRif_cmdQueue (f : Rif → Rif) (s : State) :
    (setRif f s).cmdQueue = s.cmdQueue := rfl
@[simp] theorem setRif_deferred (f : Rif → Rif) (s : State) :
    (setRif f s).deferred = s.deferred := rfl
@[simp] theorem setRif_outbound (f : Rif → Rif) (s : State) :
    (setRif f s).outbound = s.outbound := rfl
@[simp] theorem setRif_reserved (f : Rif → Rif) (s : State) :
    (setRif f s).reserved = s.reserved := rfl
@[simp] theorem setRif_reports (f : Rif → Rif) (s : State) : (setRif f s).reports = s.reports := rfl
@[simp] theorem setRif_reportOverflow (f : Rif → Rif) (s : State) :
    (setRif f s).reportOverflow = s.reportOverflow := rfl
@[simp] theorem setRif_alarmLock (f : Rif → Rif) (s : State) :
    (setRif f s).alarmLock = s.alarmLock := rfl
@[simp] theorem setRif_commit (f : Rif → Rif) (s : State) : (setRif f s).commit = s.commit := rfl
@[simp] theorem setRif_restart (f : Rif → Rif) (s : State) : (setRif f s).restart = s.restart := rfl
@[simp] theorem setRif_pending (f : Rif → Rif) (s : State) : (setRif f s).pending = s.pending := rfl

/-! ## setWarden -/

@[simp] theorem setWarden_phase (f : Warden → Warden) (s : State) :
    (setWarden f s).phase = s.phase := rfl
@[simp] theorem setWarden_now (f : Warden → Warden) (s : State) : (setWarden f s).now = s.now := rfl
@[simp] theorem setWarden_msDue (f : Warden → Warden) (s : State) :
    (setWarden f s).msDue = s.msDue := rfl
@[simp] theorem setWarden_sampleTimes (f : Warden → Warden) (s : State) :
    (setWarden f s).sampleTimes = s.sampleTimes := rfl
@[simp] theorem setWarden_pins (f : Warden → Warden) (s : State) :
    (setWarden f s).pins = s.pins := rfl
@[simp] theorem setWarden_work (f : Warden → Warden) (s : State) :
    (setWarden f s).work = s.work := rfl
@[simp] theorem setWarden_nv (f : Warden → Warden) (s : State) : (setWarden f s).nv = s.nv := rfl
@[simp] theorem setWarden_nvOk (f : Warden → Warden) (s : State) :
    (setWarden f s).nvOk = s.nvOk := rfl
@[simp] theorem setWarden_invalid (f : Warden → Warden) (s : State) :
    (setWarden f s).invalid = s.invalid := rfl
@[simp] theorem setWarden_acts (f : Warden → Warden) (s : State) :
    (setWarden f s).acts = s.acts := rfl
@[simp] theorem setWarden_overflow (f : Warden → Warden) (s : State) :
    (setWarden f s).overflow = s.overflow := rfl
@[simp] theorem setWarden_defaultMode (f : Warden → Warden) (s : State) :
    (setWarden f s).defaultMode = s.defaultMode := rfl
@[simp] theorem setWarden_inputs (f : Warden → Warden) (s : State) :
    (setWarden f s).inputs = s.inputs := rfl
@[simp] theorem setWarden_hold (f : Warden → Warden) (s : State) :
    (setWarden f s).hold = s.hold := rfl
@[simp] theorem setWarden_isoTimer (f : Warden → Warden) (s : State) :
    (setWarden f s).isoTimer = s.isoTimer := rfl
@[simp] theorem setWarden_isoEscalated (f : Warden → Warden) (s : State) :
    (setWarden f s).isoEscalated = s.isoEscalated := rfl
@[simp] theorem setWarden_lists (f : Warden → Warden) (s : State) :
    (setWarden f s).lists = s.lists := rfl
@[simp] theorem setWarden_outs (f : Warden → Warden) (s : State) :
    (setWarden f s).outs = s.outs := rfl
@[simp] theorem setWarden_cads (f : Warden → Warden) (s : State) :
    (setWarden f s).cads = s.cads := rfl
@[simp] theorem setWarden_chans (f : Warden → Warden) (s : State) :
    (setWarden f s).chans = s.chans := rfl
@[simp] theorem setWarden_store (f : Warden → Warden) (s : State) :
    (setWarden f s).store = s.store := rfl
@[simp] theorem setWarden_capture (f : Warden → Warden) (s : State) :
    (setWarden f s).capture = s.capture := rfl
@[simp] theorem setWarden_phraseMissing (f : Warden → Warden) (s : State) :
    (setWarden f s).phraseMissing = s.phraseMissing := rfl
@[simp] theorem setWarden_lines (f : Warden → Warden) (s : State) :
    (setWarden f s).lines = s.lines := rfl
@[simp] theorem setWarden_amps (f : Warden → Warden) (s : State) :
    (setWarden f s).amps = s.amps := rfl
@[simp] theorem setWarden_standbyAmps (f : Warden → Warden) (s : State) :
    (setWarden f s).standbyAmps = s.standbyAmps := rfl
@[simp] theorem setWarden_serving (f : Warden → Warden) (s : State) :
    (setWarden f s).serving = s.serving := rfl
@[simp] theorem setWarden_windowEnd (f : Warden → Warden) (s : State) :
    (setWarden f s).windowEnd = s.windowEnd := rfl
@[simp] theorem setWarden_rif (f : Warden → Warden) (s : State) : (setWarden f s).rif = s.rif := rfl
@[simp] theorem setWarden_slots (f : Warden → Warden) (s : State) :
    (setWarden f s).slots = s.slots := rfl
@[simp] theorem setWarden_cmdQueue (f : Warden → Warden) (s : State) :
    (setWarden f s).cmdQueue = s.cmdQueue := rfl
@[simp] theorem setWarden_deferred (f : Warden → Warden) (s : State) :
    (setWarden f s).deferred = s.deferred := rfl
@[simp] theorem setWarden_outbound (f : Warden → Warden) (s : State) :
    (setWarden f s).outbound = s.outbound := rfl
@[simp] theorem setWarden_reserved (f : Warden → Warden) (s : State) :
    (setWarden f s).reserved = s.reserved := rfl
@[simp] theorem setWarden_reports (f : Warden → Warden) (s : State) :
    (setWarden f s).reports = s.reports := rfl
@[simp] theorem setWarden_reportOverflow (f : Warden → Warden) (s : State) :
    (setWarden f s).reportOverflow = s.reportOverflow := rfl
@[simp] theorem setWarden_alarmLock (f : Warden → Warden) (s : State) :
    (setWarden f s).alarmLock = s.alarmLock := rfl
@[simp] theorem setWarden_commit (f : Warden → Warden) (s : State) :
    (setWarden f s).commit = s.commit := rfl
@[simp] theorem setWarden_restart (f : Warden → Warden) (s : State) :
    (setWarden f s).restart = s.restart := rfl
@[simp] theorem setWarden_pending (f : Warden → Warden) (s : State) :
    (setWarden f s).pending = s.pending := rfl

/-! ## setSlots -/

@[simp] theorem setSlots_phase (f : SlotTable → SlotTable) (s : State) :
    (setSlots f s).phase = s.phase := rfl
@[simp] theorem setSlots_now (f : SlotTable → SlotTable) (s : State) :
    (setSlots f s).now = s.now := rfl
@[simp] theorem setSlots_msDue (f : SlotTable → SlotTable) (s : State) :
    (setSlots f s).msDue = s.msDue := rfl
@[simp] theorem setSlots_sampleTimes (f : SlotTable → SlotTable) (s : State) :
    (setSlots f s).sampleTimes = s.sampleTimes := rfl
@[simp] theorem setSlots_pins (f : SlotTable → SlotTable) (s : State) :
    (setSlots f s).pins = s.pins := rfl
@[simp] theorem setSlots_work (f : SlotTable → SlotTable) (s : State) :
    (setSlots f s).work = s.work := rfl
@[simp] theorem setSlots_nv (f : SlotTable → SlotTable) (s : State) : (setSlots f s).nv = s.nv := rfl
@[simp] theorem setSlots_nvOk (f : SlotTable → SlotTable) (s : State) :
    (setSlots f s).nvOk = s.nvOk := rfl
@[simp] theorem setSlots_invalid (f : SlotTable → SlotTable) (s : State) :
    (setSlots f s).invalid = s.invalid := rfl
@[simp] theorem setSlots_acts (f : SlotTable → SlotTable) (s : State) :
    (setSlots f s).acts = s.acts := rfl
@[simp] theorem setSlots_overflow (f : SlotTable → SlotTable) (s : State) :
    (setSlots f s).overflow = s.overflow := rfl
@[simp] theorem setSlots_defaultMode (f : SlotTable → SlotTable) (s : State) :
    (setSlots f s).defaultMode = s.defaultMode := rfl
@[simp] theorem setSlots_inputs (f : SlotTable → SlotTable) (s : State) :
    (setSlots f s).inputs = s.inputs := rfl
@[simp] theorem setSlots_hold (f : SlotTable → SlotTable) (s : State) :
    (setSlots f s).hold = s.hold := rfl
@[simp] theorem setSlots_isoTimer (f : SlotTable → SlotTable) (s : State) :
    (setSlots f s).isoTimer = s.isoTimer := rfl
@[simp] theorem setSlots_isoEscalated (f : SlotTable → SlotTable) (s : State) :
    (setSlots f s).isoEscalated = s.isoEscalated := rfl
@[simp] theorem setSlots_lists (f : SlotTable → SlotTable) (s : State) :
    (setSlots f s).lists = s.lists := rfl
@[simp] theorem setSlots_outs (f : SlotTable → SlotTable) (s : State) :
    (setSlots f s).outs = s.outs := rfl
@[simp] theorem setSlots_cads (f : SlotTable → SlotTable) (s : State) :
    (setSlots f s).cads = s.cads := rfl
@[simp] theorem setSlots_chans (f : SlotTable → SlotTable) (s : State) :
    (setSlots f s).chans = s.chans := rfl
@[simp] theorem setSlots_store (f : SlotTable → SlotTable) (s : State) :
    (setSlots f s).store = s.store := rfl
@[simp] theorem setSlots_capture (f : SlotTable → SlotTable) (s : State) :
    (setSlots f s).capture = s.capture := rfl
@[simp] theorem setSlots_phraseMissing (f : SlotTable → SlotTable) (s : State) :
    (setSlots f s).phraseMissing = s.phraseMissing := rfl
@[simp] theorem setSlots_warden (f : SlotTable → SlotTable) (s : State) :
    (setSlots f s).warden = s.warden := rfl
@[simp] theorem setSlots_lines (f : SlotTable → SlotTable) (s : State) :
    (setSlots f s).lines = s.lines := rfl
@[simp] theorem setSlots_amps (f : SlotTable → SlotTable) (s : State) :
    (setSlots f s).amps = s.amps := rfl
@[simp] theorem setSlots_standbyAmps (f : SlotTable → SlotTable) (s : State) :
    (setSlots f s).standbyAmps = s.standbyAmps := rfl
@[simp] theorem setSlots_serving (f : SlotTable → SlotTable) (s : State) :
    (setSlots f s).serving = s.serving := rfl
@[simp] theorem setSlots_windowEnd (f : SlotTable → SlotTable) (s : State) :
    (setSlots f s).windowEnd = s.windowEnd := rfl
@[simp] theorem setSlots_rif (f : SlotTable → SlotTable) (s : State) :
    (setSlots f s).rif = s.rif := rfl
@[simp] theorem setSlots_cmdQueue (f : SlotTable → SlotTable) (s : State) :
    (setSlots f s).cmdQueue = s.cmdQueue := rfl
@[simp] theorem setSlots_deferred (f : SlotTable → SlotTable) (s : State) :
    (setSlots f s).deferred = s.deferred := rfl
@[simp] theorem setSlots_outbound (f : SlotTable → SlotTable) (s : State) :
    (setSlots f s).outbound = s.outbound := rfl
@[simp] theorem setSlots_reserved (f : SlotTable → SlotTable) (s : State) :
    (setSlots f s).reserved = s.reserved := rfl
@[simp] theorem setSlots_reports (f : SlotTable → SlotTable) (s : State) :
    (setSlots f s).reports = s.reports := rfl
@[simp] theorem setSlots_reportOverflow (f : SlotTable → SlotTable) (s : State) :
    (setSlots f s).reportOverflow = s.reportOverflow := rfl
@[simp] theorem setSlots_alarmLock (f : SlotTable → SlotTable) (s : State) :
    (setSlots f s).alarmLock = s.alarmLock := rfl
@[simp] theorem setSlots_commit (f : SlotTable → SlotTable) (s : State) :
    (setSlots f s).commit = s.commit := rfl
@[simp] theorem setSlots_restart (f : SlotTable → SlotTable) (s : State) :
    (setSlots f s).restart = s.restart := rfl
@[simp] theorem setSlots_pending (f : SlotTable → SlotTable) (s : State) :
    (setSlots f s).pending = s.pending := rfl

/-! ## mapRecord -/

@[simp] theorem mapRecord_phase (dz : Nat) (f : ActRecord → ActRecord) (s : State) :
    (mapRecord dz f s).phase = s.phase := rfl
@[simp] theorem mapRecord_now (dz : Nat) (f : ActRecord → ActRecord) (s : State) :
    (mapRecord dz f s).now = s.now := rfl
@[simp] theorem mapRecord_msDue (dz : Nat) (f : ActRecord → ActRecord) (s : State) :
    (mapRecord dz f s).msDue = s.msDue := rfl
@[simp] theorem mapRecord_sampleTimes (dz : Nat) (f : ActRecord → ActRecord) (s : State) :
    (mapRecord dz f s).sampleTimes = s.sampleTimes := rfl
@[simp] theorem mapRecord_pins (dz : Nat) (f : ActRecord → ActRecord) (s : State) :
    (mapRecord dz f s).pins = s.pins := rfl
@[simp] theorem mapRecord_work (dz : Nat) (f : ActRecord → ActRecord) (s : State) :
    (mapRecord dz f s).work = s.work := rfl
@[simp] theorem mapRecord_nv (dz : Nat) (f : ActRecord → ActRecord) (s : State) :
    (mapRecord dz f s).nv = s.nv := rfl
@[simp] theorem mapRecord_nvOk (dz : Nat) (f : ActRecord → ActRecord) (s : State) :
    (mapRecord dz f s).nvOk = s.nvOk := rfl
@[simp] theorem mapRecord_invalid (dz : Nat) (f : ActRecord → ActRecord) (s : State) :
    (mapRecord dz f s).invalid = s.invalid := rfl
@[simp] theorem mapRecord_overflow (dz : Nat) (f : ActRecord → ActRecord) (s : State) :
    (mapRecord dz f s).overflow = s.overflow := rfl
@[simp] theorem mapRecord_defaultMode (dz : Nat) (f : ActRecord → ActRecord) (s : State) :
    (mapRecord dz f s).defaultMode = s.defaultMode := rfl
@[simp] theorem mapRecord_inputs (dz : Nat) (f : ActRecord → ActRecord) (s : State) :
    (mapRecord dz f s).inputs = s.inputs := rfl
@[simp] theorem mapRecord_hold (dz : Nat) (f : ActRecord → ActRecord) (s : State) :
    (mapRecord dz f s).hold = s.hold := rfl
@[simp] theorem mapRecord_isoTimer (dz : Nat) (f : ActRecord → ActRecord) (s : State) :
    (mapRecord dz f s).isoTimer = s.isoTimer := rfl
@[simp] theorem mapRecord_isoEscalated (dz : Nat) (f : ActRecord → ActRecord) (s : State) :
    (mapRecord dz f s).isoEscalated = s.isoEscalated := rfl
@[simp] theorem mapRecord_lists (dz : Nat) (f : ActRecord → ActRecord) (s : State) :
    (mapRecord dz f s).lists = s.lists := rfl
@[simp] theorem mapRecord_outs (dz : Nat) (f : ActRecord → ActRecord) (s : State) :
    (mapRecord dz f s).outs = s.outs := rfl
@[simp] theorem mapRecord_cads (dz : Nat) (f : ActRecord → ActRecord) (s : State) :
    (mapRecord dz f s).cads = s.cads := rfl
@[simp] theorem mapRecord_chans (dz : Nat) (f : ActRecord → ActRecord) (s : State) :
    (mapRecord dz f s).chans = s.chans := rfl
@[simp] theorem mapRecord_store (dz : Nat) (f : ActRecord → ActRecord) (s : State) :
    (mapRecord dz f s).store = s.store := rfl
@[simp] theorem mapRecord_capture (dz : Nat) (f : ActRecord → ActRecord) (s : State) :
    (mapRecord dz f s).capture = s.capture := rfl
@[simp] theorem mapRecord_phraseMissing (dz : Nat) (f : ActRecord → ActRecord) (s : State) :
    (mapRecord dz f s).phraseMissing = s.phraseMissing := rfl
@[simp] theorem mapRecord_warden (dz : Nat) (f : ActRecord → ActRecord) (s : State) :
    (mapRecord dz f s).warden = s.warden := rfl
@[simp] theorem mapRecord_lines (dz : Nat) (f : ActRecord → ActRecord) (s : State) :
    (mapRecord dz f s).lines = s.lines := rfl
@[simp] theorem mapRecord_amps (dz : Nat) (f : ActRecord → ActRecord) (s : State) :
    (mapRecord dz f s).amps = s.amps := rfl
@[simp] theorem mapRecord_standbyAmps (dz : Nat) (f : ActRecord → ActRecord) (s : State) :
    (mapRecord dz f s).standbyAmps = s.standbyAmps := rfl
@[simp] theorem mapRecord_serving (dz : Nat) (f : ActRecord → ActRecord) (s : State) :
    (mapRecord dz f s).serving = s.serving := rfl
@[simp] theorem mapRecord_windowEnd (dz : Nat) (f : ActRecord → ActRecord) (s : State) :
    (mapRecord dz f s).windowEnd = s.windowEnd := rfl
@[simp] theorem mapRecord_rif (dz : Nat) (f : ActRecord → ActRecord) (s : State) :
    (mapRecord dz f s).rif = s.rif := rfl
@[simp] theorem mapRecord_slots (dz : Nat) (f : ActRecord → ActRecord) (s : State) :
    (mapRecord dz f s).slots = s.slots := rfl
@[simp] theorem mapRecord_cmdQueue (dz : Nat) (f : ActRecord → ActRecord) (s : State) :
    (mapRecord dz f s).cmdQueue = s.cmdQueue := rfl
@[simp] theorem mapRecord_deferred (dz : Nat) (f : ActRecord → ActRecord) (s : State) :
    (mapRecord dz f s).deferred = s.deferred := rfl
@[simp] theorem mapRecord_outbound (dz : Nat) (f : ActRecord → ActRecord) (s : State) :
    (mapRecord dz f s).outbound = s.outbound := rfl
@[simp] theorem mapRecord_reserved (dz : Nat) (f : ActRecord → ActRecord) (s : State) :
    (mapRecord dz f s).reserved = s.reserved := rfl
@[simp] theorem mapRecord_reports (dz : Nat) (f : ActRecord → ActRecord) (s : State) :
    (mapRecord dz f s).reports = s.reports := rfl
@[simp] theorem mapRecord_reportOverflow (dz : Nat) (f : ActRecord → ActRecord) (s : State) :
    (mapRecord dz f s).reportOverflow = s.reportOverflow := rfl
@[simp] theorem mapRecord_alarmLock (dz : Nat) (f : ActRecord → ActRecord) (s : State) :
    (mapRecord dz f s).alarmLock = s.alarmLock := rfl
@[simp] theorem mapRecord_commit (dz : Nat) (f : ActRecord → ActRecord) (s : State) :
    (mapRecord dz f s).commit = s.commit := rfl
@[simp] theorem mapRecord_restart (dz : Nat) (f : ActRecord → ActRecord) (s : State) :
    (mapRecord dz f s).restart = s.restart := rfl
@[simp] theorem mapRecord_pending (dz : Nat) (f : ActRecord → ActRecord) (s : State) :
    (mapRecord dz f s).pending = s.pending := rfl

/-! ## mapPhrase -/

@[simp] theorem mapPhrase_phase (p : Nat) (f : Phrase → Phrase) (s : State) :
    (mapPhrase p f s).phase = s.phase := rfl
@[simp] theorem mapPhrase_now (p : Nat) (f : Phrase → Phrase) (s : State) :
    (mapPhrase p f s).now = s.now := rfl
@[simp] theorem mapPhrase_msDue (p : Nat) (f : Phrase → Phrase) (s : State) :
    (mapPhrase p f s).msDue = s.msDue := rfl
@[simp] theorem mapPhrase_sampleTimes (p : Nat) (f : Phrase → Phrase) (s : State) :
    (mapPhrase p f s).sampleTimes = s.sampleTimes := rfl
@[simp] theorem mapPhrase_pins (p : Nat) (f : Phrase → Phrase) (s : State) :
    (mapPhrase p f s).pins = s.pins := rfl
@[simp] theorem mapPhrase_nv (p : Nat) (f : Phrase → Phrase) (s : State) :
    (mapPhrase p f s).nv = s.nv := rfl
@[simp] theorem mapPhrase_nvOk (p : Nat) (f : Phrase → Phrase) (s : State) :
    (mapPhrase p f s).nvOk = s.nvOk := rfl
@[simp] theorem mapPhrase_invalid (p : Nat) (f : Phrase → Phrase) (s : State) :
    (mapPhrase p f s).invalid = s.invalid := rfl
@[simp] theorem mapPhrase_acts (p : Nat) (f : Phrase → Phrase) (s : State) :
    (mapPhrase p f s).acts = s.acts := rfl
@[simp] theorem mapPhrase_overflow (p : Nat) (f : Phrase → Phrase) (s : State) :
    (mapPhrase p f s).overflow = s.overflow := rfl
@[simp] theorem mapPhrase_defaultMode (p : Nat) (f : Phrase → Phrase) (s : State) :
    (mapPhrase p f s).defaultMode = s.defaultMode := rfl
@[simp] theorem mapPhrase_inputs (p : Nat) (f : Phrase → Phrase) (s : State) :
    (mapPhrase p f s).inputs = s.inputs := rfl
@[simp] theorem mapPhrase_hold (p : Nat) (f : Phrase → Phrase) (s : State) :
    (mapPhrase p f s).hold = s.hold := rfl
@[simp] theorem mapPhrase_isoTimer (p : Nat) (f : Phrase → Phrase) (s : State) :
    (mapPhrase p f s).isoTimer = s.isoTimer := rfl
@[simp] theorem mapPhrase_isoEscalated (p : Nat) (f : Phrase → Phrase) (s : State) :
    (mapPhrase p f s).isoEscalated = s.isoEscalated := rfl
@[simp] theorem mapPhrase_lists (p : Nat) (f : Phrase → Phrase) (s : State) :
    (mapPhrase p f s).lists = s.lists := rfl
@[simp] theorem mapPhrase_outs (p : Nat) (f : Phrase → Phrase) (s : State) :
    (mapPhrase p f s).outs = s.outs := rfl
@[simp] theorem mapPhrase_cads (p : Nat) (f : Phrase → Phrase) (s : State) :
    (mapPhrase p f s).cads = s.cads := rfl
@[simp] theorem mapPhrase_chans (p : Nat) (f : Phrase → Phrase) (s : State) :
    (mapPhrase p f s).chans = s.chans := rfl
@[simp] theorem mapPhrase_store (p : Nat) (f : Phrase → Phrase) (s : State) :
    (mapPhrase p f s).store = s.store := rfl
@[simp] theorem mapPhrase_capture (p : Nat) (f : Phrase → Phrase) (s : State) :
    (mapPhrase p f s).capture = s.capture := rfl
@[simp] theorem mapPhrase_phraseMissing (p : Nat) (f : Phrase → Phrase) (s : State) :
    (mapPhrase p f s).phraseMissing = s.phraseMissing := rfl
@[simp] theorem mapPhrase_warden (p : Nat) (f : Phrase → Phrase) (s : State) :
    (mapPhrase p f s).warden = s.warden := rfl
@[simp] theorem mapPhrase_lines (p : Nat) (f : Phrase → Phrase) (s : State) :
    (mapPhrase p f s).lines = s.lines := rfl
@[simp] theorem mapPhrase_amps (p : Nat) (f : Phrase → Phrase) (s : State) :
    (mapPhrase p f s).amps = s.amps := rfl
@[simp] theorem mapPhrase_standbyAmps (p : Nat) (f : Phrase → Phrase) (s : State) :
    (mapPhrase p f s).standbyAmps = s.standbyAmps := rfl
@[simp] theorem mapPhrase_serving (p : Nat) (f : Phrase → Phrase) (s : State) :
    (mapPhrase p f s).serving = s.serving := rfl
@[simp] theorem mapPhrase_windowEnd (p : Nat) (f : Phrase → Phrase) (s : State) :
    (mapPhrase p f s).windowEnd = s.windowEnd := rfl
@[simp] theorem mapPhrase_rif (p : Nat) (f : Phrase → Phrase) (s : State) :
    (mapPhrase p f s).rif = s.rif := rfl
@[simp] theorem mapPhrase_slots (p : Nat) (f : Phrase → Phrase) (s : State) :
    (mapPhrase p f s).slots = s.slots := rfl
@[simp] theorem mapPhrase_cmdQueue (p : Nat) (f : Phrase → Phrase) (s : State) :
    (mapPhrase p f s).cmdQueue = s.cmdQueue := rfl
@[simp] theorem mapPhrase_deferred (p : Nat) (f : Phrase → Phrase) (s : State) :
    (mapPhrase p f s).deferred = s.deferred := rfl
@[simp] theorem mapPhrase_outbound (p : Nat) (f : Phrase → Phrase) (s : State) :
    (mapPhrase p f s).outbound = s.outbound := rfl
@[simp] theorem mapPhrase_reserved (p : Nat) (f : Phrase → Phrase) (s : State) :
    (mapPhrase p f s).reserved = s.reserved := rfl
@[simp] theorem mapPhrase_reports (p : Nat) (f : Phrase → Phrase) (s : State) :
    (mapPhrase p f s).reports = s.reports := rfl
@[simp] theorem mapPhrase_reportOverflow (p : Nat) (f : Phrase → Phrase) (s : State) :
    (mapPhrase p f s).reportOverflow = s.reportOverflow := rfl
@[simp] theorem mapPhrase_alarmLock (p : Nat) (f : Phrase → Phrase) (s : State) :
    (mapPhrase p f s).alarmLock = s.alarmLock := rfl
@[simp] theorem mapPhrase_commit (p : Nat) (f : Phrase → Phrase) (s : State) :
    (mapPhrase p f s).commit = s.commit := rfl
@[simp] theorem mapPhrase_restart (p : Nat) (f : Phrase → Phrase) (s : State) :
    (mapPhrase p f s).restart = s.restart := rfl
@[simp] theorem mapPhrase_pending (p : Nat) (f : Phrase → Phrase) (s : State) :
    (mapPhrase p f s).pending = s.pending := rfl

/-! ## The fields that an update does change -/

@[simp] theorem place_outbound (m : OutMsg) (s : State) :
    (place m s).outbound = s.outbound ++ [m] := rfl
@[simp] theorem reply_outbound (e : Entry) (r : Result) (d : ReplyData) (s : State) :
    (reply e r d s).outbound = s.outbound ++ replyMsgs e.req (codeOf e.body) r d := rfl
@[simp] theorem setRif_rif (f : Rif → Rif) (s : State) : (setRif f s).rif = f s.rif := rfl
@[simp] theorem setWarden_warden (f : Warden → Warden) (s : State) :
    (setWarden f s).warden = f s.warden := rfl
@[simp] theorem setSlots_slots (f : SlotTable → SlotTable) (s : State) :
    (setSlots f s).slots = f s.slots := rfl
@[simp] theorem setList_self (z : Zone) (l : List Claim) (s : State) :
    (setList z l s).lists[z] = l := by simp [setList]
@[simp] theorem setOut_self (z : Zone) (x : ZoneOut) (s : State) :
    (setOut z x s).outs[z] = x := by simp [setOut]
theorem setList_other {y z : Zone} (h : y ≠ z) (l : List Claim) (s : State) :
    (setList z l s).lists[y] = s.lists[y] := by
  have : z.val ≠ y.val := fun e => h (Fin.ext e.symm)
  simp [setList, this]

@[simp] theorem keepTimers_acts (s : State) :
    (keepTimers s).acts = s.acts.map shownRecord := rfl
@[simp] theorem shownRecord_dz (r : ActRecord) : (shownRecord r).dz = r.dz := rfl

/-- A report either joins the queue or, at 16 held, sets REPORT OVERFLOW (R206). -/
theorem report_cases (b : ReportBody) (s : State) :
    (s.reports.length < Config.reportMax ∧
      report b s = { s with reports := s.reports ++ [{ body := b, time := s.now }] }) ∨
    (Config.reportMax ≤ s.reports.length ∧ report b s = { s with reportOverflow := true }) := by
  unfold report
  split
  · exact .inl ⟨by assumption, rfl⟩
  · exact .inr ⟨by omega, rfl⟩

end Sys2Proof.Machine
end

