-- ==== Sys2Proof/Laws/Zones.lean ====
section
/-!
SUPPORT. What a settlement of the zones can do, said once for each shared operation: every offer,
removal, refill and hand-over keeps to `OnlyZones`.
-/

namespace Sys2Proof.Machine

/-! ## `OnlyZones` as a relation -/

theorem QueuesKept.same {s t : State} (hc : t.capture = s.capture) (ho : t.outbound = s.outbound)
    (hd : t.deferred = s.deferred) : QueuesKept s t :=
  ⟨ho ▸ List.prefix_rfl, hd ▸ List.prefix_rfl, fun h => ⟨hc.trans h, ho, hd⟩⟩

theorem QueuesKept.refl (s : State) : QueuesKept s s := .same rfl rfl rfl

theorem QueuesKept.trans {s t u : State} (h : QueuesKept s t) (g : QueuesKept t u) :
    QueuesKept s u := by
  refine ⟨h.out.trans g.out, h.held.trans g.held, fun hs => ?_⟩
  obtain ⟨h1, h2, h3⟩ := h.quiet hs
  obtain ⟨g1, g2, g3⟩ := g.quiet h1
  exact ⟨g1, g2.trans h2, g3.trans h3⟩

/-- A change of the zones' own fields that leaves capture, outbound queue and deferred replies. -/
theorem OnlyZones.of {s t : State} (h : t = { s with
      lists := t.lists, outs := t.outs, cads := t.cads, chans := t.chans, serving := t.serving
      phraseMissing := t.phraseMissing, reports := t.reports, reportOverflow := t.reportOverflow
      alarmLock := t.alarmLock, capture := t.capture, outbound := t.outbound
      deferred := t.deferred })
    (hc : t.capture = s.capture) (ho : t.outbound = s.outbound) (hd : t.deferred = s.deferred) :
    OnlyZones s t := ⟨h, .same hc ho hd⟩

theorem OnlyZones.refl (s : State) : OnlyZones s s := .of rfl rfl rfl rfl

theorem OnlyZones.trans {s t u : State} (h : OnlyZones s t) (g : OnlyZones t u) :
    OnlyZones s u := by
  refine ⟨?_, h.queues.trans g.queues⟩
  have hf := h.frame
  have gf := g.frame
  rw [hf] at gf
  exact gf

/-- A fold of settlements is a settlement. -/
theorem OnlyZones.foldl {α : Type} (f : State → α → State)
    (h : ∀ s a, OnlyZones s (f s a)) (l : List α) (s : State) : OnlyZones s (l.foldl f s) := by
  induction l generalizing s with
  | nil => exact .refl s
  | cons a l ih => exact (h s a).trans (ih _)

theorem OnlyZones.onlyCauses {s t : State} (h : OnlyZones s t) : OnlyCauses s t := by
  refine ⟨?_, h.queues⟩
  have hf := h.frame
  rw [hf]

theorem OnlyZones.onlyWarden {s t : State} (h : OnlyZones s t) : OnlyWarden s t := by
  refine ⟨?_, h.queues.out⟩
  have hf := h.frame
  rw [hf]

/-- A change that leaves capture, outbound queue and deferred replies. -/
theorem OnlyCauses.of {s t : State} (h : t = { s with
      acts := t.acts, overflow := t.overflow
      lists := t.lists, outs := t.outs, cads := t.cads, chans := t.chans, serving := t.serving
      phraseMissing := t.phraseMissing, reports := t.reports, reportOverflow := t.reportOverflow
      alarmLock := t.alarmLock, capture := t.capture, outbound := t.outbound
      deferred := t.deferred })
    (hc : t.capture = s.capture) (ho : t.outbound = s.outbound) (hd : t.deferred = s.deferred) :
    OnlyCauses s t := ⟨h, .same hc ho hd⟩

theorem OnlyCauses.refl (s : State) : OnlyCauses s s := ⟨rfl, .refl s⟩

theorem OnlyCauses.trans {s t u : State} (h : OnlyCauses s t) (g : OnlyCauses t u) :
    OnlyCauses s u := by
  refine ⟨?_, h.queues.trans g.queues⟩
  have hf := h.frame
  have gf := g.frame
  rw [hf] at gf
  exact gf

theorem OnlyCauses.foldl {α : Type} (f : State → α → State)
    (h : ∀ s a, OnlyCauses s (f s a)) (l : List α) (s : State) : OnlyCauses s (l.foldl f s) := by
  induction l generalizing s with
  | nil => exact .refl s
  | cons a l ih => exact (h s a).trans (ih _)

/-- A change that leaves the outbound queue. -/
theorem OnlyWarden.of {s t : State} (h : t = { s with
      warden := t.warden
      lists := t.lists, outs := t.outs, cads := t.cads, chans := t.chans, serving := t.serving
      phraseMissing := t.phraseMissing, reports := t.reports, reportOverflow := t.reportOverflow
      alarmLock := t.alarmLock, capture := t.capture, outbound := t.outbound
      deferred := t.deferred }) (ho : t.outbound = s.outbound) : OnlyWarden s t :=
  ⟨h, ho ▸ List.prefix_rfl⟩

theorem OnlyWarden.refl (s : State) : OnlyWarden s s := ⟨rfl, List.prefix_rfl⟩

theorem OnlyWarden.trans {s t u : State} (h : OnlyWarden s t) (g : OnlyWarden t u) :
    OnlyWarden s u := by
  refine ⟨?_, h.out.trans g.out⟩
  have hf := h.frame
  have gf := g.frame
  rw [hf] at gf
  exact gf

/-! ## Reports, places and single fields -/

theorem report_onlyZones (b : ReportBody) (s : State) : OnlyZones s (report b s) := by
  unfold report; split <;> exact .of rfl rfl rfl rfl

theorem setList_onlyZones (z : Zone) (l : List Claim) (s : State) :
    OnlyZones s (setList z l s) := .of rfl rfl rfl rfl

theorem setOut_onlyZones (z : Zone) (o : ZoneOut) (s : State) : OnlyZones s (setOut z o s) := .of rfl rfl rfl rfl

theorem setServing_onlyZones (k : Fin 2) (z : Option Zone) (s : State) :
    OnlyZones s (setServing k z s) := .of rfl rfl rfl rfl

theorem setChan_onlyZones (n : Fin 4) (f : ChanRun → ChanRun) (s : State) :
    OnlyZones s (setChan n f s) := .of rfl rfl rfl rfl

/-! ## The alarm lock -/

theorem abortCapture_onlyZones (s : State) : OnlyZones s (abortCapture s) := by
  unfold abortCapture
  split
  · exact .of rfl rfl rfl rfl
  · rename_i c hc
    unfold placeOrDefer
    split
    · exact ⟨rfl, List.prefix_append _ _, List.prefix_rfl, fun h => by simp [hc] at h⟩
    · exact ⟨rfl, List.prefix_rfl, List.prefix_append _ _, fun h => by simp [hc] at h⟩

theorem updateLock_onlyZones (s : State) : OnlyZones s (updateLock s) := by
  unfold updateLock
  simp only
  split
  · exact .trans (t := { s with alarmLock := lockCondition s }) (.of rfl rfl rfl rfl) (abortCapture_onlyZones _)
  · exact .of rfl rfl rfl rfl

/-! ## Cadences and channels -/

theorem beginStep_onlyZones (n : Fin 4) (i : Nat) (s : State) : OnlyZones s (beginStep n i s) := by
  have hm : ∀ p, OnlyZones s (beginMissing n i p s) := fun p =>
    .trans (t := setChan n _ { s with phraseMissing := true }) (.of rfl rfl rfl rfl) (report_onlyZones _ _)
  unfold beginStep
  split
  · split
    · split
      · exact .of rfl rfl rfl rfl
      · exact hm _
    · exact hm _
  · exact .of rfl rfl rfl rfl
  · exact .of rfl rfl rfl rfl

theorem startChan_onlyZones (n : Fin 4) (s : State) : OnlyZones s (startChan n s) :=
  (setChan_onlyZones n _ s).trans (beginStep_onlyZones n 0 _)

theorem stopChan_onlyZones (n : Fin 4) (st : ChanState) (s : State) :
    OnlyZones s (stopChan n st s) := .of rfl rfl rfl rfl

theorem chanCount_onlyZones (n : Fin 4) (k : Nat) (s : State) : OnlyZones s (chanCount n k s) := by
  have h1 : OnlyZones s (setChan n (fun c => { c with listeners := k }) s) := .of rfl rfl rfl rfl
  unfold chanCount
  simp only
  split
  · split
    · split
      · exact h1
      · exact h1.trans (startChan_onlyZones n _)
    · split
      · exact h1.trans (startChan_onlyZones n _)
      · exact h1
    · exact h1
  · exact h1

theorem countSource_onlyZones (src : Source) (f : Nat → Nat) (s : State) :
    OnlyZones s (countSource src f s) := by
  unfold countSource
  split
  · unfold countCad; split <;> exact .of rfl rfl rfl rfl
  · unfold countChan
    split
    · exact chanCount_onlyZones _ _ s
    · exact .of rfl rfl rfl rfl
  · exact .of rfl rfl rfl rfl

theorem listenerChange_onlyZones (a b : Source) (s : State) :
    OnlyZones s (listenerChange a b s) := by
  unfold listenerChange
  split
  · exact .of rfl rfl rfl rfl
  · exact (countSource_onlyZones _ _ s).trans (countSource_onlyZones _ _ _)

theorem ringToZone_onlyZones (z : Zone) (s : State) : OnlyZones s (ringToZone z s) := by
  unfold ringToZone
  simp only
  split
  · exact (setOut_onlyZones z _ s).trans (listenerChange_onlyZones _ _ _)
  · exact .of rfl rfl rfl rfl

theorem ringToOutputs_onlyZones (s : State) : OnlyZones s (ringToOutputs s) :=
  .foldl _ (fun t z => ringToZone_onlyZones z t) allZones s

/-! ## The standby arbiter -/

theorem arbRelease_onlyZones (k : Fin 2) (s : State) : OnlyZones s (arbRelease k s) := by
  unfold arbRelease
  split
  · split
    · exact .of rfl rfl rfl rfl
    · exact (setServing_onlyZones k none s).trans (report_onlyZones _ _)
  · exact .of rfl rfl rfl rfl

theorem arbAssign_onlyZones (n : Nat) (s : State) : OnlyZones s (arbAssign n s) := by
  induction n generalizing s with
  | zero => exact .of rfl rfl rfl rfl
  | succ n ih =>
    unfold arbAssign
    split
    · exact (setServing_onlyZones _ _ s).trans ((report_onlyZones _ _).trans (ih _))
    · exact .of rfl rfl rfl rfl

theorem arbPreempt_onlyZones (n : Nat) (s : State) : OnlyZones s (arbPreempt n s) := by
  induction n generalizing s with
  | zero => exact .of rfl rfl rfl rfl
  | succ n ih =>
    unfold arbPreempt
    split
    · split
      · exact (setServing_onlyZones _ _ s).trans ((report_onlyZones _ _).trans (ih _))
      · exact .of rfl rfl rfl rfl
    · exact .of rfl rfl rfl rfl

theorem arbiter_onlyZones (s : State) : OnlyZones s (arbiter s) :=
  (arbRelease_onlyZones 0 s).trans ((arbRelease_onlyZones 1 _).trans
    ((arbAssign_onlyZones 2 _).trans (arbPreempt_onlyZones 2 _)))

/-! ## Offers, refills and removals -/

theorem handOver_onlyZones (z : Zone) (s : State) : OnlyZones s (handOver z s) := by
  have h : ∀ a b o, OnlyZones s (listenerChange a b (setOut z o s)) := fun a b o =>
    (setOut_onlyZones z o s).trans (listenerChange_onlyZones a b _)
  unfold handOver
  simp only
  split
  · exact (h _ _ _).trans (arbiter_onlyZones _)
  · exact h _ _ _

theorem settle_onlyZones (z : Zone) (f : State → State) (hf : ∀ s, OnlyZones s (f s)) (s : State) :
    OnlyZones s (settle z f s) := by
  unfold settle
  simp only
  refine OnlyZones.trans ?_ (updateLock_onlyZones _)
  split
  · exact hf s
  · exact (hf s).trans (handOver_onlyZones z _)

theorem dropSilence_onlyZones (z : Zone) (s : State) : OnlyZones s (dropSilence z s).1 := .of rfl rfl rfl rfl

theorem afterEntry_onlyZones (b : Bool) (z : Zone) (s : State) :
    OnlyZones s (afterEntry b z s).1 := by
  unfold afterEntry; split <;> exact .of rfl rfl rfl rfl

theorem offerCore_onlyZones (z : Zone) (c : Claim) (s : State) :
    OnlyZones s (offerCore z c s).1 := by
  have hs : ∀ l b, OnlyZones s (afterEntry b z (setList z l s)).1 := fun l b =>
    (setList_onlyZones z l s).trans (afterEntry_onlyZones b z _)
  unfold offerCore
  simp only
  split
  · exact .of rfl rfl rfl rfl
  · split
    · exact hs _ _
    · split
      · exact hs _ _
      · split
        · split
          · exact ((setList_onlyZones z _ s).trans (report_onlyZones _ _)).trans
              (afterEntry_onlyZones _ z _)
          · exact report_onlyZones _ s
        · exact .of rfl rfl rfl rfl

theorem refillRecord_onlyZones (z : Zone) (r : ActRecord) (p : State × Bool) :
    OnlyZones p.1 (refillRecord z r p).1 := by
  unfold refillRecord
  split
  · exact .of rfl rfl rfl rfl
  · split
    · exact .of rfl rfl rfl rfl
    · exact offerCore_onlyZones z _ p.1

theorem refillOverflow_onlyZones (z : Zone) (p : State × Bool) :
    OnlyZones p.1 (refillOverflow z p).1 := by
  unfold refillOverflow
  split
  · exact offerCore_onlyZones z _ p.1
  · exact .of rfl rfl rfl rfl

theorem refillPass_onlyZones (z : Zone) (s : State) : OnlyZones s (refillPass z s).1 := by
  have h : ∀ (l : List ActRecord) (p : State × Bool),
      OnlyZones p.1 (l.foldl (fun p r => refillRecord z r p) p).1 := by
    intro l
    induction l with
    | nil => exact fun p => .refl p.1
    | cons r l ih => exact fun p => (refillRecord_onlyZones z r p).trans (ih _)
  exact (h s.acts (s, false)).trans (refillOverflow_onlyZones z _)

theorem refill_onlyZones (z : Zone) (s : State) : OnlyZones s (refill z s) := by
  unfold refill
  simp only
  split
  · exact (refillPass_onlyZones z s).trans (refillPass_onlyZones z _)
  · exact refillPass_onlyZones z s

theorem offer_onlyZones (z : Zone) (c : Claim) (s : State) : OnlyZones s (offer z c s) :=
  settle_onlyZones z _ (fun t => by
    simp only
    split
    · exact (offerCore_onlyZones z c t).trans (refill_onlyZones z _)
    · exact offerCore_onlyZones z c t) s

theorem removal_onlyZones (z : Zone) (p : Claim → Bool) (s : State) :
    OnlyZones s (removal z p s) := by
  unfold removal
  split
  · exact settle_onlyZones z _
      (fun t => (setList_onlyZones z _ t).trans (refill_onlyZones z _)) s
  · exact .of rfl rfl rfl rfl

theorem removalAll_onlyZones (p : Claim → Bool) (s : State) : OnlyZones s (removalAll p s) :=
  .foldl _ (fun t z => removal_onlyZones z p t) allZones s

theorem offerAll_onlyZones (c : Claim) (s : State) : OnlyZones s (offerAll c s) :=
  .foldl _ (fun t z => offer_onlyZones z c t) allZones s

theorem stepEnds_onlyZones (n : Fin 4) (s : State) : OnlyZones s (stepEnds n s) := by
  unfold stepEnds
  simp only
  split
  · exact .of rfl rfl rfl rfl
  · split
    · exact beginStep_onlyZones n _ s
    · split
      · exact (stopChan_onlyZones n .ended s).trans (removalAll_onlyZones _ _)
      · exact beginStep_onlyZones n _ s

/-! ## Records and expiries -/

theorem mapRecord_onlyCauses (dz : Nat) (f : ActRecord → ActRecord) (s : State) :
    OnlyCauses s (mapRecord dz f s) := .of rfl rfl rfl rfl

theorem remerge_onlyZones (r : ActRecord) (z : Zone) (s : State) :
    OnlyZones s (remerge r z s) := by
  unfold remerge
  split
  · split
    · exact .of rfl rfl rfl rfl
    · exact offer_onlyZones z _ s
  · exact offer_onlyZones z _ s
  · exact removal_onlyZones z _ s
  · exact .of rfl rfl rfl rfl

theorem expire_onlyCauses (dz i : Nat) (s : State) : OnlyCauses s (expire dz i s) := by
  unfold expire
  split
  · exact .of rfl rfl rfl rfl
  · split
    · exact .of rfl rfl rfl rfl
    · exact (mapRecord_onlyCauses dz _ s).trans
        ((OnlyZones.foldl _ (fun t z => remerge_onlyZones _ z t) _ _).trans
          (report_onlyZones _ _)).onlyCauses

theorem expireRecord_onlyCauses (dz : Nat) (s : State) : OnlyCauses s (expireRecord dz s) := by
  unfold expireRecord
  split
  · exact .of rfl rfl rfl rfl
  · exact .foldl _ (fun t i => expire_onlyCauses dz i t) _ s

theorem expireEverything_onlyCauses (s : State) : OnlyCauses s (expireEverything s) :=
  .foldl _ (fun t dz => expireRecord_onlyCauses dz t) _ s

theorem expireDue_onlyCauses (s : State) : OnlyCauses s (expireDue s) :=
  .foldl (fun t (p : Nat × Nat) => expire p.1 p.2 t) (fun t p => expire_onlyCauses p.1 p.2 t) _ s

/-- With no expiry due, none is taken (R58). -/
theorem expireDue_none {s : State} (h : ∀ r ∈ s.acts, ∀ f ∈ r.refs, f.due = false) :
    expireDue s = s := by
  have : dueTimers s = [] := by
    simp only [dueTimers, List.flatMap_eq_nil_iff, List.map_eq_nil_iff, List.filter_eq_nil_iff,
      List.mem_range]
    intro r hr i hi
    simp [hi, h r hr _ (List.getElem_mem hi)]
  simp [expireDue, this]

theorem offerRecord_onlyZones (r : ActRecord) (s : State) : OnlyZones s (offerRecord r s) :=
  .foldl _ (fun t z => by
    split
    · exact offer_onlyZones z _ t
    · exact .of rfl rfl rfl rfl) allZones s

/-- The claims that follow a new record: the OVERFLOW claim of DEFAULT MODE, or its merged claims. -/
theorem firstClaims_onlyZones (d e : Bool) (r : ActRecord) (s : State) :
    OnlyZones s (if d then (if e then offerAll (overflowClaim s) s else s) else offerRecord r s) := by
  cases d <;> cases e <;>
    simp only [if_true, if_false, Bool.false_eq_true]
  · exact offerRecord_onlyZones r s
  · exact offerRecord_onlyZones r s
  · exact .of rfl rfl rfl rfl
  · exact offerAll_onlyZones _ s

theorem recordCause_onlyCauses (dz : Nat) (cls : Class) (o : Nat) (l : Option Bool) (s : State) :
    OnlyCauses s (recordCause dz cls o l s) := by
  have h1 : OnlyCauses s (updateLock { s with acts := s.acts ++ [newRecord s dz cls o l] }) :=
    .trans (t := { s with acts := s.acts ++ [newRecord s dz cls o l] }) (.of rfl rfl rfl rfl)
      (updateLock_onlyZones _).onlyCauses
  have h2 := h1.trans
    (firstClaims_onlyZones s.defaultMode s.acts.isEmpty (newRecord s dz cls o l) _).onlyCauses
  unfold recordCause
  simp only
  split
  · exact h2.trans (expireRecord_onlyCauses dz _)
  · exact h2

theorem causeOn_onlyCauses (dz : Nat) (cls : Class) (o : Nat) (l : Option Bool) (s : State) :
    OnlyCauses s (causeOn dz cls o l s) := by
  unfold causeOn
  split
  · exact mapRecord_onlyCauses dz _ s
  · split
    · unfold refuseCause
      simp only
      refine OnlyCauses.trans ?_ (report_onlyZones _ _).onlyCauses
      split
      · exact .of rfl rfl rfl rfl
      · exact .trans (t := { s with overflow := true }) (.of rfl rfl rfl rfl) (offerAll_onlyZones _ _).onlyCauses
    · exact recordCause_onlyCauses dz cls o l s

theorem removeRecord_onlyCauses (dz : Nat) (s : State) : OnlyCauses s (removeRecord dz s) := by
  unfold removeRecord
  simp only
  exact .trans (t := { s with
      acts := s.acts.filter fun r => r.dz != dz
      overflow := s.overflow && !(s.acts.filter fun r => r.dz != dz).isEmpty }) (.of rfl rfl rfl rfl)
    ((updateLock_onlyZones _).trans (removalAll_onlyZones _ _)).onlyCauses

theorem causeOff_onlyCauses (dz : Nat) (s : State) : OnlyCauses s (causeOff dz s) := by
  unfold causeOff
  split
  · exact .of rfl rfl rfl rfl
  · split
    · exact mapRecord_onlyCauses dz _ s
    · exact removeRecord_onlyCauses dz s

theorem causeResetAll_onlyCauses (s : State) : OnlyCauses s (causeResetAll s) :=
  .foldl _ (fun t dz => removeRecord_onlyCauses dz t) _ s

/-! ## The warden -/

theorem setWarden_onlyWarden (f : Warden → Warden) (s : State) : OnlyWarden s (setWarden f s) :=
  .of rfl rfl

theorem sendRelease_onlyWarden (l : Nat) (s : State) : OnlyWarden s (sendRelease l s) := by
  unfold sendRelease
  split
  · exact ⟨rfl, List.prefix_append _ _⟩
  · exact .refl s

theorem slotRelease_onlyWarden (s : State) : OnlyWarden s (slotRelease s) := by
  unfold slotRelease
  split
  · exact setWarden_onlyWarden _ s
  · exact (setWarden_onlyWarden _ s).trans (sendRelease_onlyWarden _ _)
  · exact .refl s

theorem sendRequest_onlyWarden (s : State) : OnlyWarden s (sendRequest s) := by
  unfold sendRequest
  split
  · exact ⟨rfl, List.prefix_append _ _⟩
  · exact (report_onlyZones _ s).onlyWarden

theorem announce_onlyWarden (s : State) : OnlyWarden s (announce s) := by
  unfold announce
  split
  · split
    · exact sendRequest_onlyWarden s
    · exact setWarden_onlyWarden _ s
    · exact .refl s
  · exact .refl s

/-- A press whose slot a SLOTS CLEARED notice has taken makes no new request (R154). -/
theorem announce_cleared {s : State} (h : s.warden.cleared = true) : announce s = s := by
  simp [announce, mayRequest, h]

theorem endPress_onlyWarden (s : State) : OnlyWarden s (endPress s) :=
  ((setWarden_onlyWarden _ s).trans (removalAll_onlyZones _ _).onlyWarden).trans
    (slotRelease_onlyWarden _)

theorem offerWarden_onlyZones (s : State) : OnlyZones s (offerWarden s) := by
  unfold offerWarden
  split
  · exact .refl s
  · exact .foldl _ (fun t z => offer_onlyZones z _ t) _ s

/-- A press taken with the warden disabled changes the key and leaves no talk timer (R148). -/
theorem pressTaken_disabled {s : State} (h : s.work.warden.enabled = false) :
    pressTaken s = { s with warden := { s.warden with
      taken := true, due := none, key := .pressed, talk := none, cleared := false } } := by
  simp [pressTaken, setWarden, h]

/-- A press taken with the warden enabled starts the talk timer, offers and announces (R148). -/
theorem pressTaken_enabled {s : State} (h : s.work.warden.enabled = true) :
    pressTaken s = announce (offerWarden { s with warden := { s.warden with
      taken := true, due := none, key := .pressed, talk := some 0, cleared := false } }) := by
  simp [pressTaken, setWarden, h]

theorem pressTaken_onlyWarden (s : State) : OnlyWarden s (pressTaken s) := by
  cases h : s.work.warden.enabled
  · rw [pressTaken_disabled h]; exact .of rfl rfl
  · rw [pressTaken_enabled h]
    exact (setWarden_onlyWarden (fun w => { w with
      taken := true, due := none, key := .pressed, talk := some 0, cleared := false }) s).trans
        ((offerWarden_onlyZones _).onlyWarden.trans (announce_onlyWarden _))

theorem freshPress_onlyWarden (s : State) : OnlyWarden s (freshPress s) := by
  unfold freshPress
  split
  · exact pressTaken_onlyWarden s
  · exact (removalAll_onlyZones _ s).onlyWarden.trans (pressTaken_onlyWarden _)

theorem releaseTaken_onlyWarden (s : State) : OnlyWarden s (releaseTaken s) := by
  unfold releaseTaken
  simp only
  split
  · exact (setWarden_onlyWarden _ s).trans (endPress_onlyWarden _)
  · exact .of rfl rfl

theorem forceRelease_onlyWarden (s : State) : OnlyWarden s (forceRelease s) :=
  ((setWarden_onlyWarden _ s).trans (endPress_onlyWarden _)).trans
    (report_onlyZones _ _).onlyWarden

end Sys2Proof.Machine
end

