-- ==== Sys2Proof/Laws/Commands.lean ====
section
/-!
SUPPORT. How a step comes about: a step whose condition holds, and a command of the control stream that
is admitted, refused or waiting.
-/

namespace Sys2Proof.Machine

theorem whenever_of {p : Bool} (h : p = true) (f : State → State) (s : State) :
    whenever p f s = .next (f s) := by simp [whenever, h]

theorem whenever_not {p : Bool} (h : p = false) (f : State → State) (s : State) :
    whenever p f s = .next s := by simp [whenever, h]

/-- A step that comes about under a condition answers one of two states. -/
theorem whenever_cases {p : Bool} {f : State → State} {s t : State}
    (h : whenever p f s = .next t) : (p = true ∧ t = f s) ∨ (p = false ∧ t = s) := by
  unfold whenever at h
  cases p <;> simp_all

/-- An admitted command leaves the queue and is carried out. -/
theorem commandWith_of {s : State} {q : Request} {b : CmdBody} {extra own : State → Nat}
    (h : Admitted s q b (extra s + own s)) (act : State → State) :
    commandWith ⟨q, b⟩ extra own act s = .next (carryOut (own s) act s) := by
  unfold commandWith
  rw [h.admitted]
  exact whenever_of (by simp [h.head, h.room]) _ s

/-- An admitted command that places its reply alone. -/
theorem command_of {s : State} {q : Request} {b : CmdBody} {own : State → Nat}
    (h : Admitted s q b (own s)) (act : State → State) :
    command ⟨q, b⟩ own act s = .next (carryOut (own s) act s) :=
  commandWith_of (extra := noExtra) (by simpa [noExtra] using h) act

/-- A command that a check of R198 refuses leaves the queue with that result and changes nothing
else. -/
theorem commandWith_refused {s : State} {e : Entry} {r : Result}
    (hh : s.cmdQueue.head? = some e) (hr : refusalOf s e = some r) (hm : mayBegin s 1 = true)
    (extra own : State → Nat) (act : State → State) :
    commandWith e extra own act s = .next (repliedWith s e.req e.body r .none) := by
  unfold commandWith
  rw [hr]
  exact whenever_of (by simp [hh, hm]) _ s

/-- Everything a command of the control stream can do: it waits, is refused, or is carried out. -/
theorem commandWith_cases {s t : State} {e : Entry} {extra own : State → Nat}
    {act : State → State} (h : commandWith e extra own act s = .next t) :
    t = s ∨ (∃ r, refusalOf s e = some r ∧ s.cmdQueue.head? = some e ∧ mayBegin s 1 = true ∧
        t = repliedWith s e.req e.body r .none) ∨
      (refusalOf s e = none ∧ s.cmdQueue.head? = some e ∧ mayBegin s (extra s + own s) = true ∧
        t = carryOut (own s) act s) := by
  unfold commandWith at h
  cases hr : refusalOf s e with
  | some r =>
    rw [hr] at h
    rcases whenever_cases h with ⟨hp, rfl⟩ | ⟨_, rfl⟩
    · simp only [Bool.and_eq_true, beq_iff_eq] at hp
      exact .inr (.inl ⟨r, rfl, hp.1, hp.2, rfl⟩)
    · exact .inl rfl
  | none =>
    rw [hr] at h
    rcases whenever_cases h with ⟨hp, rfl⟩ | ⟨_, rfl⟩
    · simp only [Bool.and_eq_true, beq_iff_eq] at hp
      exact .inr (.inr ⟨rfl, hp.1, hp.2, rfl⟩)
    · exact .inl rfl

/-- A reply that is not a record is one message. -/
theorem replyMsgs_one (q : Request) (c : CmdCode) (r : Result) {d : ReplyData}
    (h : recordCode d = none) : replyMsgs q c r d = [replyMsg q c r d] := by
  simp [replyMsgs, partsOf, partData, h, replyMsg, List.range_succ]

/-- The bytes of a record, which twelve parts can carry. -/
theorem dataBytes_le {d : ReplyData} {c : CmdCode} (h : recordCode d = some c) :
    (dataBytes c d).length ≤ 336 := by
  cases d <;> simp_all [recordCode, dataBytes]

/-- A reply takes at most the 12 places of the outbound queue. -/
theorem partsOf_le (d : ReplyData) : partsOf d ≤ Config.outMax := by
  unfold partsOf
  cases h : recordCode d with
  | none => simp [Config.outMax]
  | some c =>
    have := dataBytes_le h
    simp only [partsFor, Config.outMax]
    split <;> omega

theorem replyMsgs_length (q : Request) (c : CmdCode) (r : Result) (d : ReplyData) :
    (replyMsgs q c r d).length = partsOf d := by simp [replyMsgs]

/-- A reply without data at the end of a settlement of the causes and zones: the command has left the
queue, its reply stands last, and only what causes and zones act on has changed beside it. -/
theorem carryOut_reply (q : Request) (b : CmdBody) (r : Result) (d : ReplyData)
    (f : State → State) (s : State) (own : Nat) :
    carryOut own (fun s => reply ⟨q, b⟩ r d (f s)) s =
      { f { s with cmdQueue := s.cmdQueue.tail, reserved := own } with
        reserved := 0
        outbound := (f { s with cmdQueue := s.cmdQueue.tail, reserved := own }).outbound ++
          replyMsgs q (codeOf b) r d } := rfl

end Sys2Proof.Machine
end

