-- ==== Sys2Proof/Laws/Bodies.lean ====
section
/-!
SUPPORT. The bytes of message bodies: lengths, the place of a zone in a zone set, the shares of a reply in
parts, the parts of a message as ring-in brings them, and what becomes of a complete one.
-/

namespace Sys2Proof.Machine

theorem numBytes_length (w n : Nat) : (numBytes w n).length = w := by simp [numBytes]

/-- A value that takes a byte at least: every value but a number whose range needs none. -/
def hasByte : Item → Bool
  | .number least _ => decide (0 < least)
  | _ => true

theorem itemBytes_pos (c : MsgCode) {x : Item} (i : Nat) (h : hasByte x = true) :
    1 ≤ (itemBytes c (x, i)).length := by
  cases x with
  | number least n =>
    have : 0 < least := by simpa [hasByte] using h
    simp only [itemBytes, numBytes_length]
    omega
  | zones zs => simp [itemBytes, zoneBytes]
  | named k => simp [itemBytes]
  | offset d => simp [itemBytes]

/-- A run of values takes a byte at least for each of them. -/
theorem itemsBytes_length (c : MsgCode) (l : List Item) (h : l.all hasByte = true) :
    l.length ≤ (itemsBytes c l).length := by
  have key : ∀ (l : List Item) (k : Nat), l.all hasByte = true →
      l.length ≤ ((l.zipIdx k).flatMap (itemBytes c)).length := by
    intro l
    induction l with
    | nil => intro k _; simp
    | cons x l ih =>
      intro k h
      rw [List.all_cons, Bool.and_eq_true] at h
      have h1 := itemBytes_pos c k h.1
      have h2 := ih (k + 1) h.2
      simp only [List.zipIdx_cons, List.flatMap_cons, List.length_append, List.length_cons]
      omega
  exact key l 0 h

/-- Zone n is a member of a zone set when bit n mod 8 of byte n / 8 is set (R181). -/
theorem zoneBytes_bit (zs : ZoneSet) (z : Zone) :
    ((zoneBytes zs)[z.val / 8]?.map fun b => b.getLsbD (z.val % 8)) = some (inSet zs z) := by
  have h : z.val / 8 = 0 ∨ z.val / 8 = 1 ∨ z.val / 8 = 2 := by omega
  have m : z.val % 8 < 8 := Nat.mod_lt _ (by decide)
  rcases h with h | h | h <;>
    simp only [zoneBytes, inSet, h, List.getElem?_cons_zero, List.getElem?_cons_succ, Option.map_some,
      BitVec.getLsbD_extractLsb', m, decide_true, Bool.true_and] <;> congr 2 <;> omega

/-- What a part received can become: it is discarded, kept, or joins the complete messages, and nothing
else of the Ring Interface changes (R176, R182). -/
theorem takePart_cases (p : Option (List Byte)) (r : Rif) :
    takePart p r = { r with rx := none } ∨ (∃ bs, p = some bs ∧
      (takePart p r = { r with rx := some bs } ∨
        takePart p r = { r with rx := none, arrived := r.arrived ++ [bs] })) := by
  unfold takePart
  cases p with
  | none => exact .inl rfl
  | some bs =>
    simp only
    split
    · exact .inr ⟨bs, rfl, .inl rfl⟩
    · split
      · exact .inl rfl
      · split
        · exact .inr ⟨bs, rfl, .inr rfl⟩
        · exact .inr ⟨bs, rfl, .inl rfl⟩

/-- What RING_MESSAGE_COMPLETE can do: nothing, the oldest message discarded, or, where the command names it,
its checks pass and the forward hold has room, that message settled (R182). -/
theorem execRingMessageComplete_cases (m : Message) (s : State) :
    execRingMessageComplete m s = .next s ∨ execRingMessageComplete m s = .next (takeHead s) ∨
      (headArrived m s = true ∧ messageOk m = true ∧ s.rif.fwd.length < Config.holdMax ∧
        execRingMessageComplete m s = .next (settleMessage m (takeHead s))) := by
  unfold execRingMessageComplete whenever
  split
  · beta_reduce
    split
    · rename_i h
      simp only [Bool.and_eq_true, decide_eq_true_eq] at h
      exact .inr (.inr ⟨h.1.1, h.1.2, h.2, rfl⟩)
    · exact .inr (.inl rfl)
  · exact .inl rfl

theorem unionWhole_passes (a b : Bool) (v : BitVec 4) :
    unionWhole (Config.unionByte a (!a) b (!b) v) = true := by
  have hv : v = BitVec.ofNat 4 v.toNat := by simp
  simp only [unionWhole, List.any_eq_true]
  refine ⟨(a, b), by cases a <;> cases b <;> simp, v.toNat, by simp [v.isLt], ?_⟩
  simp

theorem kindKnown_kind (x : BitVec 3) (k : MsgKind) (low : BitVec 3) :
    kindKnown (x ++ (Config.kindBits k ++ low)) = true := by
  have e : (x ++ (Config.kindBits k ++ low)).extractLsb' 3 2 = Config.kindBits k := by
    apply BitVec.eq_of_getLsbD_eq
    intro i hi
    simp only [BitVec.getLsbD_extractLsb', BitVec.getLsbD_append]
    have h1 : 3 + i < 5 := by omega
    have h2 : ¬3 + i < 3 := by omega
    simp [hi, h1]
  simp only [kindKnown, e]
  cases k <;> simp

/-- A well-formed message that passes its checks passes them as bytes: what the bytes fail, the message
fails (R181, R182). -/
theorem bytesPass_of_messageOk {m : Message} {s : State} {bs : List Byte} {rest : List (List Byte)}
    (h : s.rif.arrived = bs :: rest) (ha : headArrived m s = true) (hb : m.body.length ≤ 32)
    (ok : messageOk m = true) : bytesPass bs = true := by
  simp only [headArrived, h, Bool.and_eq_true, beq_iff_eq] at ha
  simp only [messageOk, Bool.and_eq_true, beq_iff_eq, bne_iff_ne, decide_eq_true_eq] at ok
  obtain ⟨⟨⟨hc, ht⟩, hf⟩, hh⟩ := ok
  obtain ⟨tail, rfl⟩ : ∃ tail, bs = messageBytes m ++ tail :=
    ⟨bs.drop (10 + m.body.length), by rw [← ha.1, List.take_append_drop]⟩
  have e1 : m.takenBar = !m.taken := by revert ht; cases m.taken <;> cases m.takenBar <;> simp
  have e2 : m.fullBar = !m.full := by revert hf; cases m.full <;> cases m.fullBar <;> simp
  have n32 : m.body.length % 256 = m.body.length := Nat.mod_eq_of_lt (by omega)
  have hops : BitVec.ofNat 8 m.hops ≠ 255#8 := by
    intro e
    have := congrArg BitVec.toNat e
    simp at this
    omega
  have kind := kindKnown_kind (BitVec.ofNat 3 m.cls.val) (kindOf m.content) m.low
  have h8 : 8 + m.body.length = m.body.length + 8 := Nat.add_comm ..
  have hd : ∀ x : List Byte, List.drop m.body.length (m.body ++ x) = x := fun x => List.drop_left
  have ht2 : ∀ x : List Byte, List.take m.body.length (m.body ++ x) = m.body := fun x => List.take_left
  have h2 : ∀ x : List Byte, List.take 2 (bytes16 m.check ++ x) = bytes16 m.check := fun x => rfl
  simp only [bytesPass, messageBytes, headerBytes, List.cons_append, List.nil_append, List.append_assoc,
    List.getD_cons_succ, List.getD_cons_zero, BitVec.toNat_ofNat, Nat.reducePow, n32, h8,
    List.drop_succ_cons, List.drop_zero, List.take_succ_cons, List.take_zero, hd, ht2, h2, e1, e2,
    unionWhole_passes, kind, Bool.and_true, Bool.and_eq_true, beq_iff_eq, bne_iff_ne]
  exact ⟨by rw [hc]; rfl, hops⟩

end Sys2Proof.Machine
end

