-- ==== Sys2Proof/Laws/Channels.lean ====
section
/-!
SUPPORT. What a PHRASE step that gives sample times can do, and what a stopped cadence is; what the check of
R126 gives the steps of a program, and how a step begins.
-/

namespace Sys2Proof.Machine

/-! ## phraseGive -/

@[simp] theorem phraseGive_state (k : Nat) (c : ChanRun) : (phraseGive k c).state = c.state := by
  unfold phraseGive; split <;> [rfl; split <;> rfl]
@[simp] theorem phraseGive_step (k : Nat) (c : ChanRun) : (phraseGive k c).step = c.step := by
  unfold phraseGive; split <;> [rfl; split <;> rfl]
@[simp] theorem phraseGive_kind (k : Nat) (c : ChanRun) : (phraseGive k c).kind = c.kind := by
  unfold phraseGive; split <;> [rfl; split <;> rfl]
@[simp] theorem phraseGive_late (k : Nat) (c : ChanRun) : (phraseGive k c).late = c.late := by
  unfold phraseGive; split <;> [rfl; split <;> rfl]
@[simp] theorem phraseGive_listeners (k : Nat) (c : ChanRun) :
    (phraseGive k c).listeners = c.listeners := by
  unfold phraseGive; split <;> [rfl; split <;> rfl]

/-- All that giving sample times can do: a step due to end owes them to the next; one with more samples left
advances; the last sample makes the end due, and what is over is owed. -/
theorem phraseGive_cases (k : Nat) (c : ChanRun) :
    (c.due = true ∧ phraseGive k c = { c with owed := c.owed + k }) ∨
    (c.due = false ∧ k < c.remaining ∧
      phraseGive k c = { c with addr := c.addr + k, remaining := c.remaining - k }) ∨
    (c.due = false ∧ c.remaining ≤ k ∧ phraseGive k c = { c with
      addr := c.addr + (c.remaining - 1), remaining := 1, due := true
      owed := c.owed + (k - c.remaining) }) := by
  unfold phraseGive
  by_cases hd : c.due = true
  · exact .inl ⟨hd, by rw [if_pos hd]⟩
  · rw [if_neg hd]
    have hf : c.due = false := by simpa using hd
    by_cases hk : k < c.remaining
    · exact .inr (.inl ⟨hf, hk, by rw [if_pos hk]⟩)
    · exact .inr (.inr ⟨hf, by omega, by rw [if_neg hk]⟩)

/-- A PHRASE step that has a sample left keeps its place: address and remaining still add up to the end of the
phrase, the address has not gone back, a sample is left, and an end that is due has one left. -/
theorem phraseGive_place (k : Nat) (c : ChanRun) (h : 1 ≤ c.remaining)
    (hd : c.due = true → c.remaining = 1) :
    (phraseGive k c).addr + (phraseGive k c).remaining = c.addr + c.remaining ∧
    c.addr ≤ (phraseGive k c).addr ∧ 1 ≤ (phraseGive k c).remaining ∧
    ((phraseGive k c).due = true → (phraseGive k c).remaining = 1) := by
  obtain ⟨_, e⟩ | ⟨hf, hk, e⟩ | ⟨_, _, e⟩ := phraseGive_cases k c <;> rw [e]
  · exact ⟨rfl, Nat.le_refl _, h, hd⟩
  · exact ⟨by show c.addr + k + (c.remaining - k) = _; omega, Nat.le_add_right .., by
      show 1 ≤ c.remaining - k; omega, fun ht => absurd (hf.symm.trans ht) (by decide)⟩
  · exact ⟨by show c.addr + (c.remaining - 1) + 1 = _; omega, Nat.le_add_right .., Nat.le_refl 1,
      fun _ => rfl⟩

/-- A PHRASE step begins inside the extent of a phrase that is not empty (R129). -/
theorem phraseStep_place (idx : Nat) (p : Phrase) (c : ChanRun) (h : 0 < p.length) :
    let d := phraseStep idx p c
    d.addr + d.remaining = p.start + p.length ∧ p.start ≤ d.addr ∧ 1 ≤ d.remaining ∧
    (d.due = true → d.remaining = 1) :=
  phraseGive_place _ _ h (fun ht => absurd ht (by simp))

/-! ## cadStop and cadStart -/

@[simp] theorem cadStop_listeners (on : Nat) (c : CadRun) : (cadStop on c).listeners = c.listeners := rfl
@[simp] theorem cadStop_running (on : Nat) (c : CadRun) : (cadStop on c).running = false := rfl
@[simp] theorem cadStop_phase (on : Nat) (c : CadRun) : (cadStop on c).phase = .on := rfl
@[simp] theorem cadStop_burst (on : Nat) (c : CadRun) : (cadStop on c).burst = 1 := rfl
@[simp] theorem cadStop_remaining (on : Nat) (c : CadRun) : (cadStop on c).remaining = on := rfl
@[simp] theorem cadStart_listeners (on : Nat) (c : CadRun) : (cadStart on c).listeners = c.listeners := rfl
@[simp] theorem cadStart_running (on : Nat) (c : CadRun) : (cadStart on c).running = true := rfl
@[simp] theorem cadStart_phase (on : Nat) (c : CadRun) : (cadStart on c).phase = .on := rfl
@[simp] theorem cadStart_burst (on : Nat) (c : CadRun) : (cadStart on c).burst = 1 := rfl
@[simp] theorem cadStart_remaining (on : Nat) (c : CadRun) : (cadStart on c).remaining = on := rfl

/-- A cadence that takes a listener count is left as it is but for the count, or stands at the start of its
on-time (R118). -/
theorem cadCount_cases (on n : Nat) (c : CadRun) :
    cadCount on n c = { c with listeners := n } ∨
    cadCount on n c = cadStart on { c with listeners := n } ∨
    cadCount on n c = cadStop on { c with listeners := n } := by
  unfold cadCount
  split
  · exact .inr (.inl rfl)
  · split
    · exact .inr (.inr rfl)
    · exact .inl rfl

/-! ## The programs that R126 admits -/

/-- Taking one table from another copy takes the programs with table 9 and with no other. -/
theorem copyTable_progs (k : Nat) (a b : Tables) :
    (copyTable k a b).progs = if k = 9 then a.progs else b.progs := by
  unfold copyTable
  split <;> first | rfl | exact (if_neg ‹_›).symm

/-- Tables pass the check of R126 exactly if every program in use has a named mode and 1 to 8 admitted steps. -/
theorem programsOk_iff (t : Tables) :
    ProgramsOk t ↔ ∀ n : Fin 4, t.progs[n].inUse = true →
      (∃ m, t.progs[n].mode = .named m) ∧ 1 ≤ t.progs[n].steps.length ∧
      t.progs[n].steps.length ≤ 8 ∧
      ∀ p ∈ t.progs[n].steps, (∃ w, w ≤ 63 ∧ p = .named (.phrase w)) ∨ ∃ ms, p = .named (.gap ms) :=
  ⟨fun h n => (h n).elim fun _ hc => hc.1, fun h n => ⟨_, h n, rfl⟩⟩

/-- Only the programs matter to the check of R126. -/
theorem ProgramsOk.of_progs {t u : Tables} (h : ProgramsOk t) (e : u.progs = t.progs) : ProgramsOk u := by
  rw [programsOk_iff] at h ⊢
  rwa [e]

/-- All that the beginning of a step below the step count of a program in use can do: a PHRASE step plays the
valid phrase that it names, or is MISSING; a GAP step is silent (R126, R129, R130). -/
theorem beginStep_cases (n : Fin 4) (k : Nat) (s : State) (h : ProgramsOk s.work)
    (hu : s.work.progs[n].inUse = true) (hk : k < s.work.progs[n].steps.length) :
    (∃ (w : Nat) (p : Phrase), s.work.progs[n].steps[k]? = some (.named (.phrase w)) ∧
      s.work.phrases[w]? = some p ∧ p.valid = true ∧ 0 < p.length ∧
      beginStep n k s = beginPhrase n k p s) ∨
    (∃ w, beginStep n k s = beginMissing n k w s) ∨ ∃ ms, beginStep n k s = beginGap n k ms s := by
  have hm := List.getElem?_eq_getElem hk
  obtain ⟨w, _, hp⟩ | ⟨ms, hp⟩ := ((programsOk_iff _).1 h n hu).2.2.2 _ (List.getElem_mem hk) <;>
    rw [hp] at hm <;> unfold beginStep <;> rw [hm]
  · dsimp only
    split
    · split
      · rename_i p hw hv
        rw [Bool.and_eq_true, decide_eq_true_eq] at hv
        exact .inl ⟨w, p, rfl, hw, hv.1, hv.2, rfl⟩
      · exact .inr (.inl ⟨w, rfl⟩)
    · exact .inr (.inl ⟨w, rfl⟩)
  · exact .inr (.inr ⟨ms, rfl⟩)

/-- Every step below the step count of a program in use leaves its channel RUNNING at that step (R129, R130). -/
theorem beginStep_running (n : Fin 4) (k : Nat) (s : State) (h : ProgramsOk s.work)
    (hu : s.work.progs[n].inUse = true) (hk : k < s.work.progs[n].steps.length) :
    (beginStep n k s).chans[n].state = .running ∧ (beginStep n k s).chans[n].step = k := by
  obtain ⟨w, p, -, -, -, -, e⟩ | ⟨w, e⟩ | ⟨ms, e⟩ := beginStep_cases n k s h hu hk <;> rw [e] <;>
    simp [beginPhrase, beginMissing, beginGap, setChan, upd, phraseStep, silentStep]

end Sys2Proof.Machine
end

