-- ==== Sys2Proof/Laws/Messages.lean ====
section
/-!
SUPPORT. What RING_MESSAGE_COMPLETE does with a message that arrives: how it is settled, taken and sent along,
said once for every kind of message.
-/

namespace Sys2Proof.Machine

/-! ## The acknowledgement and the head of the messages received -/

@[simp] theorem addAck_origin (a : Ack) (m : Message) : (addAck a m).origin = m.origin := by
  cases a <;> rfl
@[simp] theorem addAck_tag (a : Ack) (m : Message) : (addAck a m).tag = m.tag := by cases a <;> rfl
@[simp] theorem takes_takeHead (m : Message) (s : State) : takes (takeHead s) m = takes s m := rfl

/-- A destination names this node by the test of R184. -/
theorem reaches_iff_named (s : State) (d : Nat) : reaches s d = true ↔ Named s d := by
  simp only [reaches, isOwn, isGroup, Named, Bool.or_eq_true, Bool.and_eq_true, bne_iff_ne, ne_eq,
    beq_iff_eq, decide_eq_true_eq, List.contains_iff_mem]
  tauto

/-- A destination is the address of this node by the test of R184. -/
theorem isOwn_iff (s : State) (d : Nat) : isOwn s d = true ↔ s.rif.addr ≠ 0 ∧ d = s.rif.addr := by
  simp [isOwn]

/-! ## A message that arrives -/

/-- A message that passes its checks with room in the forward hold is settled (R182). -/
theorem exec_ringMessageComplete_arrives {s : State} {m : Message} (h : Arrives s m) :
    exec (.ringMessageComplete m) s = .next (settleMessage m (takeHead s)) := by
  obtain ⟨bs, rest, hbs, htake⟩ := h.bytes
  have hbody : bodyFitsContent m.content m.body = true := by
    unfold bodyFitsContent
    split
    · rename_i b hb
      simp [h.body b hb]
    · rfl
  have hhead : headArrived m s = true := by simp [headArrived, hbs, htake, hbody]
  have hok : messageOk m = true := by
    simp [messageOk, h.check.symm, h.taken, h.full, h.hops]
  have hroom : decide (s.rif.fwd.length < Config.holdMax) = true := by
    simpa [Config.holdMax] using h.room
  have hrun : (s.running && s.locked && (headArrived m s || headFails s)) = true := by
    simp [State.running, State.locked, h.running, h.locked, hhead]
  show execRingMessageComplete m s = _
  unfold execRingMessageComplete
  rw [whenever_of hrun]
  simp [hhead, hok, hroom]

/-- A message handed over with the effect `t` and the acknowledgement `a` leaves `t` and goes along with `a` in
its union, or is stripped (R184–R186). -/
theorem settleMessage_eq {s t : State} {m : Message} {a : Ack}
    (h : takeMessage m (takeHead s) = (takeHead t, a)) (ha : t.rif.addr = s.rif.addr) :
    settleMessage m (takeHead s) = sentAlong (addAck a m) t := by
  unfold settleMessage sentAlong
  simp only [h, addAck_origin, addAck_tag]
  by_cases ho : m.origin = s.rif.addr
  · rw [if_pos (show m.origin = (takeHead s).rif.addr from ho), if_pos (ho.trans ha.symm)]
    rfl
  · rw [if_neg (show ¬m.origin = (takeHead s).rif.addr from ho), if_neg (ha ▸ ho)]
    rfl

/-- A message that this node does not take is handed to no block (R184). -/
theorem takeMessage_not {s : State} {m : Message} (h : takes s m = false) :
    takeMessage m s = (s, .none) := by simp [takeMessage, h]

/-- A message that this node takes is handed to its block (R184). -/
theorem takeMessage_of {s : State} {m : Message} (h : takes s m = true) :
    takeMessage m s = handTo m s := by simp [takeMessage, h]

/-- A reply that is no answer to a SLOT REQUEST changes nothing (R153, log entry 74). -/
theorem replyTaken_noAnswer {r : Reply} (h : NoAnswer r) (s : State) : replyTaken r s = s := by
  unfold replyTaken
  split
  · exact h.elim (absurd ‹_›) fun h => absurd ‹r.data = _› (h.1 _ _ _ _ ‹_›)
  · exact h.elim (absurd ‹_›) fun h => absurd ‹r.data = _› (h.2 _ ‹_›)
  · rfl

end Sys2Proof.Machine
end

