-- ==== Sys2Proof/Laws/PerInstr.lean ====
section
/-!
SUPPORT. What is said of every command by name: one lemma per constructor of `Instr`.
-/

namespace Sys2Proof.Laws

/-- Every group of commands (R198). -/
def allGroups : Sys2Proof.Groups := ⟨true, true, true, true, true, true, true⟩

/-- A command of the control stream either has a code the router does not know, or belongs to a group
of R198 (READ among them): a class that holds every group may send it. -/
def Grouped.Statement (i : Sys2Proof.Instr) : Prop :=
  ∀ e, i.entry = some e → Sys2Proof.Machine.unknownCode e.body = false →
    Sys2Proof.Machine.permits allGroups e.body = true

theorem Grouped.coldStart a0 : Grouped.Statement (.coldStart a0) :=
  fun _ h => nomatch h
theorem Grouped.startUpLoadComplete : Grouped.Statement (.startUpLoadComplete) :=
  fun _ h => nomatch h
theorem Grouped.timebaseMillisecond a0 : Grouped.Statement (.timebaseMillisecond a0) :=
  fun _ h => nomatch h
theorem Grouped.ringFrameReceived a0 a1 a2 : Grouped.Statement (.ringFrameReceived a0 a1 a2) :=
  fun _ h => nomatch h
theorem Grouped.masterFrameOriginate a0 : Grouped.Statement (.masterFrameOriginate a0) :=
  fun _ h => nomatch h
theorem Grouped.ringMessageComplete a0 : Grouped.Statement (.ringMessageComplete a0) :=
  fun _ h => nomatch h
theorem Grouped.forwardHoldSend : Grouped.Statement (.forwardHoldSend) :=
  fun _ h => nomatch h
theorem Grouped.insertionBegin : Grouped.Statement (.insertionBegin) :=
  fun _ h => nomatch h
theorem Grouped.returnRecordExpiry : Grouped.Statement (.returnRecordExpiry) :=
  fun _ h => nomatch h
theorem Grouped.ringLock : Grouped.Statement (.ringLock) :=
  fun _ h => nomatch h
theorem Grouped.isolatedRelock : Grouped.Statement (.isolatedRelock) :=
  fun _ h => nomatch h
theorem Grouped.ringLoss : Grouped.Statement (.ringLoss) :=
  fun _ h => nomatch h
theorem Grouped.ringIsolation : Grouped.Statement (.ringIsolation) :=
  fun _ h => nomatch h
theorem Grouped.isolationEscalation : Grouped.Statement (.isolationEscalation) :=
  fun _ h => nomatch h
theorem Grouped.slotsClearedNotice : Grouped.Statement (.slotsClearedNotice) :=
  fun _ h => nomatch h
theorem Grouped.staleReclaim a0 : Grouped.Statement (.staleReclaim a0) :=
  fun _ h => nomatch h
theorem Grouped.deferredReplyPlace : Grouped.Statement (.deferredReplyPlace) :=
  fun _ h => nomatch h
theorem Grouped.causeOn a0 a1 : Grouped.Statement (.causeOn a0 a1) :=
  fun _ h _ => by cases h; rfl
theorem Grouped.causeOff a0 a1 : Grouped.Statement (.causeOff a0 a1) :=
  fun _ h _ => by cases h; rfl
theorem Grouped.causeReset a0 a1 : Grouped.Statement (.causeReset a0 a1) :=
  fun _ h _ => by cases h; rfl
theorem Grouped.causeResetAll a0 : Grouped.Statement (.causeResetAll a0) :=
  fun _ h _ => by cases h; rfl
theorem Grouped.localInputEdge a0 a1 : Grouped.Statement (.localInputEdge a0 a1) :=
  fun _ h => nomatch h
theorem Grouped.localInputTaken a0 : Grouped.Statement (.localInputTaken a0) :=
  fun _ h => nomatch h
theorem Grouped.stageTimerExpiry a0 a1 : Grouped.Statement (.stageTimerExpiry a0 a1) :=
  fun _ h => nomatch h
theorem Grouped.escalateNow a0 a1 : Grouped.Statement (.escalateNow a0 a1) :=
  fun _ h _ => by cases h; rfl
theorem Grouped.escalateNowAll a0 : Grouped.Statement (.escalateNowAll a0) :=
  fun _ h _ => by cases h; rfl
theorem Grouped.holdStages a0 : Grouped.Statement (.holdStages a0) :=
  fun _ h _ => by cases h; rfl
theorem Grouped.releaseStages a0 : Grouped.Statement (.releaseStages a0) :=
  fun _ h _ => by cases h; rfl
theorem Grouped.zoneSet a0 a1 a2 : Grouped.Statement (.zoneSet a0 a1 a2) :=
  fun _ h _ => by cases h; rfl
theorem Grouped.zoneClear a0 a1 : Grouped.Statement (.zoneClear a0 a1) :=
  fun _ h _ => by cases h; rfl
theorem Grouped.silence a0 a1 : Grouped.Statement (.silence a0 a1) :=
  fun _ h _ => by cases h; rfl
theorem Grouped.resound a0 a1 : Grouped.Statement (.resound a0 a1) :=
  fun _ h _ => by cases h; rfl
theorem Grouped.cadencePhaseEnd a0 : Grouped.Statement (.cadencePhaseEnd a0) :=
  fun _ h => nomatch h
theorem Grouped.playoutStepEnd a0 : Grouped.Statement (.playoutStepEnd a0) :=
  fun _ h => nomatch h
theorem Grouped.playStart a0 a1 : Grouped.Statement (.playStart a0 a1) :=
  fun _ h _ => by cases h; rfl
theorem Grouped.playStop a0 a1 : Grouped.Statement (.playStop a0 a1) :=
  fun _ h _ => by cases h; rfl
theorem Grouped.capture a0 a1 a2 a3 : Grouped.Statement (.capture a0 a1 a2 a3) :=
  fun _ h _ => by cases h; rfl
theorem Grouped.captureLimit : Grouped.Statement (.captureLimit) :=
  fun _ h => nomatch h
theorem Grouped.captureStop a0 : Grouped.Statement (.captureStop a0) :=
  fun _ h _ => by cases h; rfl
theorem Grouped.keyEdge a0 : Grouped.Statement (.keyEdge a0) :=
  fun _ h => nomatch h
theorem Grouped.keyPress : Grouped.Statement (.keyPress) :=
  fun _ h => nomatch h
theorem Grouped.keyRelease : Grouped.Statement (.keyRelease) :=
  fun _ h => nomatch h
theorem Grouped.forcedRelease : Grouped.Statement (.forcedRelease) :=
  fun _ h => nomatch h
theorem Grouped.slotAnswerDeadline : Grouped.Statement (.slotAnswerDeadline) :=
  fun _ h => nomatch h
theorem Grouped.wardenFreshTake : Grouped.Statement (.wardenFreshTake) :=
  fun _ h => nomatch h
theorem Grouped.pilotPulse a0 a1 : Grouped.Statement (.pilotPulse a0 a1) :=
  fun _ h => nomatch h
theorem Grouped.healthInputChange a0 a1 : Grouped.Statement (.healthInputChange a0 a1) :=
  fun _ h => nomatch h
theorem Grouped.windowEnd : Grouped.Statement (.windowEnd) :=
  fun _ h => nomatch h
theorem Grouped.clearFaults a0 : Grouped.Statement (.clearFaults a0) :=
  fun _ h _ => by cases h; rfl
theorem Grouped.tableWrite a0 a1 a2 a3 : Grouped.Statement (.tableWrite a0 a1 a2 a3) :=
  fun _ h _ => by cases h; rfl
theorem Grouped.commit a0 : Grouped.Statement (.commit a0) :=
  fun _ h _ => by cases h; rfl
theorem Grouped.commitStepEnd : Grouped.Statement (.commitStepEnd) :=
  fun _ h => nomatch h
theorem Grouped.restart a0 : Grouped.Statement (.restart a0) :=
  fun _ h _ => by cases h; rfl
theorem Grouped.restartEffect : Grouped.Statement (.restartEffect) :=
  fun _ h => nomatch h
theorem Grouped.slotClearAll a0 : Grouped.Statement (.slotClearAll a0) :=
  fun _ h _ => by cases h; rfl
theorem Grouped.statusRead a0 : Grouped.Statement (.statusRead a0) :=
  fun _ h _ => by cases h; rfl
theorem Grouped.zoneRead a0 a1 : Grouped.Statement (.zoneRead a0 a1) :=
  fun _ h _ => by cases h; rfl
theorem Grouped.causeRead a0 a1 : Grouped.Statement (.causeRead a0 a1) :=
  fun _ h _ => by cases h; rfl
theorem Grouped.tableRead a0 a1 a2 : Grouped.Statement (.tableRead a0 a1 a2) :=
  fun _ h _ => by cases h; rfl
theorem Grouped.powerLoss : Grouped.Statement (.powerLoss) :=
  fun _ h => nomatch h
theorem Grouped.unknownCommandCode a0 a1 : Grouped.Statement (.unknownCommandCode a0 a1) :=
  fun _ h g => by cases h; cases g

end Sys2Proof.Laws
end

