-- ==== Sys2Proof/Laws/Store.lean ====
section
/-!
SUPPORT. The message store as a memory: a read after a write, and that every write keeps the canonical
form.
-/

namespace Sys2Proof.Machine

/-- Reading the address just written gives the sample written. -/
theorem storeRead_write_self (m : Store) (h : storeWf m = true) (a : Nat) (v : Sample) :
    storeRead (storeWrite m a v) a = v := by
  induction m with
  | nil => by_cases hv : v = storeBlank <;> simp [storeWrite, storeRead, hv]
  | cons p rest ih =>
    obtain ⟨k, w⟩ := p
    simp only [storeWf, Bool.and_eq_true, List.all_eq_true, decide_eq_true_eq] at h
    have hrest : ∀ b, b ≤ k → storeRead rest b = storeBlank := by
      intro b hb
      have hall := h.1.2
      clear ih h
      induction rest with
      | nil => rfl
      | cons q t iht =>
        have hq := hall q (by simp)
        have : q.1 ≠ b := by omega
        simp only [storeRead, this, if_false]
        exact iht fun x hx => hall x (by simp [hx])
    simp only [storeWrite]
    split
    · next hlt =>
      split
      · next hv =>
        have : k ≠ a := by omega
        simp only [storeRead, this, if_false, hv]
        exact hrest a (by omega)
      · simp [storeRead]
    · split
      · next he =>
        split
        · next hv => rw [hv]; exact hrest a (by omega)
        · simp [storeRead]
      · next hne =>
        have : k ≠ a := fun e => hne e.symm
        simp only [storeRead, this, if_false]
        exact ih h.2

/-- A write leaves every other address alone. -/
theorem storeRead_write_other (m : Store) (a b : Nat) (hab : a ≠ b) (v : Sample) (h : storeWf m = true) :
    storeRead (storeWrite m a v) b = storeRead m b := by
  induction m with
  | nil => by_cases hv : v = storeBlank <;> simp [storeWrite, storeRead, hv, hab]
  | cons p rest ih =>
    obtain ⟨k, w⟩ := p
    simp only [storeWf, Bool.and_eq_true, List.all_eq_true, decide_eq_true_eq] at h
    have hrest : storeRead rest k = storeBlank := by
      have hall := h.1.2
      clear ih h
      induction rest with
      | nil => rfl
      | cons q t iht =>
        have hq := hall q (by simp)
        have : q.1 ≠ k := by omega
        simp only [storeRead, this, if_false]
        exact iht fun x hx => hall x (by simp [hx])
    simp only [storeWrite]
    split
    · split <;> simp [storeRead, hab]
    · split
      · next he =>
        subst he
        split <;> simp [storeRead, hab]
      · simp only [storeRead]
        split
        · rfl
        · exact ih h.2

theorem storeWrite_bound (m : Store) (a b : Nat) (v : Sample) (hb : b < a)
    (h : ∀ p ∈ m, b < p.1) : ∀ p ∈ storeWrite m a v, b < p.1 := by
  induction m with
  | nil =>
    intro p hp
    simp only [storeWrite] at hp
    split at hp <;> simp_all
  | cons q rest ih =>
    intro p hp
    obtain ⟨k, w⟩ := q
    have hr := ih fun p hp => h p (by simp [hp])
    simp only [storeWrite] at hp
    split at hp
    · split at hp
      · exact h p hp
      · rcases List.mem_cons.1 hp with e | e
        · simpa [e] using hb
        · exact h p e
    · split at hp
      · split at hp
        · exact h p (by simp [hp])
        · rcases List.mem_cons.1 hp with e | e
          · simpa [e] using hb
          · exact h p (by simp [e])
      · rcases List.mem_cons.1 hp with e | e
        · exact h p (by simp [e])
        · exact hr p e

/-- Every write keeps the canonical form. -/
theorem storeWrite_wf (m : Store) (a : Nat) (v : Sample) (h : storeWf m = true) :
    storeWf (storeWrite m a v) = true := by
  induction m with
  | nil => by_cases hv : v = storeBlank <;> simp [storeWrite, storeWf, hv]
  | cons p rest ih =>
    obtain ⟨k, w⟩ := p
    simp only [storeWf, Bool.and_eq_true, List.all_eq_true, decide_eq_true_eq, bne_iff_ne] at h
    obtain ⟨⟨hw, hall⟩, hr⟩ := h
    simp only [storeWrite]
    split
    · next hlt =>
      split
      · simp only [storeWf, Bool.and_eq_true, List.all_eq_true, decide_eq_true_eq, bne_iff_ne]
        exact ⟨⟨hw, hall⟩, hr⟩
      · next hv =>
        simp only [storeWf, Bool.and_eq_true, List.all_eq_true, decide_eq_true_eq, bne_iff_ne]
        refine ⟨⟨hv, ?_⟩, ⟨hw, hall⟩, hr⟩
        intro q hq
        rcases List.mem_cons.1 hq with e | e
        · simpa [e] using hlt
        · have := hall q e; omega
    · split
      · next he =>
        split
        · exact hr
        · next hv =>
          simp only [storeWf, Bool.and_eq_true, List.all_eq_true, decide_eq_true_eq, bne_iff_ne]
          exact ⟨⟨hv, fun q hq => by have := hall q hq; omega⟩, hr⟩
      · next hn hne =>
        simp only [storeWf, Bool.and_eq_true, List.all_eq_true, decide_eq_true_eq, bne_iff_ne]
        exact ⟨⟨hw, storeWrite_bound rest a k v (by omega) hall⟩, ih hr⟩

/-- The store at reset holds nothing, in canonical form. -/
theorem reset_store_wf : storeWf State.reset.store = true := rfl

end Sys2Proof.Machine
end

