-- ==== Sys2Proof/Tests/Slice0.lean ====
section
/-!
SUPPORT. Tests: ill-formed commands that WellFormed refuses, for each statement a state and operands
that meet its hypotheses, and single steps with results taken from the manual's examples.
-/

namespace Sys2Proof.Tests

open Sys2Proof Sys2Proof.Machine

/-! ## WellFormed -/

/-- A request of class 0 from node 17 with tag 5. -/
def q0 : Request := ⟨17, 0, 5, true⟩
/-- A request of class 3, which holds CONFIG by factory default (R92). -/
def q3 : Request := ⟨17, 3, 5, true⟩
/-- A message from a node to a destination, with the body of its content and its check. -/
def sent (dest origin : Nat) (c : Content) : Message :=
  sealMessage
    { dest := dest, origin := origin, cls := 0, low := 0#3, content := c, tag := 5, hops := 0
      taken := false, takenBar := true, full := false, fullBar := true, spare := 0#4
      body := (bodyOf c).getD [], check := 0#16 }
/-- A message of node 17 to every node. -/
def msg (c : Content) : Message := sent 255 17 c

theorem test_wf_request : Instr.wf (.causeOn q0 5) = true := by decide
theorem test_wf_origin : Instr.wf (.causeOn { q0 with origin := 256 } 5) = false := by decide
theorem test_wf_tag : Instr.wf (.causeOn { q0 with tag := 256 } 5) = false := by decide
theorem test_wf_message : Instr.wf (.ringMessageComplete (msg (.notice (.other 0)))) = true := by
  decide
theorem test_wf_dest :
    Instr.wf (.ringMessageComplete { msg (.notice (.other 0)) with dest := 256 }) = false := by
  decide
theorem test_wf_message_origin :
    Instr.wf (.ringMessageComplete { msg (.notice (.other 0)) with origin := 256 }) = false := by
  decide
theorem test_wf_message_tag :
    Instr.wf (.ringMessageComplete { msg (.notice (.other 0)) with tag := 256 }) = false := by decide
theorem test_wf_hops :
    Instr.wf (.ringMessageComplete { msg (.notice (.other 0)) with hops := 256 }) = false := by
  decide
theorem test_wf_body :
    Instr.wf (.ringMessageComplete
      { msg (.notice (.other 0)) with body := List.replicate 33 0#8 }) = false := by decide
theorem test_wf_timer_zone : Instr.wf (.stageTimerExpiry 512 0) = false := by decide
theorem test_wf_timer_ref : Instr.wf (.stageTimerExpiry 511 16) = false := by decide
theorem test_wf_label_low : Instr.wf (.staleReclaim 15) = false := by decide
theorem test_wf_label_high : Instr.wf (.staleReclaim 32) = false := by decide
theorem test_wf_code : Instr.wf (.unknownCommandCode q0 256) = false := by decide

/-! ## States -/

/-- A running router in BYPASS over the factory tables. -/
def base : State := { State.reset with phase := .running }
/-- A running router at address 60, LOCKED, with nothing to announce. -/
def ringed : State :=
  { base with
    rif := { coldRif with ring := .locked, addr := 60 }
    slots := { coldSlots with pending := .labels [] } }
/-- The same in the master role. -/
def master : State := { ringed with rif := { ringed.rif with master := true } }
/-- The same with one command at the head of its queue. -/
def withCmd (s : State) (q : Request) (b : CmdBody) : State := { s with cmdQueue := [⟨q, b⟩] }
/-- A record of a detection zone, with one reference. -/
def rec1 (dz : Nat) (latched : Bool) (timer : Option Nat) : ActRecord :=
  { dz := dz, cls := 0, origin := 17, time := 0, level := none, sector := none, latched := latched
    restored := false, truncated := false
    refs := [{ entry := 0, effect := 0, stage := .alert, timer := timer, due := false }] }
/-- The same, its timer at the end of its last millisecond. -/
def recDue (dz : Nat) : ActRecord :=
  { rec1 dz true none with
    refs := [{ entry := 0, effect := 0, stage := .alert, timer := some 1, due := true }] }
/-- A state with some records. -/
def withRecs (s : State) (rs : List ActRecord) : State := { s with acts := rs, alarmLock := true }

theorem mayBegin_ringed {q : Request} {b : CmdBody} {n : Nat} (h : n ≤ 12) :
    mayBegin (withCmd ringed q b) n = true := by
  have h2 : noticeReady (withCmd ringed q b) = false := rfl
  have h3 : (withCmd ringed q b).room = 12 := rfl
  have h4 : (withCmd ringed q b).running = true := rfl
  have h5 : (withCmd ringed q b).restart = none := rfl
  have h6 : (withCmd ringed q b).deferred = [] := rfl
  simp [mayBegin, h2, h3, h4, h5, h6, h]

/-- A reply that is a record finds room in an empty outbound queue, whatever its length. -/
theorem admitted_record {q : Request} {b : CmdBody} (d : ReplyData)
    (h : refusalOf (withCmd ringed q b) ⟨q, b⟩ = none) :
    Admitted (withCmd ringed q b) q b (partsOf d) :=
  ⟨rfl, h, mayBegin_ringed (partsOf_le d)⟩

/-- A TABLE WRITE that is taken, from conditions on the state that can be decided. -/
theorem writeTaken_of {s : State} {q : Request} {t i : Nat} {c c' : Contents}
    (hq : s.cmdQueue.head? = some ⟨q, .tableWrite t i c⟩) (hc : s.capture = none)
    (h : entryOf s.work t i ≠ none ∧ entryOf s.work t i ≠ some c' ∧ s.commit = none ∧
      checkContents s.work i c = some c' ∧ refusalOf s ⟨q, .tableWrite t i c⟩ = none ∧
      mayBegin s (if t = 11 ∧ (insertionSlot s).isSome = true then 2 else 1) = true) :
    WriteTaken s q t i c c' where
  names := h.1
  changes := h.2.1
  commit := h.2.2.1
  capture := fun x hx => by rw [hc] at hx; exact absurd hx (by simp)
  passes := h.2.2.2.1
  begins := ⟨hq, h.2.2.2.2.1, h.2.2.2.2.2⟩

/-! ## Hypotheses of the statements -/

theorem witness_StepRunsFrontCommand :
    ({ base with pending := [.windowEnd] } : State).pending = .windowEnd :: [] ∧ base.pending = [] :=
  ⟨rfl, rfl⟩

/-- A command of a class at the head of the queue of a router that may begin it. -/
theorem witness_ChecksInOrder_unknown :
    Instr.entry (.unknownCommandCode q0 9) = some ⟨q0, .unknown 9⟩ ∧
    (withCmd ringed q0 (.unknown 9)).cmdQueue.head? = some ⟨q0, .unknown 9⟩ ∧
    mayBegin (withCmd ringed q0 (.unknown 9)) 1 = true :=
  ⟨rfl, rfl, mayBegin_ringed (by decide)⟩
theorem witness_ChecksInOrder_class :
    Instr.entry (.commit { q0 with cls := 4 }) = some ⟨{ q0 with cls := 4 }, .commit⟩ ∧
    mayBegin (withCmd ringed { q0 with cls := 5 } .commit) 1 = true :=
  ⟨rfl, mayBegin_ringed (by decide)⟩
theorem witness_ChecksInOrder_permission :
    permits ringed.work.orig[q0.cls].perms .commit = false ∧
    mayBegin (withCmd ringed q0 .commit) 1 = true :=
  ⟨by decide, mayBegin_ringed (by decide)⟩
theorem witness_ChecksInOrder_form :
    permits ringed.work.orig[q0.cls].perms .holdStages = true ∧
    bodyFits ⟨{ q0 with formOk := false }, .holdStages⟩ = false ∧
    mayBegin (withCmd ringed { q0 with formOk := false } .holdStages) 1 = true :=
  ⟨by decide, by decide, mayBegin_ringed (by decide)⟩
theorem witness_ChecksInOrder_locked (b : CmdBody)
    (h : b = .commit ∨ b = .slotClearAll ∨ b = .capture 0 0 1 ∨
      b = .tableWrite 11 0 (.warden Config.defWarden)) :
    permits ringed.work.orig[q3.cls].perms b = true ∧ bodyFits ⟨q3, b⟩ = true ∧
    ({ withCmd ringed q3 b with alarmLock := true } : State).alarmLock = true ∧
    mayBegin { withCmd ringed q3 b with alarmLock := true } 1 = true := by
  rcases h with rfl | rfl | rfl | rfl <;> decide

theorem witness_AlarmLockKept : LockAgrees base ∧ Machine.step base = .next base :=
  ⟨by unfold LockAgrees; decide, rfl⟩
theorem witness_ClaimListsKept : ListsOk base ∧ Machine.step base = .next base := by
  refine ⟨fun z => ?_, rfl⟩
  have h : base.lists[z] = [] := by revert z; decide
  rw [h]
  exact ⟨by decide, .nil, .nil⟩
theorem witness_QueuesBoundedKept : Bounded base ∧ Machine.step base = .next base :=
  ⟨by unfold Bounded; decide, rfl⟩
theorem witness_StoreFormKept : StoreOk base ∧ Machine.step base = .next base := ⟨rfl, rfl⟩
theorem phrasesPlay_idle {s : State} (h : ∀ n : Fin 4, s.chans[n].state ≠ .running) (hc : s.capture = none) :
    PhrasesPlay s :=
  ⟨fun n hn => absurd hn (h n), fun c _ h1 => by simp [hc] at h1, fun _ => ⟨h, hc⟩⟩
theorem witness_RecordsKept :
    RecordsOk (withRecs base [rec1 3 true (some 5), rec1 4 false none]) ∧
    Machine.step (withRecs base [rec1 3 true (some 5), rec1 4 false none]) =
      .next (withRecs base [rec1 3 true (some 5), rec1 4 false none]) := by
  refine ⟨?_, rfl⟩
  simp [RecordsOk, withRecs, rec1, Config.actMax, Config.refMax]
/-- No standby channel serves: the pool is in order. -/
theorem oneFeed_free {s : State} (h : ∀ k : Fin 2, s.serving[k] = none) : OneFeed s :=
  ⟨fun z hz => by simp [h 0] at hz, fun k _ => h k⟩
theorem witness_OneFeedKept : OneFeed base ∧ Machine.step base = .next base :=
  ⟨oneFeed_free (by decide), rfl⟩
/-- A pool without a served or a waiting zone is settled. -/
theorem poolSettled_free {s : State} (h : ∀ k : Fin 2, s.serving[k] = none)
    (h' : ∀ z : Zone, failedZone s z = false) : PoolSettled s :=
  ⟨fun k z hz => by simp [h k] at hz, fun z hz => by simp [h' z] at hz⟩
/-- Where no zone holds a claim, the outputs follow. -/
theorem outputsFollow_quiet {s : State} (h : ∀ z : Zone, zoneInUse s z = true ∧ OutOk s z)
    (hp : s.phase ≠ .loading) : OutputsFollow s :=
  ⟨fun z => by rw [if_pos (h z).1]; exact (h z).2, fun hl => absurd hl hp⟩
theorem outputsFollow_base : OutputsFollow base :=
  outputsFollow_quiet (by unfold OutOk; decide) (by decide)
theorem outputsFollow_ringed : OutputsFollow ringed :=
  outputsFollow_quiet (by unfold OutOk; decide) (by decide)
theorem witness_OneFeedKept_pool :
    OutputsFollow base ∧ PoolSettled base ∧ Machine.step base = .next base :=
  ⟨outputsFollow_base, poolSettled_free (by decide) (by decide), rfl⟩
theorem witness_QuietUnlessLockedKept : QuietUnlessLocked base ∧ Machine.step base = .next base :=
  ⟨by unfold QuietUnlessLocked; decide, rfl⟩
theorem witness_OutputsFollowKept : OutputsFollow base ∧ Machine.step base = .next base :=
  ⟨outputsFollow_base, rfl⟩
theorem witness_ListenersCountedKept : ListenersCounted base ∧ Machine.step base = .next base :=
  ⟨by unfold ListenersCounted; decide, rfl⟩
/-- No cadence runs and none is listened to, and no channel is. -/
theorem witness_ListenersCountedKept_served :
    OutputsFollow ringed ∧ ListenersCounted ringed ∧ ListenersServed ringed := by
  refine ⟨outputsFollow_ringed, by unfold ListenersCounted; decide, fun n => ?_⟩
  have h : ringed.cads[n].running = false ∧ ringed.cads[n].listeners = 0 ∧
      ringed.chans[n].listeners = 0 ∧ ringed.cads[n].phase = .on ∧ ringed.cads[n].burst = 1 ∧
      ringed.cads[n].remaining = ringed.work.cad[n].on := by revert n; decide
  exact ⟨⟨fun hr => absurd (hr.symm.trans h.1) (by decide), fun hl => absurd hl (Nat.not_lt.mpr h.2.1.le)⟩,
    fun _ => h.2.2.2, fun _ _ _ hl => absurd hl (Nat.not_lt.mpr h.2.2.1.le)⟩

/-- State.reset is loading, every zone muted, no input taken; with its checks failing. -/
theorem witness_LoadCompletes :
    State.reset.phase = .loading ∧
    (∀ z : Zone, State.reset.lists[z] = [] ∧ State.reset.outs[z] = mutedOut) ∧
    State.reset.warden = coldWarden ∧
    (∀ n : Fin 8, State.reset.inputs[n] = { active := false, due := none }) ∧
    State.reset.reports.length < 16 ∧ State.reset.nvOk[(0 : Fin 12)] = false := by decide
/-- With a valid Node Identity: an address of its own, and straps at 1, 239, 0 and 240. -/
theorem witness_LoadCompletes_address :
    let s := { State.reset with
      nvOk := Vector.replicate 12 true
      nv := { Config.factory with node := { Config.defNode with addr := 60 } } }
    s.nvOk[(0 : Fin 12)] = true ∧ (loadTables s).node.addr = 60 := by decide
theorem witness_LoadCompletes_straps :
    let s (k : BitVec 8) := { State.reset with
      nvOk := Vector.replicate 12 true, pins := { State.reset.pins with straps := k } }
    (s 1#8).nvOk[(0 : Fin 12)] = true ∧ (loadTables (s 1#8)).node.addr = 0 ∧
    1 ≤ (s 1#8).pins.straps.toNat ∧ (s 239#8).pins.straps.toNat ≤ 239 ∧
    (s 0#8).pins.straps.toNat = 0 ∧ 239 < (s 240#8).pins.straps.toNat := by decide

theorem witness_MillisecondCounts :
    base.phase ≠ .off ∧ ¬(base.rif.ring = .locked ∧ base.msDue = true) ∧
    ({ ringed with msDue := true } : State).rif.ring = .locked ∧
    ∀ r ∈ (withRecs base [rec1 3 true (some 1)]).acts, ∀ f ∈ r.refs, f.due = false := by decide
/-- A PHRASE step with 17 samples left, outside LOCKED. -/
theorem witness_MillisecondCounts_phrase :
    let c : ChanRun := { idleChan with state := .running, kind := .phrase, remaining := 17 }
    let s := { base with chans := Vector.replicate 4 c }
    s.chans[(0 : Fin 4)].state = .running ∧ s.chans[(0 : Fin 4)].kind = .phrase ∧
    s.chans[(0 : Fin 4)].due = false ∧ s.rif.ring ≠ .locked ∧
    16 < s.chans[(0 : Fin 4)].remaining := by decide
/-- PHRASE steps with 16 samples left and with one, one that is due to end, and a GAP past its last
millisecond, outside LOCKED. -/
theorem witness_MillisecondCounts_end :
    let c (k : Nat) (due : Bool) : ChanRun :=
      { idleChan with state := .running, kind := .phrase, remaining := k, due := due }
    let g : ChanRun := { idleChan with state := .running, late := 3 }
    (c 16 false).state = .running ∧ (c 16 false).kind = .phrase ∧ (c 16 false).remaining ≤ 16 ∧
    0 < (c 1 false).remaining ∧ (c 1 false).due = false ∧ (c 1 true).due = true ∧ g.state = .running ∧
    g.kind ≠ .phrase ∧ g.remaining = 0 ∧ base.rif.ring ≠ .locked := by decide

/-- A valid frame with slot 3 present. -/
def goodFrame : Frame :=
  sealFrame { emptyFrame with presence := 8#32, slots := Vector.replicate 32 77#16 }
/-- The same with a check that fails. -/
def badFrame : Frame := { goodFrame with check := goodFrame.check + 1#16 }
theorem frameBody_check (f : Frame) (c : BitVec 16) : frameBody { f with check := c } = frameBody f :=
  rfl
theorem sealFrame_check (f : Frame) : (sealFrame f).check = crc16 (frameBody (sealFrame f)) := by
  unfold sealFrame
  simp only [frameBody_check]
theorem goodFrame_ok : goodFrame.marker = marker ∧ goodFrame.check = crc16 (frameBody goodFrame) :=
  ⟨rfl, sealFrame_check _⟩
theorem badFrame_bad : badFrame.check ≠ crc16 (frameBody badFrame) := by
  unfold badFrame
  rw [frameBody_check, ← goodFrame_ok.2]
  intro h
  have h' : goodFrame.check + 1#16 = goodFrame.check + 0#16 := by
    simpa only [BitVec.add_zero] using h
  exact absurd ((BitVec.add_right_inj _).mp h') (by decide)
theorem witness_UnlockedNodeForwards :
    base.phase ≠ .off ∧ base.rif.ring = .bypass ∧
    ({ base with rif := { coldRif with ring := .seeking } } : State).rif.ring ≠ .bypass ∧
    ({ base with rif := { coldRif with ring := .lost } } : State).rif.ring ≠ .locked ∧
    coldRif.master = false ∧ coldRif.tx = none ∧
    ({ goodFrame with marker := (0#8, 0#8) } : Frame).marker ≠ marker := by decide
theorem witness_HeldSlotInserted :
    ringed.phase ≠ .off ∧ ringed.rif.ring = .locked ∧ ringed.rif.master = false ∧
    ({ ringed.warden with slot := .holding 31 31 } : Warden).slot = .holding 31 31 := by decide
theorem witness_HeldSlotInserted_void :
    ringed.phase ≠ .off ∧ ringed.rif.ring = .locked ∧ ringed.rif.master = false ∧
    badFrame.marker = marker ∧ badFrame.check ≠ crc16 (frameBody badFrame) :=
  ⟨by decide, rfl, rfl, rfl, badFrame_bad⟩
/-- A valid frame of given control bytes. -/
def ctlFrame (k : Control) (b : Byte) : Frame :=
  sealFrame { goodFrame with control := k, ctl := #v[b, 0#8, 0#8, 0#8] }
theorem ctlFrame_ok (k : Control) (b : Byte) :
    (ctlFrame k b).marker = marker ∧ (ctlFrame k b).check = crc16 (frameBody (ctlFrame k b)) ∧
    (ctlFrame k b).control = k ∧ (ctlFrame k b).ctl.toList = [b, 0#8, 0#8, 0#8] :=
  ⟨rfl, sealFrame_check _, rfl, rfl⟩
/-- A part received, and its next four bytes: a header of 33 and of 32 body bytes, the last bytes of a body of
32 and of none. -/
theorem witness_HeldSlotInserted_part :
    let rx (n : Nat) : List Byte := List.replicate n 32#8
    let s (n : Nat) := { ringed with rif := { ringed.rif with rx := some (rx n) } }
    (s 4).phase ≠ .off ∧ (s 4).rif.ring = .locked ∧ (s 4).rif.passing = false ∧
    (s 4).rif.rx = some (rx 4) ∧
    (rx 4 ++ (ctlFrame .continue 33#8).ctl.toList)[4]? = some 33#8 ∧ 32 < (33#8).toNat ∧
    (rx 4 ++ (ctlFrame .continue 32#8).ctl.toList)[4]? = some 32#8 ∧ 4 + 4 < 10 + (32#8).toNat ∧
    (rx 38 ++ (ctlFrame .continue 0#8).ctl.toList)[4]? = some 32#8 ∧
    10 + (32#8).toNat ≤ (rx 38).length + 4 ∧
    ([0#8, 0#8, 0#8, 0#8, 0#8, 0#8] ++ (ctlFrame .continue 0#8).ctl.toList)[4]? = some 0#8 ∧
    10 + (0#8).toNat ≤ 6 + 4 ∧ (ctlFrame .continue 0#8).control = .continue := by decide
/-- A frame without a part to go on with, and one in passage. -/
theorem witness_HeldSlotInserted_noPart :
    ringed.rif.rx = none ∧ (ctlFrame .start 0#8).control = .start ∧
    (ctlFrame .void 0#8).control = .void ∧ (ctlFrame .idle 0#8).control = .idle ∧
    ({ ringed.rif with passing := true } : Rif).passing = true := by decide
/-- The last four bytes of a message of the node's own, and one with five to go. -/
theorem witness_HeldSlotInserted_sending :
    let x : Tx := { tag := 0, own := true, fresh := false, begun := 0, rest := List.replicate 5 1#8 }
    let s := { ringed with rif := { ringed.rif with tx := some x } }
    s.rif.passing = false ∧ s.rif.master = false ∧ s.rif.tx = some x ∧ ¬x.rest.length ≤ 4 ∧
    x.own = true ∧ ({ x with rest := x.rest.drop 1 } : Tx).rest.length ≤ 4 := by decide
theorem witness_CaptureTakesSample :
    let c : Capture := { phrase := 0, slot := 31, maxSamples := 16, recorded := 0, requester := q3 }
    let s := { ringed with
      capture := some c
      work := { Config.factory with
        phrases := Vector.replicate 64 { Config.defPhrase with capacity := 16 } } }
    s.phase ≠ .off ∧ s.rif.ring = .locked ∧ StoreOk s ∧ s.capture = some c ∧
    s.work.phrases[c.phrase]? = some { Config.defPhrase with capacity := 16 } ∧ c.slot < 32 ∧
    c.recorded < 16 ∧ c.recorded < c.maxSamples := by
  refine ⟨by decide, rfl, rfl, rfl, by decide, by decide, by decide, by decide⟩
/-- PHRASE steps at their last sample but one and at their last, and one due to end; a GAP late by 3 sample
times. -/
theorem witness_CaptureTakesSample_channels :
    let c (k : Nat) (due : Bool) : ChanRun :=
      { idleChan with state := .running, kind := .phrase, remaining := k, due := due }
    let s := { ringed with
      chans := #v[c 2 false, c 1 false, c 1 true, { idleChan with state := .running, late := 3 }] }
    s.rif.ring = .locked ∧ StoreOk s ∧ (∀ n : Fin 4, s.chans[n].state = .running) ∧
    s.chans[(0 : Fin 4)].kind = .phrase ∧ s.chans[(0 : Fin 4)].due = false ∧
    1 < s.chans[(0 : Fin 4)].remaining ∧ s.chans[(1 : Fin 4)].remaining = 1 ∧
    s.chans[(2 : Fin 4)].due = true ∧ s.chans[(3 : Fin 4)].kind ≠ .phrase ∧
    s.chans[(3 : Fin 4)].remaining = 0 ∧ 0 < s.chans[(3 : Fin 4)].late :=
  ⟨rfl, rfl, by decide, rfl, rfl, by decide, rfl, rfl, by decide, rfl, by decide⟩
theorem witness_MasterCarriesSlots :
    master.phase = .running ∧ master.rif.master = true ∧ master.rif.ring ≠ .bypass ∧
    goodFrame.presence.getLsbD 3 = true ∧ goodFrame.relay.getLsbD 3 = false ∧
    goodFrame.presence.getLsbD 31 = false := by decide

/-- The master sends the last four bytes of a message, and one with a byte to go, at the first place. -/
theorem witness_MasterCarriesSlots_control :
    let x : Tx := { tag := 0, own := true, fresh := true, begun := 0, rest := List.replicate 5 1#8 }
    let s := { master with rif := { master.rif with tx := some x } }
    s.phase = .running ∧ s.rif.master = true ∧ s.rif.ring = .locked ∧ s.rif.passing = false ∧
    s.rif.tx = some x ∧ ({ x with rest := x.rest.drop 1 } : Tx).rest.length ≤ 4 ∧
    master.rif.tx = none := by decide
/-- Slot 16 is HELD at a master that receives a frame with it present; and a frame whose check fails. -/
theorem witness_MasterCarriesSlots_received :
    let f := sealFrame { goodFrame with presence := 0x80010000#32 }
    let es := (coldSlots.entries.set 0 { heldSlot 16 17 with absence := 4999 }).set 15
      { heldSlot 31 18 with absence := 4999 }
    let s := { master with slots := { coldSlots with entries := es } }
    s.phase ≠ .off ∧ s.rif.master = true ∧ s.rif.ring ≠ .bypass ∧ f.marker = marker ∧
    f.check = crc16 (frameBody f) ∧ s.slots.entries[(0 : Fin 16)].held.isSome = true ∧
    s.slots.entries[(15 : Fin 16)].held.isSome = true ∧
    f.presence.getLsbD 16 = true ∧ f.presence.getLsbD 31 = true ∧ f.relay.getLsbD 16 = false ∧
    badFrame.check ≠ crc16 (frameBody badFrame) :=
  ⟨by decide, rfl, by decide, rfl, sealFrame_check _, by decide, by decide, by decide, by decide,
    by decide, badFrame_bad⟩

/-- A state in which ring-in has brought one message complete. -/
def arriving (s : State) (m : Message) : State :=
  { s with rif := { s.rif with arrived := [messageBytes m] } }
theorem messageBytes_length (m : Message) : (messageBytes m).length = 10 + m.body.length := by
  simp [messageBytes, headerBytes, bytes16]
  omega
theorem received_arriving {s : State} {m : Message} (h1 : s.phase = .running)
    (h2 : s.rif.ring = .locked) (hb : ∀ b, bodyOf m.content = some b → m.body = b) :
    Received (arriving s m) m :=
  ⟨h1, h2, ⟨_, [], rfl, List.take_of_length_le (by rw [messageBytes_length])⟩, hb⟩
theorem messageCheck_check (m : Message) (c : BitVec 16) :
    messageCheck { m with check := c } = messageCheck m := rfl
theorem sealMessage_check (m : Message) : (sealMessage m).check = messageCheck (sealMessage m) := by
  unfold sealMessage
  simp only [messageCheck_check]
theorem body_sent (d o : Nat) (c : Content) (b : List Byte) (h : bodyOf c = some b) :
    (sent d o c).body = b := by
  show (bodyOf c).getD [] = b
  rw [h]
  rfl
/-- A message arrives, with its check right, at a LOCKED node with room in its forward hold. -/
theorem arrives_sent {s : State} (d o : Nat) (c : Content) (h1 : s.phase = .running)
    (h2 : s.rif.ring = .locked) (h3 : s.rif.fwd = []) :
    Arrives (arriving s (sent d o c)) (sent d o c) where
  toReceived := received_arriving h1 h2 (body_sent d o c)
  check := sealMessage_check _
  taken := by show false ≠ true; decide
  full := by show false ≠ true; decide
  hops := by show (0 : Nat) < 255; decide
  room := by
    show s.rif.fwd.length < 2
    rw [h3]
    decide
theorem witness_CommandEntersQueue :
    (msg (.command true .commit)).content = .command true .commit ∧
    (∀ n, CmdBody.commit ≠ .slotRequest n) ∧ (∀ l, CmdBody.commit ≠ .slotRelease l) ∧
    Arrives (arriving ringed (msg (.command true .commit))) (msg (.command true .commit)) ∧
    ringed.cmdQueue.length < 8 ∧
    8 ≤ ({ ringed with cmdQueue := List.replicate 8 ⟨q0, .commit⟩ } : State).cmdQueue.length :=
  ⟨rfl, nofun, nofun, arrives_sent 255 17 _ rfl rfl rfl, by decide, by decide⟩
/-- A destination of another node; hops at 255; no message received. -/
theorem witness_CommandEntersQueue_not :
    ({ msg (.command true .commit) with dest := 61 } : Message).dest ≠ 255 ∧
    255 ≤ ({ msg (.command true .commit) with hops := 255 } : Message).hops ∧
    ringed.rif.arrived = [] := by decide
/-- A message whose check fails. -/
def spoilt (c : Content) : Message := { msg c with check := (msg c).check + 1#16 }
theorem spoilt_check (c : Content) : (spoilt c).check ≠ messageCheck (spoilt c) := by
  unfold spoilt
  rw [messageCheck_check, show messageCheck (msg c) = (msg c).check from (sealMessage_check _).symm]
  intro h
  have h' : (msg c).check + 1#16 = (msg c).check + 0#16 := by
    simpa only [BitVec.add_zero] using h
  exact absurd ((BitVec.add_right_inj _).mp h') (by decide)
theorem witness_CommandEntersQueue_check (c : Content) :
    Received (arriving ringed (spoilt c)) (spoilt c) ∧
    (spoilt c).check ≠ messageCheck (spoilt c) :=
  ⟨received_arriving rfl rfl (body_sent 255 17 c), spoilt_check c⟩
/-- A message that finds two in the forward hold. -/
theorem witness_CommandEntersQueue_hold (c : Content) :
    let s := { ringed with rif := { ringed.rif with fwd := [msg c, msg c] } }
    Received (arriving s (msg c)) (msg c) ∧ 2 ≤ (arriving s (msg c)).rif.fwd.length :=
  ⟨received_arriving rfl rfl (body_sent 255 17 c), Nat.le_refl 2⟩
set_option maxRecDepth 8000 in
/-- Bytes complete with hops at 255, and with a message check of zeros where the bytes' is not zero. -/
theorem witness_CommandEntersQueue_bytes (c : Content) :
    let bs (h : Byte) : List Byte := [255#8, 17#8, 0#8, 0#8, 0#8, 0#8, h, 0#8, 0#8, 0#8]
    let s (h : Byte) := { ringed with rif := { ringed.rif with arrived := [bs h] } }
    (s 0).phase = .running ∧ (s 0).rif.ring = .locked ∧ (s 0).rif.arrived = bs 0 :: [] ∧
    (bs 0)[4]? = some 0#8 ∧ 10 + (0#8).toNat ≤ (bs 0).length ∧
    (∃ m : Message, m.content = c ∧ m.body.length ≤ 32) ∧ (bs 255)[6]? = some 255#8 ∧
    ((bs 0).drop 8).take 2 ≠ bytes16 (crc16 ((bs 0).take 6 ++ ((bs 0).drop 8).take 0)) :=
  ⟨rfl, rfl, rfl, rfl, by decide, ⟨{ msg c with body := [] }, rfl, Nat.zero_le 32⟩, rfl, by decide⟩
theorem witness_SlotRequestSettled (n : Nat) :
    Arrives (arriving master (sent 253 17 (.command true (.slotRequest n))))
      (sent 253 17 (.command true (.slotRequest n))) ∧
    master.rif.master = true ∧ 0 < master.room ∧
    ({ master with outbound := List.replicate 12 { dest := 1, content := .notice (.other 0) } } :
      State).room = 0 :=
  ⟨arrives_sent 253 17 _ rfl rfl rfl, rfl, by decide, by decide⟩
/-- Four slots to grant where all 16 are announced; none where none is. -/
theorem witness_SlotRequestSettled_count :
    let es := Vector.replicate 16 releasedSlot
    (((List.finRange 16).filter fun i => es[i].held.isNone && es[i].announced).take 4).length = 4 ∧
    ((List.finRange 16).filter fun i =>
      master.slots.entries[i].held.isNone && master.slots.entries[i].announced).length < 1 := by
  decide
theorem witness_SlotRequestSettled_notMaster :
    Arrives (arriving ringed (sent 60 17 (.command true (.slotRequest 1))))
      (sent 60 17 (.command true (.slotRequest 1))) ∧
    ringed.rif.master = false ∧ ringed.rif.addr ≠ 0 ∧
    (sent 60 17 (.command true (.slotRequest 1))).dest = ringed.rif.addr :=
  ⟨arrives_sent 60 17 _ rfl rfl rfl, rfl, by decide, rfl⟩
/-- A request or a release at the master and at another node, each with room and without; and one that names
neither, to address 61. -/
theorem witness_SlotNotSettled (b : CmdBody) :
    let full (s : State) : State := { s with outbound := List.replicate 12 ⟨1, .notice (.other 0), []⟩ }
    let m (d : Nat) := sent d 17 (.command true b)
    Arrives (arriving (full master) (m 253)) (m 253) ∧ (full master).room = 0 ∧
    Arrives (arriving (full ringed) (m 60)) (m 60) ∧ (full ringed).room = 0 ∧ 0 < ringed.room ∧
    Arrives (arriving ringed (m 60)) (m 60) ∧ ringed.rif.master = false ∧ ringed.rif.addr = 60 ∧
    Arrives (arriving master (m 61)) (m 61) ∧ (m 61).dest ≠ 253 ∧ ¬Named master 61 ∧
    Arrives (arriving ringed (m 61)) (m 61) ∧ (m 61).dest ≠ ringed.rif.addr :=
  ⟨arrives_sent 253 17 _ rfl rfl rfl, by decide, arrives_sent 60 17 _ rfl rfl rfl, by decide, by decide,
    arrives_sent 60 17 _ rfl rfl rfl, rfl, rfl, arrives_sent 61 17 _ rfl rfl rfl,
    (by decide : (61 : Nat) ≠ 253), by unfold Named; decide, arrives_sent 61 17 _ rfl rfl rfl,
    (by decide : (61 : Nat) ≠ 60)⟩
/-- Slot 16 HELD by node 17, slot 31 by node 18, under labels of their own. -/
def heldTable : SlotTable :=
  { coldSlots with
    entries := ((coldSlots.entries.set 0 (heldSlot 16 17)).set 15 (heldSlot 31 18)) }
theorem witness_SlotReleaseSettled :
    Arrives (arriving master (sent 253 17 (.command true (.slotRelease 16))))
      (sent 253 17 (.command true (.slotRelease 16))) ∧
    heldTable.entries[(0 : Fin 16)].held = some (16, 17) ∧
    heldTable.entries[(15 : Fin 16)].held = some (31, 18) ∧
    ∀ i : Fin 16, heldTable.entries[i].held ≠ some (20, 17) :=
  ⟨arrives_sent 253 17 _ rfl rfl rfl, by decide, by decide, by decide⟩
theorem witness_NoticeTaken (c : Cleared) :
    Arrives (arriving ringed (msg (.notice (.slotsCleared c)))) (msg (.notice (.slotsCleared c))) ∧
    (msg (.notice (.slotsCleared c))).dest = 255 := ⟨arrives_sent 255 17 _ rfl rfl rfl, rfl⟩
theorem witness_ReturnRecordsSettled :
    let s := { ringed with rif := { ringed.rif with returns := [⟨5, 50⟩, ⟨6, 40⟩] }, now := 40 }
    s.phase = .running ∧ s.rif.ring = .locked ∧
    s.rif.returns = [⟨5, 50⟩] ++ ⟨6, 40⟩ :: [] ∧ (∀ y ∈ [(⟨5, 50⟩ : ReturnRec)], s.now < y.deadline) ∧
    (40 : Nat) ≤ s.now := by decide
theorem witness_ReturnRecordsSettled_back :
    let m := sent 255 60 (.report ⟨.isolationEntered, 0⟩)
    Arrives (arriving ringed m) m ∧ m.origin = (arriving ringed m).rif.addr :=
  ⟨arrives_sent 255 60 _ rfl rfl rfl, rfl⟩
/-- A message of any content from node 17 to node 60, to node 61 and to every node; a reply that is no answer
to a SLOT REQUEST, one of no slot granted, and one of no count. -/
theorem witness_ReturnRecordsSettled_on (c : Content) :
    Arrives (arriving ringed (sent 60 17 c)) (sent 60 17 c) ∧ ringed.rif.addr = 60 ∧
    Arrives (arriving ringed (sent 61 17 c)) (sent 61 17 c) ∧ ¬Named ringed 61 ∧
    Arrives (arriving ringed (msg c)) (msg c) ∧ Named ringed 60 ∧ Named ringed 255 ∧
    NoAnswer ⟨.commit, 5, .done, .written 2, 0, 1⟩ ∧ NoAnswer ⟨.slotRequest, 5, .badCount, .none, 0, 1⟩ ∧
    NoAnswer ⟨.slotRequest, 5, .granted, .granted [] 16 0, 0, 1⟩ ∧
    NoAnswer ⟨.slotRequest, 5, .denied, .none, 0, 1⟩ :=
  ⟨arrives_sent 60 17 c rfl rfl rfl, rfl, arrives_sent 61 17 c rfl rfl rfl, by unfold Named; decide,
    arrives_sent 255 17 c rfl rfl rfl, by unfold Named; decide, by unfold Named; decide,
    by simp [NoAnswer], by simp [NoAnswer], by simp [NoAnswer], by simp [NoAnswer]⟩

theorem witness_SendingBegins :
    ringed.phase = .running ∧ ringed.rif.ring = .locked ∧ ringed.rif.tx = none ∧
    ringed.rif.passing = false ∧ ringed.rif.fwd = [] ∧
    (List.replicate 15 (⟨0, 0⟩ : ReturnRec)).length < 16 ∧ ringed.outbound = [] := by decide

theorem witness_RingLocks :
    let s := { base with rif := { coldRif with ring := .seeking, run := 32 } }
    let t := { base with
      rif := { coldRif with ring := .isolated, runStart := some 0, lastOk := 999 }, now := 1000 }
    s.phase = .running ∧ (s.rif.ring = .seeking ∨ s.rif.ring = .lost) ∧ 32 ≤ s.rif.run ∧
    t.phase = .running ∧ t.rif.ring = .isolated ∧ t.rif.runStart = some 0 ∧ 0 + 1000 ≤ t.now ∧
    t.now ≤ t.rif.lastOk + 1 ∧ t.reports.length < 16 := by decide
theorem witness_RingLocks_request :
    let s := { base with
      rif := { coldRif with ring := .lost, run := 32 }
      warden := { coldWarden with key := .pressed, talk := some 0 }
      work := { Config.factory with warden := ⟨true, 60, true⟩ } }
    s.warden.slot = .none ∧ s.warden.key = .pressed ∧ s.warden.talk ≠ none ∧
    s.work.warden.enabled = true ∧ s.work.warden.announce = true ∧ 0 < s.room := by decide
/-- An outbound queue without room. -/
def fullOut : List OutMsg := List.replicate 12 { dest := 255, content := .notice (.other 0) }
/-- The same without room, and a press that asks for nothing. -/
theorem witness_RingLocks_noRoom :
    let s := { base with
      rif := { coldRif with ring := .lost, run := 32 }, outbound := fullOut
      warden := { coldWarden with key := .pressed, talk := some 0 }
      work := { Config.factory with warden := ⟨true, 60, true⟩ } }
    s.warden.slot = .none ∧ s.warden.key = .pressed ∧ s.warden.talk ≠ none ∧
    s.work.warden.enabled = true ∧ s.work.warden.announce = true ∧ s.room = 0 ∧
    coldWarden.key ≠ .pressed ∧ coldWarden.slot = .none := by decide
/-- A press whose slot a SLOTS CLEARED notice took, at a relock with room. -/
def clearedPress : State :=
  { base with
    rif := { coldRif with ring := .lost, run := 32 }
    warden := { coldWarden with key := .pressed, talk := some 0, cleared := true }
    work := { Config.factory with warden := ⟨true, 60, true⟩ } }
theorem witness_RingLocks_cleared :
    clearedPress.phase = .running ∧ clearedPress.rif.ring = .lost ∧ 32 ≤ clearedPress.rif.run ∧
    clearedPress.warden.slot = .none ∧ clearedPress.warden.key = .pressed ∧
    clearedPress.warden.cleared = true ∧ 0 < clearedPress.room := by decide
theorem witness_RingLost_outputs :
    let s := { ringed with now := 4, rif := { ringed.rif with lossAt := 4 } }
    OutputsFollow s ∧ s.phase = .running ∧ s.rif.ring = .locked ∧ s.rif.lossAt ≤ s.now :=
  ⟨outputsFollow_quiet (by unfold OutOk; decide) (by decide), rfl, rfl, by decide⟩
theorem witness_RingLost :
    let s := { ringed with
      now := 4, rif := { ringed.rif with lossAt := 4 }
      capture := some { phrase := 0, slot := 0, maxSamples := 1, recorded := 0, requester := q3 } }
    s.phase = .running ∧ s.rif.ring = .locked ∧ s.rif.lossAt ≤ s.now ∧ s.capture ≠ none ∧
    s.deferred = [] ∧ 0 < s.room := by decide
theorem witness_RingIsolates :
    let s := { base with rif := { coldRif with ring := .lost, since := 0, run := 31 }, now := 2000 }
    s.phase = .running ∧ s.rif.ring = .lost ∧ s.rif.since + 2000 ≤ s.now ∧ s.rif.run < 32 ∧
    s.reports.length < 16 ∧ s.work.spk[(23 : Fin 24)].inUse = true ∧
    s.outs[(23 : Fin 24)].source = .none := by decide

theorem witness_SlotsReclaimedAndAnnounced :
    let s := { master with slots :=
      { coldSlots with entries := coldSlots.entries.set 0 { heldSlot 16 17 with absence := 5000 } } }
    s.phase = .running ∧ s.rif.master = true ∧
    s.slots.entries[(0 : Fin 16)].held = some (16, 17) ∧
    5000 ≤ s.slots.entries[(0 : Fin 16)].absence ∧ s.rif.ring = .locked ∧ 0 < s.room ∧
    s.deferred = [] ∧ s.slots.pending ≠ .labels [] := by decide
/-- A notice of labels names slot 17, taken from label 16; and a deferred reply waits with room. -/
theorem witness_SlotsReclaimedAndAnnounced_labels :
    let s := { master with slots :=
      { entries := coldSlots.entries.set 1 (reclaimed 16 (heldSlot 16 17)), pending := .labels [16] } }
    let m : OutMsg := replyMsg q3 .commit .done (.written 1)
    s.slots.entries[(1 : Fin 16)].held = none ∧
    s.slots.entries[(1 : Fin 16)].freedFrom = some 16 ∧ s.slots.pending = .labels [16] ∧
    s.phase = .running ∧ s.rif.master = true ∧ s.rif.ring = .locked ∧ 0 < s.room ∧
    s.deferred = [] ∧ ({ ringed with deferred := [m] } : State).deferred = m :: [] ∧
    0 < ({ ringed with deferred := [m] } : State).room := by decide
theorem witness_SlotClearAllActs :
    Admitted (withCmd ringed q3 .slotClearAll) q3 .slotClearAll 1 ∧
    Admitted (withCmd master q3 .slotClearAll) q3 .slotClearAll 2 ∧
    Admitted (withCmd { master with slots := { heldTable with pending := .labels [] } } q3
      .slotClearAll) q3 .slotClearAll 2 ∧
    heldTable.entries[(0 : Fin 16)].held = some (16, 17) :=
  ⟨⟨rfl, by decide, by decide⟩, ⟨rfl, by decide, by decide⟩, ⟨rfl, by decide, by decide⟩,
    by decide⟩

/-- At a master that is not LOCKED, slot 16 HELD and slot 17 FREE; at a LOCKED one slot 17 FREE and taken from
the label 16 that slot 16 is HELD under, and slot 18 FREE and taken from none; and one with no slot HELD. -/
theorem witness_SlotClearAllActs_free :
    let t : SlotTable := { heldTable with
      entries := heldTable.entries.set 1 (reclaimed 16 (heldSlot 16 17)), pending := .labels [] }
    let s (r : RingState) : State :=
      withCmd { master with slots := t, rif := { master.rif with ring := r } } q3 .slotClearAll
    Admitted (s .seeking) q3 .slotClearAll 2 ∧ Admitted (s .locked) q3 .slotClearAll 2 ∧
    t.entries[(0 : Fin 16)].held = some (16, 17) ∧ t.entries[(1 : Fin 16)].held = none ∧
    t.entries[(1 : Fin 16)].freedFrom = some 16 ∧ t.entries[(2 : Fin 16)].held = none ∧
    t.entries[(2 : Fin 16)].freedFrom = none ∧ ∀ i : Fin 16, master.slots.entries[i].held = none :=
  ⟨⟨rfl, by decide, by decide⟩, ⟨rfl, by decide, by decide⟩, by decide, by decide, by decide, by decide,
    by decide, by decide⟩

/-- Thirty-two records of distinct detection zones. -/
def fullList : List ActRecord := (List.range 32).map fun i => rec1 i true none

theorem witness_CauseRecorded :
    Admitted (withCmd ringed q0 (.causeOn 511)) q0 (.causeOn 511) 1 ∧
    recordOf ringed 511 = none ∧ ringed.acts.length < 32 ∧ ringed.isoEscalated = false ∧
    ringed.acts = [] ∧ ringed.overflow = false ∧ ringed.lists[(23 : Fin 24)] = [] ∧
    ringed.work.spk[(23 : Fin 24)].inUse = true ∧
    ringed.defaultMode = false ∧ ({ ringed with defaultMode := true } : State).defaultMode = true ∧
    ringed.work.dzMap[(511 : Nat)]? = some Config.defDetZone :=
  ⟨⟨rfl, by decide, by decide⟩, by decide, by decide, rfl, rfl, rfl, by decide, by decide, rfl, rfl, by
    show (Vector.replicate 512 Config.defDetZone)[(511 : Nat)]? = _
    simp⟩
/-- With the isolation escalated condition, and in DEFAULT MODE with a record already there. -/
theorem witness_CauseRecorded_modes :
    let i := { ringed with isoEscalated := true }
    let d := { withRecs ringed [rec1 3 true none] with defaultMode := true }
    Admitted (withCmd i q0 (.causeOn 0)) q0 (.causeOn 0) 1 ∧ i.isoEscalated = true ∧
    Admitted (withCmd d q0 (.causeOn 0)) q0 (.causeOn 0) 1 ∧ recordOf d 0 = none ∧ d.acts ≠ [] ∧
    d.defaultMode = true :=
  ⟨⟨rfl, by decide, by decide⟩, rfl, ⟨rfl, by decide, by decide⟩, by decide, by decide, rfl⟩
/-- Tables in which an effect on zone 0 alone goes from template 0 to template 1 after 5 s. -/
def oneEffect : Tables :=
  let e : Effect := { scope := .named (.fixed 1#24), kinds := ⟨true, false, false, false⟩
                      sector := .named .any, first := .named .alert, delay := 5, alert := 0
                      evacuate := 1 }
  { Config.factory with
    ce := Config.factory.ce.set 0 { inUse := true, dzLo := 3, dzHi := 3, latch := true
                                    effects := [e] }
    templ := Config.factory.templ.set 1 ⟨true, .named (.tone 1), 14, 4, none⟩ }
/-- A reference that reaches zone 0 alone: the merge has a result there and none in zone 1. -/
theorem witness_MergeTakesHighest :
    let t := oneEffect
    (mergeClaim t 7 (rec1 3 true (some 5)) (0 : Zone)).isSome = true ∧
    mergeClaim t 7 (rec1 3 true (some 5)) (1 : Zone) = none := by decide
theorem witness_CauseRepeated :
    Admitted (withCmd ringed q0 (.causeOn 512)) q0 (.causeOn 512) 1 ∧
    Admitted (withCmd (withRecs ringed [rec1 511 true none]) q0 (.causeOn 511)) q0 (.causeOn 511) 1 ∧
    recordOf (withRecs ringed [rec1 511 true none]) 511 = some (rec1 511 true none) ∧
    checkLocalIn Config.factory 0 ⟨true, 511, true, true⟩ = some ⟨true, 511, true, true⟩ :=
  ⟨⟨rfl, by decide, by decide⟩, ⟨rfl, by decide, by decide⟩, by decide, by decide⟩
/-- Local input 0 in use for detection zone 9 with a change due, and the pin high. -/
def inputState (high taken : Bool) (rs : List ActRecord) : State :=
  { withRecs ringed rs with
    now := 200
    pins := { ringed.pins with inputHigh := ringed.pins.inputHigh.set 0 high }
    inputs := ringed.inputs.set 0 { active := taken, due := some 200 }
    work := { Config.factory with
      inputs := Config.factory.inputs.set 0 ⟨true, 9, true, false⟩ } }
theorem witness_CauseRepeated_input :
    let s := inputState true false [rec1 9 true none]
    s.phase = .running ∧ s.work.inputs[(0 : Fin 8)].inUse = true ∧
    s.inputs[(0 : Fin 8)].due = some 200 ∧ 200 ≤ s.now ∧
    s.pins.inputHigh[(0 : Fin 8)] = s.work.inputs[(0 : Fin 8)].activeHigh ∧
    recordOf s s.work.inputs[(0 : Fin 8)].dz = some (rec1 9 true none) := by decide
theorem witness_CauseOverflows :
    Admitted (withCmd (withRecs ringed fullList) q0 (.causeOn 32)) q0 (.causeOn 32) 1 ∧
    recordOf (withRecs ringed fullList) 32 = none ∧ 32 ≤ (withRecs ringed fullList).acts.length :=
  ⟨⟨rfl, by decide, by decide⟩, by decide, by decide⟩
/-- Template 0 not in use. -/
theorem witness_CauseOverflows_template :
    let s := withRecs { ringed with work := { Config.factory with
      templ := Vector.replicate 32 Config.defTemplate } } fullList
    Admitted (withCmd s q0 (.causeOn 32)) q0 (.causeOn 32) 1 ∧ recordOf s 32 = none ∧
    templateInUse s.work 0 = none ∧ s.overflow = false ∧ s.lists[(23 : Fin 24)] = [] ∧
    s.work.spk[(23 : Fin 24)].inUse = true :=
  ⟨⟨rfl, by decide, by decide⟩, by decide, by decide, rfl, by decide, by decide⟩
theorem witness_CauseOffActs :
    Admitted (withCmd ringed q0 (.causeOff 512)) q0 (.causeOff 512) 1 ∧
    Admitted (withCmd ringed q0 (.causeOff 511)) q0 (.causeOff 511) 1 ∧ recordOf ringed 511 = none ∧
    recordOf (withRecs ringed [rec1 511 true none]) 511 = some (rec1 511 true none) ∧
    recordOf (withRecs ringed [rec1 511 false none]) 511 = some (rec1 511 false none) :=
  ⟨⟨rfl, by decide, by decide⟩, ⟨rfl, by decide, by decide⟩, by decide, by decide, by decide⟩
theorem witness_CauseResets :
    Admitted (withCmd ringed q0 (.causeReset 512)) q0 (.causeReset 512) 1 ∧
    Admitted (withCmd (withRecs ringed [rec1 511 true none]) q0 (.causeReset 511)) q0
      (.causeReset 511) 1 ∧
    Admitted (withCmd ringed q0 .causeResetAll) q0 .causeResetAll 1 ∧ ringed.acts = [] ∧
    Admitted (withCmd (withRecs ringed fullList) q0 .causeResetAll) q0 .causeResetAll 1 ∧
    (withRecs ringed fullList).acts ≠ [] :=
  ⟨⟨rfl, by decide, by decide⟩, ⟨rfl, by decide, by decide⟩, ⟨rfl, by decide, by decide⟩, rfl,
    ⟨rfl, by decide, by decide⟩, by decide⟩
/-- The ALERT claim of detection zone 3. -/
def alertClaim : Claim :=
  { owner := .cause 3, source := .tone 0, fallback := none, prio := 12, atten := 0
    stage := some .alert, placed := 0 }
/-- The records of detection zones 3 and 4, each with an ALERT claim of zone 0 as its merge there; zone 0
holds that of zone 3 under a SILENCE claim, so that its removal refills the zone. -/
def removing : State :=
  { withRecs ringed [rec1 3 false none, rec1 4 true none] with
    work := oneEffect, lists := ringed.lists.set 0 [silenceClaim 0 0, alertClaim] }
theorem witness_RecordGone :
    let gone (c : Claim) : Bool := c.owner == .cause 3 || (false && c.owner == .overflow)
    let left : List ActRecord := [rec1 4 true none]
    RecordsOk removing ∧ recordOf removing 3 = some (rec1 3 false none) ∧
    removing.acts.filter (fun x => x.dz != 3) = left ∧
    (∃ d ∈ removing.lists[(0 : Fin 24)], gone d = true) ∧
    (∃ d ∈ removing.lists[(0 : Fin 24)], gone d = false) ∧
    (∀ d ∈ removing.lists[(1 : Fin 24)], gone d = false) ∧
    (∀ d ∈ removing.lists[(0 : Fin 24)], d.owner ≠ .cause 4) ∧
    (mergeClaim removing.work removing.now (rec1 4 true none) (0 : Zone)).isSome = true := by
  refine ⟨?_, by decide, by decide, by decide, by decide, by decide, by decide, by decide⟩
  simp [RecordsOk, removing, withRecs, rec1, Config.actMax, Config.refMax]
theorem witness_EdgesObserved :
    State.reset.phase ≠ .running ∧ base.work.inputs[(7 : Fin 8)].inUse = false ∧
    (inputState true false []).work.inputs[(0 : Fin 8)].inUse = true ∧ base.phase = .running ∧
    base.warden.fresh = none ∧
    ({ base.warden with fresh := some ⟨50, true⟩ } : Warden).fresh = some ⟨50, true⟩ := by decide
theorem witness_EdgesObserved_write :
    let e : LocalIn := ⟨true, 511, false, true⟩
    WriteTaken (withCmd ringed q3 (.tableWrite 3 7 (.localIn e))) q3 3 7 (.localIn e) (.localIn e) ∧
    ringed.pins.inputHigh[(7 : Fin 8)] = e.activeHigh := ⟨writeTaken_of rfl rfl (by decide), by decide⟩
theorem witness_LocalInputTaken :
    let on := inputState true false []
    let off := inputState false true []
    on.pins.inputHigh[(0 : Fin 8)] = on.work.inputs[(0 : Fin 8)].activeHigh ∧
    recordOf on on.work.inputs[(0 : Fin 8)].dz = none ∧ on.acts.length < 32 ∧
    on.isoEscalated = false ∧
    off.pins.inputHigh[(0 : Fin 8)] ≠ off.work.inputs[(0 : Fin 8)].activeHigh ∧
    off.inputs[(0 : Fin 8)].due = some 200 ∧ 200 ≤ off.now ∧
    recordOf off 9 = none ∧
    recordOf (inputState false true [rec1 9 true none]) 9 = some (rec1 9 true none) ∧
    recordOf (inputState false true [rec1 9 false none]) 9 = some (rec1 9 false none) := by decide
/-- An activity that meets a full list, with and without ACTIVATION OVERFLOW. -/
theorem witness_LocalInputTaken_full :
    let s := inputState true false (fullList.drop 10 ++ (List.range 10).map fun i => rec1 (32 + i) true none)
    recordOf s s.work.inputs[(0 : Fin 8)].dz = none ∧ 32 ≤ s.acts.length ∧ s.overflow = false ∧
    ({ s with overflow := true } : State).overflow = true ∧
    s.inputs[(0 : Fin 8)].due = some 200 ∧ s.lists[(23 : Fin 24)] = [] := by decide
/-- The record of detection zone 3 with its expiry due, its ALERT claim in zone 0 under a SILENCE claim. -/
def expiring : State :=
  { withRecs ringed [recDue 3] with
    work := oneEffect
    lists := ringed.lists.set 0 [silenceClaim 0 0, alertClaim] }
theorem witness_StageTimerExpires :
    let f : Ref := { entry := 0, effect := 0, stage := .alert, timer := some 1, due := true }
    expiring.phase = .running ∧ recordOf expiring 3 = some (recDue 3) ∧
    (recDue 3).refs[(0 : Nat)]? = some f ∧ f.due = true ∧ expiring.acts = [recDue 3] ∧
    expiring.overflow = false ∧ expiring.defaultMode = false ∧
    alertClaim ∈ expiring.lists[(0 : Fin 24)] ∧ alertClaim.owner = .cause 3 ∧
    alertClaim.stage ≠ some .evacuate ∧ ListOk expiring.lists[(0 : Fin 24)] := by
  refine ⟨rfl, by decide, rfl, rfl, rfl, rfl, rfl, by decide, rfl, by decide, ?_⟩
  show ListOk [silenceClaim 0 0, alertClaim]
  simp [ListOk, Before, silenceClaim, alertClaim, Config.claimMax, Config.silencePrio]
theorem witness_StageTimerExpires_merge :
    let f' : Ref := { entry := 0, effect := 0, stage := .evacuate, timer := none, due := false }
    let r' : ActRecord := { recDue 3 with refs := [f'] }
    refReaches expiring.work r' f' (0 : Zone) = true ∧
    refReaches expiring.work r' f' (1 : Zone) = false ∧
    (mergeClaim expiring.work expiring.now r' (0 : Zone)).map (fun c => c.stage) =
      some (some .evacuate) := by decide
/-- The only expiry due, before a millisecond that may complete. -/
theorem witness_StageTimerExpires_due :
    (∀ x ∈ expiring.acts, x.dz = 3 ∧ x.refs.length = 1) ∧ RecordsOk expiring ∧
    msMayComplete .oscillator expiring = true := by
  refine ⟨by decide, ?_, by decide⟩
  simp [RecordsOk, expiring, recDue, withRecs, rec1, Config.actMax, Config.refMax]
theorem recordsOk_one (dz k : Nat) :
    RecordsOk (withRecs ringed [rec1 dz true (some (k + 1))]) := by
  simp [RecordsOk, withRecs, rec1, Config.actMax, Config.refMax]
theorem witness_TimersEscalatedAndHeld :
    let s := withRecs ringed [rec1 511 true (some 5)]
    Admitted (withCmd s q0 (.escalateNow 511)) q0 (.escalateNow 511) 1 ∧
    Admitted (withCmd s q0 (.escalateNow 512)) q0 (.escalateNow 512) 1 ∧
    Admitted (withCmd s q0 (.escalateNow 510)) q0 (.escalateNow 510) 1 ∧ recordOf s 510 = none ∧
    Admitted (withCmd s q0 .escalateNowAll) q0 .escalateNowAll 1 ∧ RecordsOk s ∧
    Admitted (withCmd s q0 .holdStages) q0 .holdStages 1 ∧
    Admitted (withCmd s q0 .releaseStages) q0 .releaseStages 1 :=
  ⟨⟨rfl, by decide, by decide⟩, ⟨rfl, by decide, by decide⟩, ⟨rfl, by decide, by decide⟩, by decide,
    ⟨rfl, by decide, by decide⟩, recordsOk_one _ 4, ⟨rfl, by decide, by decide⟩,
    ⟨rfl, by decide, by decide⟩⟩
theorem witness_TimersEscalated_isolation :
    let s := { withRecs ringed [rec1 3 true (some 5)] with
      isoTimer := some 0, rif := { ringed.rif with ring := .isolated } }
    s.phase = .running ∧ s.rif.ring = .isolated ∧ s.isoTimer = some 0 := by decide
/-- A timer that reaches zone 0 and not zone 1, with a lone claim of its record in zone 0 and a merge at
either stage. -/
theorem witness_TimersEscalated_reach :
    let r := rec1 3 true (some 5)
    TimerReaches oneEffect r 0 ∧ ¬TimerReaches oneEffect r 1 ∧ alertClaim.owner = .cause r.dz ∧
    (∀ k, mergeClaim oneEffect 0
      { r with refs := ((timedOut r).refs.take k) ++ r.refs.drop k } 0 ≠ none) ∧
    (mergeClaim oneEffect 0 (timedOut r) 0).map (fun c => c.stage) = some (some .evacuate) := by
  refine ⟨by unfold TimerReaches; decide, by unfold TimerReaches; decide, rfl, fun k => ?_, by decide⟩
  rcases k with _ | k
  · decide
  · have h : ∀ l : List Ref, l.length = 1 → l.take (k + 1) = l ∧ l.drop (k + 1) = [] := fun l hl =>
      ⟨List.take_of_length_le (by omega), List.drop_eq_nil_of_le (by omega)⟩
    rw [(h _ rfl).1, (h _ rfl).2]
    decide

/-- No claim anywhere: every list is in order. -/
theorem listsOk_ringed : ListsOk ringed := fun z => by
  have h : ringed.lists[z] = [] := by revert z; decide
  rw [h]
  exact ⟨by decide, .nil, .nil⟩
theorem stays_ringed : Stays ringed q0.cls allSet 23 := ⟨by decide, by decide, by decide⟩
theorem witness_ZoneSetPlaces :
    Admitted (withCmd ringed q0 (.zoneSet allSet false)) q0 (.zoneSet allSet false) 1 ∧
    templateInUse ringed.work ringed.work.orig[q0.cls].preset = some Config.defTemplate0 ∧
    ListsOk ringed ∧ Stays ringed q0.cls allSet 23 ∧ ringed.lists[(23 : Fin 24)].length < 6 ∧
    (∀ d ∈ ringed.lists[(23 : Fin 24)], d.owner ≠ .command q0.cls) ∧ ¬Stays ringed q0.cls 0#24 0 :=
  ⟨⟨rfl, by decide, by decide⟩, by decide, listsOk_ringed, stays_ringed, by decide, by decide,
    fun h => absurd h.named (by decide)⟩
/-- The preset template not in use; and an alarm claim of the OVERFLOW owner at the built priority, to
which a yielding command gives way. -/
theorem witness_ZoneSetPlaces_other :
    let s := { ringed with work := { Config.factory with
      templ := Vector.replicate 32 Config.defTemplate } }
    let t := { ringed with lists := ringed.lists.set 0 [overflowClaim ringed] }
    Admitted (withCmd s q0 (.zoneSet allSet true)) q0 (.zoneSet allSet true) 1 ∧
    templateInUse s.work s.work.orig[q0.cls].preset = none ∧
    ∃ d ∈ t.lists[(0 : Fin 24)], d.owner ≠ .command q0.cls ∧ Config.defTemplate0.prio ≤ d.prio :=
  ⟨⟨rfl, by decide, by decide⟩, by decide, overflowClaim ringed, by decide, by decide, by decide⟩
/-- A claim of a cause at a priority. -/
def causeClaim (dz prio : Nat) : Claim :=
  { owner := .cause dz, source := .tone 0, fallback := none, prio := prio, atten := 0
    stage := some .alert, placed := dz }
/-- Zone 0 with a list of claims. -/
def listed (l : List Claim) : State := { ringed with lists := ringed.lists.set 0 l }
theorem listsOk_listed {l : List Claim} (h : ListOk l) : ListsOk (listed l) := fun z => by
  by_cases hz : z = 0
  · subst hz
    simpa [listed] using h
  · have e : (listed l).lists[z] = ringed.lists[z] := by
      have : (0 : Nat) ≠ z.val := fun h => hz (Fin.ext h.symm)
      simp [listed, Vector.getElem_set_ne _ _ this]
    rw [e]
    exact listsOk_ringed z
/-- Full lists whose last claim stands at 11 and at 12, the priority of the built claim; and a COMMAND claim
of the class at priority 12 and at 11. -/
def six (prio : Nat) : List Claim := (List.range 6).map fun i => causeClaim (10 + i) prio
def ours (prio : Nat) : Claim :=
  { owner := .command 0, source := .none, fallback := none, prio := prio, atten := 3, stage := none
    placed := 9 }
theorem witness_ZoneSetPlaces_full :
    let s := listed (six 11)
    let t := listed (six 12)
    Admitted (withCmd s q0 (.zoneSet allSet true)) q0 (.zoneSet allSet true) 1 ∧ ListsOk s ∧
    Admitted (withCmd t q0 (.zoneSet allSet false)) q0 (.zoneSet allSet false) 1 ∧ ListsOk t ∧
    (six 11).length = 6 ∧ (six 11).getLast? = some (causeClaim 15 11) ∧
    (∀ d ∈ six 11, d.prio < Config.defTemplate0.prio) ∧
    (six 12).getLast? = some (causeClaim 15 12) ∧ Config.defTemplate0.prio ≤ (causeClaim 15 12).prio :=
  ⟨⟨rfl, by decide, by decide⟩,
    listsOk_listed ⟨by decide, by simp [six, List.range, List.range.loop, Before, causeClaim],
      by simp [six, List.range, List.range.loop, causeClaim]⟩,
    ⟨rfl, by decide, by decide⟩,
    listsOk_listed ⟨by decide, by simp [six, List.range, List.range.loop, Before, causeClaim],
      by simp [six, List.range, List.range.loop, causeClaim]⟩,
    by decide, by decide, by decide, by decide, by decide⟩
theorem witness_ZoneSetPlaces_replaced :
    let s (p : Nat) := listed [causeClaim 1 13, ours p]
    Admitted (withCmd (s 12) q0 (.zoneSet allSet false)) q0 (.zoneSet allSet false) 1 ∧
    ListsOk (s 12) ∧ ListsOk (s 11) ∧ ours 12 ∈ (s 12).lists[(0 : Fin 24)] ∧
    (ours 12).owner = .command q0.cls ∧ Config.defTemplate0.prio = (ours 12).prio ∧
    Config.defTemplate0.prio ≠ (ours 11).prio ∧ Stays (s 12) q0.cls allSet 0 :=
  ⟨⟨rfl, by decide, by decide⟩,
    listsOk_listed ⟨by decide, by simp [Before, causeClaim, ours], by simp [causeClaim, ours]⟩,
    listsOk_listed ⟨by decide, by simp [Before, causeClaim, ours], by simp [causeClaim, ours]⟩,
    by decide, rfl, rfl, by decide, ⟨by decide, by decide, by decide⟩⟩
/-- A zone with room that is refilled by the record of detection zone 3 and by the OVERFLOW claim. -/
theorem witness_ZonesCleared_refill :
    let s := { withRecs ringed [rec1 3 true none] with
      work := oneEffect, overflow := true, lists := ringed.lists.set 0 [ours 12] }
    RecordsOk s ∧ Stays s q0.cls allSet 0 ∧ s.acts.length + s.lists[(0 : Fin 24)].length ≤ 6 ∧
    (∃ c ∈ s.lists[(0 : Fin 24)], c.owner = .command q0.cls) ∧
    (∀ d ∈ s.lists[(0 : Fin 24)], d.owner ≠ .cause 3 ∧ d.owner ≠ .overflow) ∧
    (mergeClaim s.work s.now (rec1 3 true none) 0).isSome = true ∧ s.overflow = true :=
  ⟨by simp [RecordsOk, withRecs, rec1, Config.actMax, Config.refMax],
    ⟨by decide, by decide, by decide⟩, by decide, ⟨ours 12, by decide, rfl⟩, by decide, by decide,
    rfl⟩
/-- Class 0 loses zone 0 and the ZONE and SILENCE permissions; class 5 loses its reach. -/
theorem witness_ZonesCleared_originator :
    let e : OrigEntry := { reach := 2#24, preset := 0, perms := Config.noGroups, outside := false }
    let s := { ringed with work := { Config.factory with
      orig := Config.factory.orig.set 5 Config.defOrigFull } }
    WriteTaken (withCmd s q3 (.tableWrite 6 0 (.originator e))) q3 6 0 (.originator e)
      (.originator e) ∧
    WriteTaken (withCmd s q3 (.tableWrite 6 5 (.originator e))) q3 6 5 (.originator e)
      (.originator e) ∧
    inSet s.work.orig[(0 : Fin 8)].reach 0 = true ∧ inSet e.reach 0 = false ∧ inSet e.reach 1 = true :=
  ⟨writeTaken_of rfl rfl (by decide), writeTaken_of rfl rfl (by decide), by decide, by decide,
    by decide⟩
theorem witness_ZonesClearedAndResounded :
    Admitted (withCmd ringed q0 (.zoneClear allSet)) q0 (.zoneClear allSet) 1 ∧
    Admitted (withCmd ringed q0 (.resound allSet)) q0 (.resound allSet) 1 ∧
    ringed.acts = [] ∧ ringed.overflow = false ∧ Stays ringed q0.cls allSet 23 :=
  ⟨⟨rfl, by decide, by decide⟩, ⟨rfl, by decide, by decide⟩, rfl, rfl, stays_ringed⟩
/-- A zone with a claim removed and one kept, and a record without a claim that refills it. -/
theorem witness_ZonesCleared_kept :
    let s := { withRecs ringed [rec1 3 true none] with
      work := oneEffect, lists := ringed.lists.set 0 [ours 12, { silenceClaim 1 0 with prio := 1 }] }
    let removed (c : Claim) : Bool := c.owner == .command 0
    RecordsOk s ∧ (∃ c ∈ s.lists[(0 : Fin 24)], removed c = true) ∧
    (∃ c ∈ s.lists[(0 : Fin 24)], removed c = false) ∧
    (∀ d ∈ s.lists[(0 : Fin 24)], d.owner = .cause 3 → removed d = true) ∧
    (mergeClaim s.work s.now (rec1 3 true none) 0).isSome = true := by
  refine ⟨by simp [RecordsOk, withRecs, rec1, Config.actMax, Config.refMax], by decide, by decide,
    by decide, by decide⟩
/-- Six claims below priority 13, and six at it. -/
theorem witness_SilencePlaces_full :
    let s := listed (six 12)
    let t := listed (six 13)
    Admitted (withCmd s q0 (.silence allSet)) q0 (.silence allSet) 1 ∧ Stays s q0.cls allSet 0 ∧
    (∀ d ∈ s.lists[(0 : Fin 24)], d.owner ≠ .silence q0.cls) ∧ s.lists[(0 : Fin 24)].length = 6 ∧
    s.lists[(0 : Fin 24)].getLast?.map (fun c => c.prio) = some 12 ∧
    t.lists[(0 : Fin 24)].getLast?.map (fun c => c.prio) = some 13 :=
  ⟨⟨rfl, by decide, by decide⟩, ⟨by decide, by decide, by decide⟩, by decide, by decide, by decide,
    by decide⟩
theorem witness_SilencePlaces_held :
    ListOk [silenceClaim q0.cls 0] ∧ (silenceClaim q0.cls 0).owner = .silence q0.cls ∧
    (silenceClaim q0.cls 0).prio = 13 := by
  refine ⟨?_, rfl, rfl⟩
  simp [ListOk, Config.claimMax]
theorem witness_SilencePlaces :
    Admitted (withCmd ringed q0 (.silence allSet)) q0 (.silence allSet) 1 ∧
    Stays ringed q0.cls allSet 23 ∧ ringed.lists[(23 : Fin 24)].length < 6 :=
  ⟨⟨rfl, by decide, by decide⟩, stays_ringed, by decide⟩

theorem witness_CadenceAdvances :
    let r : CadRun := { stoppedCad 0 with running := true, listeners := 1 }
    let s := { ringed with cads := Vector.replicate 4 r }
    s.phase = .running ∧ s.cads[(1 : Fin 4)].running = true ∧
    s.work.cad[(1 : Fin 4)].inUse = true ∧ s.cads[(1 : Fin 4)].remaining = 0 ∧
    0 < s.work.cad[(1 : Fin 4)].on := by decide

/-- An on-time of 49 ms, raised to 50 (R115). -/
theorem witness_CadenceAdvances_write :
    let e : Cadence := ⟨true, 500, 49, 0, 0, 0⟩
    WriteTaken (withCmd ringed q3 (.tableWrite 7 3 (.cadence e))) q3 7 3 (.cadence e)
      (.cadence { e with on := 50 }) := writeTaken_of rfl rfl (by decide)

/-- A zone that plays ring slot 31 at a LOCKED node, and one that plays it at a node that has lost the ring; a
standby channel that serves zone 23. -/
theorem witness_CadenceAdvances_audio :
    let o : ZoneOut := { mutedOut with effective := .ring 31 }
    let s := { ringed with outs := Vector.replicate 24 o }
    let l := { s with rif := { coldRif with ring := .lost } }
    let f := goodFrame
    s.phase ≠ .off ∧ s.rif.ring = .locked ∧ s.outs[(23 : Fin 24)].effective = .ring 31 ∧
    f.marker = marker ∧ f.check = crc16 (frameBody f) ∧ QuietUnlessLocked l ∧ l.rif.ring ≠ .locked ∧
    l.outs[(0 : Fin 24)].effective = .ring 31 ∧
    ({ s with serving := (Vector.replicate 2 none).set 1 (some 23) } : State).serving[(1 : Fin 2)] =
      some 23 ∧ s.standbyAmps[(1 : Fin 2)].failed = false := by
  refine ⟨by decide, rfl, by decide, rfl, goodFrame_ok.2, ?_, by decide, by decide, by decide,
    by decide⟩
  unfold QuietUnlessLocked
  decide
/-- Every channel running in a state, with a program of two steps of a mode. -/
def playing (mode : Mode) (st : ChanState) (step : Nat) (steps : List (Coded PStep)) : State :=
  { ringed with
    chans := Vector.replicate 4 { idleChan with state := st, step := step }
    work := { Config.factory with
      phrases := Config.factory.phrases.set 0 ⟨0, 64, 32, true⟩
      progs := Vector.replicate 4 { inUse := true, mode := .named mode, steps := steps } } }
theorem witness_PlayoutStepEnds :
    let d := playing .demand .running 0 [.named (.gap 10)]
    let r := playing .repeat .running 0 [.named (.gap 10), .named (.phrase 0), .named (.phrase 1)]
    let o := playing .once .running 0 [.named (.gap 10)]
    d.phase = .running ∧ d.chans[(0 : Fin 4)].state = .running ∧
    d.chans[(0 : Fin 4)].remaining = 0 ∧ d.chans[(0 : Fin 4)].late = 0 ∧
    d.work.progs[(0 : Fin 4)].mode = .named .demand ∧ d.chans[(0 : Fin 4)].listeners = 0 ∧
    r.chans[(0 : Fin 4)].step + 1 < r.work.progs[(0 : Fin 4)].steps.length ∧
    r.work.progs[(0 : Fin 4)].steps[(1 : Nat)]? = some (.named (.phrase 0)) ∧
    r.work.phrases[(0 : Nat)]? = some ⟨0, 64, 32, true⟩ ∧
    r.work.phrases[(1 : Nat)]? = some Config.defPhrase ∧
    o.work.progs[(0 : Fin 4)].mode = .named .once ∧
    o.work.progs[(0 : Fin 4)].steps.length ≤ o.chans[(0 : Fin 4)].step + 1 := by decide
/-- A PHRASE step that is due to end, before one of 3 samples and one of 4, with 3 sample times owed. -/
theorem witness_PlayoutStepEnds_phrase :
    let s := playing .repeat .running 0 [.named (.phrase 0), .named (.phrase 1), .named (.phrase 2)]
    let t := { s with
      work := { s.work with phrases := (s.work.phrases.set 1 ⟨64, 64, 3, true⟩).set 2 ⟨128, 64, 4, true⟩ }
      chans := (Vector.replicate 4 idleChan).set 0 (
        { idleChan with state := .running, kind := .phrase, addr := 31, remaining := 1, owed := 3
                        due := true }) }
    t.phase = .running ∧ t.chans[(0 : Fin 4)].state = .running ∧ t.chans[(0 : Fin 4)].kind = .phrase ∧
    t.chans[(0 : Fin 4)].due = true ∧ t.chans[(0 : Fin 4)].owed = 3 ∧
    t.work.phrases[(1 : Nat)]? = some ⟨64, 64, 3, true⟩ ∧
    t.work.phrases[(2 : Nat)]? = some ⟨128, 64, 4, true⟩ := by decide
/-- A ONCE channel at its end, with a COMMAND claim that names it in zone 0 and a record to refill the zone.
-/
theorem witness_PlayoutStepEnds_once :
    let o := playing .once .running 0 [.named (.gap 10)]
    let s := { withRecs o [rec1 3 true none] with
      work := { oneEffect with progs := o.work.progs }
      lists := o.lists.set 0 [{ ours 12 with source := .playout 0 }] }
    s.phase = .running ∧ s.chans[(0 : Fin 4)].state = .running ∧ RecordsOk s ∧
    s.work.progs[(0 : Fin 4)].mode = .named .once ∧
    (∃ d ∈ s.lists[(0 : Fin 24)], (d.source == .playout 0) = true) ∧
    (∀ d ∈ s.lists[(0 : Fin 24)], d.owner ≠ .cause 3) ∧
    (mergeClaim s.work s.now (rec1 3 true none) 0).isSome = true := by
  refine ⟨by decide, by decide, ?_, by decide, by decide, by decide, by decide⟩
  simp [RecordsOk, withRecs, rec1, Config.actMax, Config.refMax]
/-- Phrase 0 written while no channel plays it, and while channel 0 alone does, in each mode. -/
def playing1 (mode : Mode) : State :=
  let s := playing mode .running 0 [.named (.phrase 0)]
  { s with chans := (Vector.replicate 4 idleChan).set 0 (
      { idleChan with state := .running, kind := .phrase, addr := 10, remaining := 22, owed := 3 }) }
theorem playing1_running (mode : Mode) (n : Fin 4)
    (h : (playing1 mode).chans[n].state = .running) : n = 0 := by
  revert h n
  cases mode <;> decide
/-- Four programs of one PHRASE step pass the check of R126. -/
theorem programsOk_playing1 (mode : Mode) : ProgramsOk (playing1 mode).work := by
  rw [programsOk_iff]
  have hp (n : Fin 4) : (playing1 mode).work.progs[n] = ⟨true, .named mode, [.named (.phrase 0)]⟩ := by
    simp [playing1, playing]
  intro n _
  rw [hp]
  exact ⟨⟨mode, rfl⟩, Nat.le_refl 1, by simp, by simp⟩
/-- `playing1` with the check of the NV copy of its programs passing and a commit of the Supervision Limits in
flight. -/
def playing1Commit : State :=
  { playing1 .repeat with
    nv := (playing1 .repeat).work
    nvOk := (playing1 .repeat).nvOk.set 9 true
    commit := some { requester := q3, table := 10, deadline := 100, image := (playing1 .repeat).work
                     written := 1 } }
theorem witness_StoreFormKept_programs :
    ProgramsStand playing1Commit ∧ playing1Commit.nvOk[(9 : Fin 12)] = true ∧
    playing1Commit.commit.isSome = true ∧ Machine.step playing1Commit = .next playing1Commit := by
  refine ⟨⟨programsOk_playing1 _, fun _ => programsOk_playing1 _, fun c hc => ?_⟩, by decide, rfl, rfl⟩
  obtain rfl := Option.some.inj hc
  exact ⟨programsOk_playing1 _, by decide⟩
/-- A program in use with a step that is neither PHRASE nor GAP, or without a step, fails it. -/
theorem test_programsOk_refuses :
    ¬ProgramsOk (playing .repeat .running 0 [.named (.phrase 5), .other 9]).work ∧
    ¬ProgramsOk (playing .repeat .running 0 []).work := by
  constructor <;> rw [programsOk_iff] <;> intro h <;> have := h 0 (by decide) <;>
    simp [playing] at this
/-- Channel 0 plays phrase 0 of 32 samples at its eleventh. -/
theorem witness_StoreFormKept_phrases :
    OutputsFollow (playing1 .repeat) ∧ ProgramsStand (playing1 .repeat) ∧ PhrasesPlay (playing1 .repeat) ∧
    Machine.step (playing1 .repeat) = .next (playing1 .repeat) := by
  refine ⟨outputsFollow_quiet (by unfold OutOk; decide) (by decide),
    ⟨programsOk_playing1 _, fun h => absurd h (by decide),
      fun c h => absurd h (by simp [playing1, playing, ringed, base, State.reset, coldState])⟩,
    ⟨fun n hn => ?_, ?_, ?_⟩, rfl⟩
  · obtain rfl := playing1_running _ n hn
    exact ⟨by decide, fun _ => ⟨0, ⟨0, 64, 32, true⟩, by decide⟩⟩
  · exact fun c p h => absurd h (by simp [playing1, playing, ringed, base, State.reset, coldState])
  · exact fun h => absurd h (by decide)
theorem witness_PlayoutStepEnds_write :
    let b := CmdBody.tableWrite 8 0 (.phrase Config.defPhrase)
    let plays (s : State) (m : Fin 4) : Prop := s.chans[m].state = .running ∧
      s.chans[m].kind = .phrase ∧
      s.work.progs[m].steps[s.chans[m].step]? = some (.named (.phrase 0))
    let taken (s : State) : Prop := WriteTaken (withCmd s q3 b) q3 8 0 (.phrase Config.defPhrase)
      (.phrase Config.defPhrase)
    taken (playing .demand .idle 0 [.named (.phrase 0)]) ∧ taken (playing1 .demand) ∧
    taken (playing1 .repeat) ∧ taken (playing1 .once) ∧
    (∀ m, ¬plays (playing .demand .idle 0 [.named (.phrase 0)]) m) ∧
    plays (playing1 .demand) 0 ∧ (∀ m, m ≠ 0 → ¬plays (playing1 .demand) m) ∧
    (playing1 .demand).chans[(0 : Fin 4)].listeners = 0 :=
  ⟨writeTaken_of rfl rfl (by decide), writeTaken_of rfl rfl (by decide),
    writeTaken_of rfl rfl (by decide), writeTaken_of rfl rfl (by decide), by decide, by decide,
    by decide, by decide⟩
theorem witness_PlayCommands :
    let r := playing .repeat .idle 0 [.named (.gap 10)]
    let o := playing .once .ended 0 [.named (.phrase 0)]
    Admitted (withCmd r q0 (.playStart 3)) q0 (.playStart 3) 1 ∧
    Admitted (withCmd r q0 (.playStart 4)) q0 (.playStart 4) 1 ∧
    Admitted (withCmd o q0 (.playStop 3)) q0 (.playStop 3) 1 ∧
    Admitted (withCmd o q0 (.playStop 4)) q0 (.playStop 4) 1 ∧
    ringed.work.progs[(0 : Fin 4)].inUse = false ∧
    r.work.progs[(3 : Fin 4)].steps[(0 : Nat)]? = some (.named (.gap 10)) ∧
    o.work.progs[(3 : Fin 4)].steps[(0 : Nat)]? = some (.named (.phrase 0)) ∧
    o.chans[(3 : Fin 4)].state = .ended :=
  ⟨⟨rfl, by decide, by decide⟩, ⟨rfl, by decide, by decide⟩, ⟨rfl, by decide, by decide⟩,
    ⟨rfl, by decide, by decide⟩, by decide, by decide, by decide, by decide⟩
/-- A program of two steps, the last gap raised to 10 ms (R126), over a running and an ended channel. -/
theorem witness_PlayCommands_write (m : Mode) :
    let e : Program := ⟨true, .named m, [.named (.phrase 0), .named (.gap 1)]⟩
    let e' : Program := ⟨true, .named m, [.named (.phrase 0), .named (.gap 10)]⟩
    let s (st : ChanState) := withCmd (playing .once st 0 [.named (.gap 10)]) q3
      (.tableWrite 9 3 (.program e))
    WriteTaken (s .running) q3 9 3 (.program e) (.program e') ∧
    WriteTaken (s .ended) q3 9 3 (.program e) (.program e') ∧
    (s .running).chans[(3 : Fin 4)].state = .running ∧
    (s .ended).chans[(3 : Fin 4)].state = .ended := by
  cases m <;>
    exact ⟨writeTaken_of rfl rfl (by decide), writeTaken_of rfl rfl (by decide), by decide, by decide⟩
/-- Phrase 63 with room for 16 samples. -/
def roomy : State :=
  { ringed with work := { Config.factory with
    phrases := Config.factory.phrases.set 63 ⟨0, 16, 0, false⟩ } }
/-- A capture of phrase 63 that has filled it. -/
def fullCapture : Capture :=
  { phrase := 63, slot := 31, maxSamples := 32, recorded := 16, requester := q3 }
/-- A router with that capture in flight. -/
def capturing : State :=
  { roomy with capture := some fullCapture }
theorem witness_CaptureBegins :
    Admitted (withCmd roomy q3 (.capture 64 0 1)) q3 (.capture 64 0 1) 1 ∧
    Admitted (withCmd roomy q3 (.capture 63 31 1)) q3 (.capture 63 31 1) 1 ∧
    roomy.capture = none ∧ capturing.capture ≠ none ∧
    roomy.work.phrases[(63 : Nat)]? = some ⟨0, 16, 0, false⟩ ∧
    roomy.work.phrases[(0 : Nat)]? = some Config.defPhrase ∧ Config.defPhrase.capacity = 0 ∧
    (¬∃ n : Fin 4, roomy.work.progs[n].inUse = true ∧
      (roomy.chans[n].state = .running ∨ roomy.chans[n].state = .waiting) ∧
      .named (.phrase 63) ∈ roomy.work.progs[n].steps) ∧ roomy.rif.ring = .locked :=
  ⟨⟨rfl, by decide, by decide⟩, ⟨rfl, by decide, by decide⟩, rfl, by simp [capturing],
    by decide, by decide, rfl, by decide, rfl⟩
theorem witness_CaptureBegins_inUse :
    let s := playing .repeat .waiting 0 [.named (.phrase 0)]
    s.work.progs[(0 : Fin 4)].inUse = true ∧ s.chans[(0 : Fin 4)].state = .waiting ∧
    .named (.phrase 0) ∈ s.work.progs[(0 : Fin 4)].steps := by decide
theorem witness_CaptureEnds :
    capturing.phase = .running ∧
    capturing.work.phrases[(63 : Nat)]? = some ⟨0, 16, 0, false⟩ ∧
    capturing.capture = some fullCapture ∧ 16 ≤ fullCapture.recorded ∧
    capturing.deferred = [] ∧ 0 < capturing.room ∧
    Admitted (withCmd roomy q3 .captureStop) q3 .captureStop 1 ∧
    Admitted (withCmd capturing q3 .captureStop) q3 .captureStop 2 :=
  ⟨rfl, by decide, rfl, by decide, rfl, by decide, ⟨rfl, by decide, by decide⟩,
    ⟨rfl, by decide, by decide⟩⟩

/-- A key whose change is due, with the warden enabled and announcing. -/
def keyState (closed : Bool) (k : KeyState) (fresh : Option FreshTake) : State :=
  { ringed with
    now := 600000, pins := { ringed.pins with keyClosed := closed }
    warden := { coldWarden with due := some 600000, key := k, talk := some 600000, fresh := fresh }
    work := { Config.factory with
      warden := ⟨true, 600, true⟩
      orig := Config.factory.orig.set 5 Config.defOrigFull } }
theorem witness_PressTaken :
    let s := keyState true .released (some ⟨600000, true⟩)
    s.phase = .running ∧ s.warden.due = some 600000 ∧ 600000 ≤ s.now ∧ s.pins.keyClosed = true ∧
    s.work.warden.enabled = true ∧ s.warden.fresh = some ⟨600000, true⟩ ∧
    templateInUse s.work s.work.orig[(5 : Fin 8)].preset = some Config.defTemplate0 ∧
    inSet s.work.orig[(5 : Fin 8)].reach 23 = true ∧ s.work.spk[(23 : Fin 24)].inUse = true ∧
    s.rif.ring = .locked ∧ s.warden.slot = .none ∧ 0 < s.room ∧ s.capture = none ∧
    Config.defWarden.enabled = false := by decide
/-- The same without room for the SLOT REQUEST. -/
theorem witness_PressTaken_noRoom :
    let s := { keyState true .released (some ⟨600000, true⟩) with outbound := fullOut }
    s.phase = .running ∧ s.warden.due = some 600000 ∧ 600000 ≤ s.now ∧ s.pins.keyClosed = true ∧
    s.work.warden.enabled = true ∧ s.work.warden.announce = true ∧ s.rif.ring = .locked ∧
    s.warden.slot = .none ∧ s.room = 0 := by decide
/-- The warden disabled as a fresh take comes due, with the interrupted press's talk timer at 600 s. -/
def freshDisabled : State :=
  { keyState true .released (some ⟨600000, true⟩) with work := Config.factory }
theorem witness_PressTaken_disabled :
    let s := freshDisabled
    s.phase = .running ∧ s.warden.fresh = some ⟨600000, true⟩ ∧ s.warden.due = some 600000 ∧
    600000 ≤ s.now ∧ s.pins.keyClosed = true ∧ s.work.warden.enabled = false ∧
    s.warden.slot = .none := by decide
/-- The warden enabled at a fresh take, class 5's preset template not in use. -/
theorem witness_PressTaken_noTemplate :
    let k := keyState true .released (some ⟨600000, true⟩)
    let s := { k with work := { k.work with
      templ := k.work.templ.set 0 { Config.defTemplate0 with inUse := false } } }
    s.phase = .running ∧ s.warden.due = some 600000 ∧ s.warden.fresh = some ⟨600000, true⟩ ∧
    s.pins.keyClosed = true ∧ s.work.warden.enabled = true ∧
    templateInUse s.work s.work.orig[(5 : Fin 8)].preset = none := by decide
set_option maxRecDepth 4000 in
/-- A fresh take with the warden disabled leaves no talk timer behind (R148, R157). -/
theorem test_fresh_take_disabled :
    (match exec .wardenFreshTake freshDisabled with
      | .next t => t.warden.key == .pressed && t.warden.talk.isNone
      | _ => false) = true := by decide
/-- The lists of zone 0 that an offer of a priority of 12 meets: with room, full below it, full at it. -/
theorem listOk_six (prio : Nat) : ListOk (six prio) :=
  ⟨Nat.le_refl 6, by simp [six, List.range, List.range.loop, Before, causeClaim],
    by simp [six, List.range, List.range.loop, causeClaim]⟩
set_option maxRecDepth 20000 in
/-- A cause of detection zone 3 whose claim of priority 12 comes to zone 0, with room, full below its priority
and full at it, or with a claim of its owner; zone 1 is not reached. -/
theorem witness_CauseRecorded_zones :
    let s (l : List Claim) : State := { listed l with work := oneEffect }
    let r := newRecord (s []) 3 q0.cls q0.origin none
    let c := mergeClaim oneEffect 0 r 0
    Admitted (withCmd (s (six 11)) q0 (.causeOn 3)) q0 (.causeOn 3) 1 ∧
    recordOf (s (six 11)) 3 = none ∧ (s (six 11)).isoEscalated = false ∧
    (c.map fun x => (x.owner, x.prio, x.stage)) = some (.cause 3, 12, some .alert) ∧
    (mergeClaim oneEffect 0 (timedOut r) 0).map (fun x => x.stage) = some (some .evacuate) ∧
    (∀ d ∈ six 11, d.owner ≠ .cause 3) ∧ (six 11).length = 6 ∧
    (six 11).getLast? = some (causeClaim 15 11) ∧ (six 12).getLast? = some (causeClaim 15 12) ∧
    alertClaim ∈ (s [alertClaim]).lists[(0 : Fin 24)] ∧ alertClaim.owner = .cause 3 ∧
    mergeClaim oneEffect 0 r 1 = none ∧ (∀ f ∈ r.refs, refReaches oneEffect r f 1 = false) :=
  ⟨⟨rfl, by decide, by decide⟩, by decide, rfl, by decide, by decide, by decide, rfl, by decide, by decide,
    by decide, rfl, by decide, by decide⟩
/-- The first cause in DEFAULT MODE: zone 0 with room, full below the OVERFLOW claim's priority, full at it,
and with an OVERFLOW claim of the same and of another priority. -/
theorem witness_CauseRecorded_default :
    let s (l : List Claim) : State := { listed l with defaultMode := true }
    let o (prio : Nat) : Claim := { overflowClaim ringed with prio := prio, placed := 7 }
    Admitted (withCmd (s (six 11)) q0 (.causeOn 3)) q0 (.causeOn 3) 1 ∧ (s (six 11)).acts = [] ∧
    (∀ d ∈ six 11, d.owner ≠ .overflow) ∧ (six 11).getLast? = some (causeClaim 15 11) ∧
    (six 12).getLast? = some (causeClaim 15 12) ∧ (overflowClaim ringed).prio = 12 ∧
    o 12 ∈ (s [o 12]).lists[(0 : Fin 24)] ∧ (o 12).owner = .overflow ∧ (o 11).prio = 11 ∧
    ListOk [o 12] ∧ ListOk [o 11] :=
  ⟨⟨rfl, by decide, by decide⟩, rfl, by decide, by decide, by decide, by decide, by decide, rfl, rfl,
    by simp [ListOk, Config.claimMax], by simp [ListOk, Config.claimMax]⟩
/-- A full Activation List whose overflow begins, with and without an OVERFLOW claim of DEFAULT MODE. -/
theorem witness_CauseOverflows_zones :
    let s (l : List Claim) : State := withRecs { listed l with defaultMode := true } fullList
    let o : Claim := { overflowClaim ringed with placed := 7 }
    Admitted (withCmd (s (six 11)) q0 (.causeOn 32)) q0 (.causeOn 32) 1 ∧
    recordOf (s (six 11)) 32 = none ∧ 32 ≤ (s (six 11)).acts.length ∧ (s (six 11)).overflow = false ∧
    (∀ d ∈ six 11, d.owner ≠ .overflow) ∧ (six 11).getLast? = some (causeClaim 15 11) ∧
    templateInUse (s []).work 0 = some Config.defTemplate0 ∧
    o ∈ (s [o]).lists[(0 : Fin 24)] ∧ o.owner = .overflow ∧ ListOk [o] ∧
    (s []).work.spk[(0 : Fin 24)].inUse = true :=
  ⟨⟨rfl, by decide, by decide⟩, by decide, by decide, rfl, by decide, by decide, by decide, by decide, rfl,
    by simp [ListOk, Config.claimMax], by decide⟩
/-- A stage timer that expires in zone 0, where its record holds no claim: with room, full below the new
claim's priority of 14 and full at it; and an EVACUATE template that is not in use, so that the merge has no
result. -/
theorem witness_StageTimerExpires_zones :
    let f' : Ref := { entry := 0, effect := 0, stage := .evacuate, timer := none, due := false }
    let r' : ActRecord := { recDue 3 with refs := [f'] }
    let off : Tables := { oneEffect with templ := oneEffect.templ.set 1 Config.defTemplate }
    let s (t : Tables) (l : List Claim) : State := { withRecs (listed l) [recDue 3] with work := t }
    recordOf (s oneEffect (six 13)) 3 = some (recDue 3) ∧ (s oneEffect (six 13)).phase = .running ∧
    (∀ d ∈ six 13, d.owner ≠ .cause 3 ∧ ∀ k, d.owner ≠ .silence k) ∧
    (six 13).getLast? = some (causeClaim 15 13) ∧ (six 14).getLast? = some (causeClaim 15 14) ∧
    (mergeClaim oneEffect 0 r' 0).map (fun c => (c.prio, c.stage)) = some (14, some .evacuate) ∧
    mergeClaim off 0 r' 0 = none ∧ refReaches off r' f' 0 = true ∧
    alertClaim ∈ (s off [alertClaim]).lists[(0 : Fin 24)] ∧ RecordsOk (s off [alertClaim]) :=
  ⟨by decide, rfl, by decide, by decide, by decide, by decide, by decide, by decide, by decide,
    by simp [RecordsOk, recDue, withRecs, rec1, Config.actMax, Config.refMax]⟩
/-- A press that meets in zone 0 a full list below and at the priority 12 of its claim, a WARDEN claim of that
priority and of another, and zone 23 out of use. -/
theorem witness_PressTaken_zones :
    let k := keyState true .released (some ⟨600000, true⟩)
    let s (l : List Claim) : State := { k with
      lists := k.lists.set 0 l
      work := { k.work with spk := k.work.spk.set 23 { Config.defSpkZone with inUse := false } } }
    let w (prio : Nat) : Claim := { owner := .warden, source := .warden, fallback := none, prio := prio
                                    atten := 0, stage := none, placed := 7 }
    (s (six 11)).phase = .running ∧ (s (six 11)).warden.fresh = some ⟨600000, true⟩ ∧
    templateInUse (s []).work (s []).work.orig[(5 : Fin 8)].preset = some Config.defTemplate0 ∧
    Config.defTemplate0.prio = 12 ∧ inSet (s []).work.orig[(5 : Fin 8)].reach 0 = true ∧
    (∀ d ∈ six 11, d.owner ≠ .warden) ∧ (six 11).getLast? = some (causeClaim 15 11) ∧
    (six 12).getLast? = some (causeClaim 15 12) ∧ w 12 ∈ (s [w 12]).lists[(0 : Fin 24)] ∧
    ListOk [w 12] ∧ ListOk [w 11] ∧ (s []).work.spk[(23 : Fin 24)].inUse = false :=
  ⟨rfl, rfl, by decide, rfl, by decide, by decide, by decide, by decide, by decide,
    by simp [ListOk, Config.claimMax], by simp [ListOk, Config.claimMax], by decide⟩
theorem witness_PressEnds :
    let s := keyState false .pressed (some ⟨600000, true⟩)
    s.phase = .running ∧ s.warden.due = some 600000 ∧ s.pins.keyClosed = false ∧
    s.warden.key = .pressed ∧ (keyState false .lockedOut none).warden.key ≠ .pressed ∧
    s.work.warden.enabled = true ∧ s.warden.talk = some 600000 ∧
    s.work.warden.maxTalk * 1000 ≤ 600000 ∧ s.warden.fresh = some ⟨600000, true⟩ ∧
    600000 ≤ s.now := by decide
/-- The talk timer at max talk before the fresh take of a RESTART, the key RELEASED. -/
theorem witness_PressEnds_fresh :
    let s := keyState true .released (some ⟨600040, true⟩)
    s.phase = .running ∧ s.warden.fresh ≠ none ∧ s.warden.key ≠ .pressed ∧
    s.warden.talk = some 600000 ∧ s.work.warden.maxTalk * 1000 ≤ 600000 := by decide
/-- Warden Settings written under a press that has lasted 30 s with a slot held: the warden disabled, max talk
put at 30 s, the announcement withdrawn. -/
theorem witness_PressEnds_write (slot : SlotState)
    (h : slot = .none ∨ slot = .requested 9 ∨ slot = .cancelled 9 ∨ slot = .holding 16 16) :
    let s (e : WardenSettings) : State := withCmd { ringed with
      warden := { coldWarden with key := .pressed, talk := some 30000, slot := slot }
      work := { Config.factory with warden := ⟨true, 60, true⟩ } } q3 (.tableWrite 11 0 (.warden e))
    let taken (e : WardenSettings) : Prop := WriteTaken (s e) q3 11 0 (.warden e) (.warden e)
    taken ⟨false, 60, true⟩ ∧ taken ⟨true, 30, true⟩ ∧ taken ⟨true, 60, false⟩ ∧
    (s ⟨true, 30, true⟩).warden.key = .pressed ∧ (30 : Nat) * 1000 ≤ 30000 := by
  rcases h with rfl | rfl | rfl | rfl <;>
    exact ⟨writeTaken_of rfl rfl (by decide), writeTaken_of rfl rfl (by decide),
      writeTaken_of rfl rfl (by decide), rfl, by decide⟩
/-- The warden enabled during a press taken while disabled. -/
theorem witness_PressEnds_enabled :
    let e : WardenSettings := ⟨true, 60, true⟩
    let s := withCmd { ringed with warden := { coldWarden with key := .pressed } } q3
      (.tableWrite 11 0 (.warden e))
    WriteTaken s q3 11 0 (.warden e) (.warden e) ∧ s.work.warden.enabled = false ∧
    s.warden.talk = none ∧ s.warden.slot = .none := ⟨writeTaken_of rfl rfl (by decide), rfl, rfl, rfl⟩
/-- A press ends, or a fresh take builds no claim, with a WARDEN claim and a SILENCE claim in zone 0, which the
record of detection zone 3 and the OVERFLOW claim refill; zone 1 holds no claim. -/
def onAir (k : State) : State :=
  { withRecs k [rec1 3 true none] with
    work := { oneEffect with warden := k.work.warden, orig := k.work.orig }
    overflow := true
    lists := k.lists.set 0 [silenceClaim 1 0,
      { owner := .warden, source := .warden, fallback := none, prio := 12, atten := 0, stage := none
        placed := 7 }] }
theorem witness_WardenGone :
    let gone (c : Claim) : Bool := c.owner == .warden
    let s := onAir (keyState false .pressed (some ⟨600000, true⟩))
    let u := onAir freshDisabled
    RecordsOk s ∧ RecordsOk u ∧ s.work.warden.enabled = true ∧ u.work.warden.enabled = false ∧
    s.lists = u.lists ∧ (∃ d ∈ s.lists[(0 : Fin 24)], gone d = true) ∧
    (∃ d ∈ s.lists[(0 : Fin 24)], gone d = false) ∧
    (∀ d ∈ s.lists[(0 : Fin 24)], d.owner ≠ .cause 3 ∧ d.owner ≠ .overflow) ∧
    (∀ d ∈ s.lists[(1 : Fin 24)], gone d = false) ∧ s.work.spk[(0 : Fin 24)].inUse = true ∧
    (mergeClaim s.work s.now (rec1 3 true none) 0).isSome = true ∧
    (mergeClaim u.work u.now (rec1 3 true none) 0).isSome = true := by
  refine ⟨?_, ?_, by decide, by decide, rfl, by decide, by decide, by decide, by decide, by decide,
    by decide, by decide⟩ <;>
    simp [RecordsOk, onAir, withRecs, rec1, Config.actMax, Config.refMax]
theorem witness_AnswerDeadlinePasses :
    ({ coldWarden with slot := .requested 100 } : Warden).slot = .requested 100 ∧
    ({ coldWarden with slot := .cancelled 100 } : Warden).slot = .cancelled 100 ∧
    100 ≤ ({ ringed with now := 100 } : State).now := by decide
/-- The answer GRANTED, and DENIED, to a SLOT REQUEST of this node; a label other than the one held. -/
theorem witness_AnswerDeadlinePasses_reply :
    let g : Reply := ⟨.slotRequest, 0, .granted, .granted [31] 31 15, 1, 1⟩
    let d : Reply := ⟨.slotRequest, 0, .denied, .freeCount 0, 1, 1⟩
    Arrives (arriving ringed (sent 60 17 (.reply g))) (sent 60 17 (.reply g)) ∧
    Arrives (arriving ringed (sent 60 17 (.reply d))) (sent 60 17 (.reply d)) ∧
    ringed.rif.addr ≠ 0 ∧ (sent 60 17 (.reply g)).dest = ringed.rif.addr ∧
    g.data = .granted (31 :: []) 31 15 ∧ d.data = .freeCount 0 ∧ 0 < ringed.room ∧
    ringed.warden.slot = .none ∧
    ({ coldWarden with slot := .holding 30 30 } : Warden).slot = .holding 30 30 :=
  ⟨arrives_sent 60 17 _ rfl rfl rfl, arrives_sent 60 17 _ rfl rfl rfl, by decide, rfl, rfl, rfl,
    by decide, rfl, rfl⟩

theorem witness_LineAndHealthInputs :
    let l : ZoneLines :=
      ⟨{ freshMon true with state := .short }, some { freshMon true with pulses := 65535 }, false⟩
    let s := { ringed with lines := Vector.replicate 24 l }
    s.phase = .running ∧ s.work.spk[(23 : Fin 24)].inUse = true ∧
    s.lines[(23 : Fin 24)].a.state = .short ∧
    s.lines[(23 : Fin 24)].b = some { freshMon true with pulses := 65535 } ∧
    ringed.lines[(0 : Fin 24)].a.state ≠ .short ∧ ringed.lines[(0 : Fin 24)].b = none ∧
    ({ Config.defSpkZone with inUse := false } : SpkZone).inUse = false := by decide
theorem witness_WindowEnds :
    let m : LineMon := { freshMon true with pulses := 65536, candidate := some .high, run := 2 }
    let h : Health := { freshHealth false true with candidate := some false, run := 2 }
    let s := { ringed with
      windowEnd := some 100, now := 100, lines := Vector.replicate 24 ⟨m, none, false⟩
      amps := Vector.replicate 24 h }
    s.phase = .running ∧ s.windowEnd = some 100 ∧ 100 ≤ s.now ∧
    s.work.spk[(0 : Fin 24)].inUse = true ∧ s.lines[(0 : Fin 24)].a.state ≠ .short ∧
    s.lines[(0 : Fin 24)].a.whole = true ∧ s.work.limits[(0 : Fin 24)].aUpper < m.pulses ∧
    m.candidate = some .high ∧ 2 ≤ m.run ∧ s.amps[(0 : Fin 24)].whole = true ∧
    h.candidate = some (!h.dropped) ∧ 2 ≤ h.run := by decide
/-- Line B over part of a window, a zone channel about to fail, and a standby channel that serves zone 0 about
to fail; and the same with nothing about to change. -/
theorem witness_WindowEnds_pool :
    let h : Health := { freshHealth false true with candidate := some false, run := 2 }
    let w := { ringed with
      windowEnd := some 100, now := 100
      lines := Vector.replicate 24 ⟨freshMon true, some (freshMon false), false⟩ }
    let s := { w with
      amps := Vector.replicate 24 h, standbyAmps := Vector.replicate 2 h
      serving := (Vector.replicate 2 none).set 0 (some 0) }
    s.phase = .running ∧ s.windowEnd = some 100 ∧ s.lines[(5 : Fin 24)].b = some (freshMon false) ∧
    s.serving[(0 : Fin 2)] = some 0 ∧ s.standbyAmps[(0 : Fin 2)].failed = false ∧ OneFeed s ∧
    OneFeed w ∧ w.windowEnd = some 100 := by
  refine ⟨rfl, rfl, by decide, by decide, by decide, ⟨fun z _ => ?_, fun k hk => ?_⟩,
    oneFeed_free (by decide), rfl⟩
  · simp
  · revert hk
    revert k
    decide
theorem witness_FaultsCleared :
    Admitted (withCmd ringed q3 .clearFaults) q3 .clearFaults 1 := ⟨rfl, by decide, by decide⟩
theorem witness_FaultsCleared_writes :
    WriteTaken (withCmd ringed q3 (.tableWrite 10 23 (.limits ⟨1, 2, 3, 4⟩))) q3 10 23
      (.limits ⟨1, 2, 3, 4⟩) (.limits ⟨1, 2, 3, 4⟩) ∧
    WriteTaken (withCmd ringed q3 (.tableWrite 10 24 (.window 49))) q3 10 24 (.window 49)
      (.window 50) := ⟨writeTaken_of rfl rfl (by decide), writeTaken_of rfl rfl (by decide)⟩

/-- Max talk 601 s, which is clamped (R145). -/
def wardenWrite : Contents := .warden ⟨true, 601, false⟩
theorem witness_TableWritten :
    Admitted (withCmd ringed q3 (.tableWrite 11 0 wardenWrite)) q3 (.tableWrite 11 0 wardenWrite) 1 ∧
    entryOf ringed.work 11 0 ≠ none ∧ ringed.commit = none ∧
    checkContents ringed.work 0 wardenWrite = some (.warden ⟨true, 600, false⟩) ∧
    (insertionSlot ringed).isSome = false ∧
    Admitted (withCmd ringed q3 (.tableWrite 11 1 wardenWrite)) q3 (.tableWrite 11 1 wardenWrite) 1 ∧
    entryOf ringed.work 11 1 = none ∧ entryOf ringed.work 12 0 = none :=
  ⟨⟨rfl, by decide, by decide⟩, by decide, rfl, by decide, by decide, ⟨rfl, by decide, by decide⟩,
    by decide, by decide⟩
/-- Writes of zone 23, from use and into use, and of each of its fields. -/
theorem witness_TableWritten_zone :
    let d := Config.defSpkZone
    let s (old e : SpkZone) : State := withCmd { ringed with work := { Config.factory with
      spk := Config.factory.spk.set 23 old } } q3 (.tableWrite 2 23 (.spkZone e))
    let taken (old e : SpkZone) : Prop := WriteTaken (s old e) q3 2 23 (.spkZone e) (.spkZone e)
    let off : SpkZone := { d with inUse := false }
    taken d off ∧ taken off d ∧ taken off { off with trim := 4 } ∧ taken d { d with trim := 40 } ∧
    taken d { d with sector := 3, levelLo := some 1, levelHi := some 1 } ∧
    taken d { d with lineCfg := .aAndB } ∧ taken { d with lineCfg := .aAndB } d ∧
    taken d { d with eligible := false } ∧ OneFeed (s d off) := by
  refine ⟨writeTaken_of rfl rfl (by decide), writeTaken_of rfl rfl (by decide),
    writeTaken_of rfl rfl (by decide), writeTaken_of rfl rfl (by decide),
    writeTaken_of rfl rfl (by decide), writeTaken_of rfl rfl (by decide),
    writeTaken_of rfl rfl (by decide), writeTaken_of rfl rfl (by decide), oneFeed_free (by decide)⟩
set_option maxRecDepth 4000 in
theorem witness_TableWritten_plain :
    let z : DetZone := ⟨true, some 127, some 0⟩
    let n : NodeIdentity := { Config.defNode with addr := 239 }
    let t : Template := { Config.defTemplate with inUse := true, prio := 15 }
    let c : CeEntry := { Config.defCeEntry with inUse := true }
    WriteTaken (withCmd ringed q3 (.tableWrite 0 0 (.node n))) q3 0 0 (.node n) (.node n) ∧
    WriteTaken (withCmd ringed q3 (.tableWrite 1 511 (.detZone z))) q3 1 511 (.detZone z)
      (.detZone z) ∧
    WriteTaken (withCmd ringed q3 (.tableWrite 5 31 (.template t))) q3 5 31 (.template t)
      (.template t) ∧
    WriteTaken (withCmd ringed q3 (.tableWrite 4 255 (.ceEntry c))) q3 4 255 (.ceEntry c)
      (.ceEntry c) :=
  ⟨writeTaken_of rfl rfl (by decide), writeTaken_of rfl rfl (by decide),
    writeTaken_of rfl rfl (by decide), writeTaken_of rfl rfl (by decide)⟩
theorem witness_TableWritten_refused :
    let c : Contents := .detZone ⟨true, some 128, none⟩
    Admitted (withCmd ringed q3 (.tableWrite 1 511 c)) q3 (.tableWrite 1 511 c) 1 ∧
    entryOf ringed.work 1 511 ≠ none ∧ checkContents ringed.work 511 c = none ∧
    Admitted (withCmd capturing q3 (.tableWrite 8 63 (.phrase Config.defPhrase))) q3
      (.tableWrite 8 63 (.phrase Config.defPhrase)) 1 :=
  ⟨⟨rfl, by decide, by decide⟩, by decide, by decide, ⟨rfl, by decide, by decide⟩⟩
/-- Contents at the bounds of their tables, clamped, taken and refused. -/
theorem witness_TableWritten_contents :
    EntryStands Config.factory 24 (.window 49) (.window 50) ∧
    EntryStands Config.factory 24 (.window 1001) (.window 1000) ∧
    EntryStands Config.factory 0 (.phrase ⟨4194303, 1, 1, true⟩) (.phrase ⟨4194303, 1, 1, true⟩) ∧
    (∀ c', ¬EntryStands Config.factory 0 (.phrase ⟨4194303, 2, 1, true⟩) c') ∧
    EntryStands Config.factory 0 (.localIn ⟨true, 511, true, true⟩) (.localIn ⟨true, 511, true, true⟩) ∧
    (∀ c', ¬EntryStands Config.factory 0 (.node { Config.defNode with report := 254 }) c') := by
  simp [EntryStands, Config.factory, Config.defLocalIn]
/-- Warden Settings written while the warden holds a slot needs room for the SLOT RELEASE. -/
theorem witness_TableWritten_holding :
    let s := { ringed with warden := { coldWarden with slot := .holding 16 16 } }
    Admitted (withCmd s q3 (.tableWrite 11 0 wardenWrite)) q3 (.tableWrite 11 0 wardenWrite) 2 ∧
    (insertionSlot s).isSome = true := ⟨⟨rfl, by decide, by decide⟩, rfl⟩
/-- A commit in flight of the last table. -/
def lastTable : Commit :=
  { requester := q3, table := 11, deadline := 100, image := Config.factory, written := 11 }
theorem witness_CommitWritesTables :
    Admitted (withCmd ringed q3 .commit) q3 .commit 1 ∧ ringed.commit = none ∧
    ringed.nvOk[(0 : Nat)]? = some false ∧
    ({ ringed with commit := some lastTable } : State).commit = some lastTable ∧ lastTable.table < 12 ∧
    lastTable.deadline ≤ ({ ringed with now := 100 } : State).now ∧
    (∀ k, lastTable.table < k → ¬k < 12) := by
  refine ⟨⟨rfl, by decide, by decide⟩, rfl, by decide, rfl, by decide, by decide, fun k h => ?_⟩
  have : lastTable.table = 11 := rfl
  omega
/-- With every check passing and working and non-volatile contents alike, no table is to be written. -/
theorem witness_CommitWritesTables_none (k : Nat) (hk : k < 12) :
    let s := { ringed with nvOk := Vector.replicate 12 true }
    ¬(tableEq k s.work s.nv = false ∨ s.nvOk[k]? = some false) := by
  have h : ∀ t : Tables, tableEq k t t = true := fun t => by
    have : copyTable k t t = t := by unfold copyTable; split <;> rfl
    simp [tableEq, this]
  have h2 : (Vector.replicate 12 true)[k]? = some true := by simp [hk]
  intro s
  rintro (h1 | h1)
  · have h3 : tableEq k s.work s.nv = true := h Config.factory
    rw [h3] at h1
    simp at h1
  · have h4 : s.nvOk[k]? = some true := h2
    rw [h4] at h1
    simp at h1
theorem witness_RestartTakesEffect :
    Admitted (withCmd ringed q3 .restart) q3 .restart 0 ∧
    ({ ringed with restart := some true } : State).restart = some true ∧ ringed.commit = none ∧
    ringed.phase = .running := ⟨⟨rfl, by decide, by decide⟩, rfl, rfl, rfl⟩
/-- Outputs in order outside ISOLATED, with a channel that runs and a notice still to be sent. -/
theorem witness_RestartTakesEffect_notice :
    let m : OutMsg := { dest := 255, content := .notice (.slotsCleared (.labels [16]))
                        named := [(1, some 16)] }
    let s := { master with
      restart := some false, outbound := [m], chans := Vector.replicate 4 { idleChan with state := .running }
      slots := { entries := Vector.replicate 16 releasedSlot, pending := .labels [17] } }
    OutputsFollow s ∧ s.rif.ring ≠ .isolated ∧ s.phase = .running ∧ s.commit = none ∧
    s.outbound = [] ++ m :: [] ∧ s.slots.pending = .labels [17] ∧
    (m.named.find? fun p => p.1 == 1) = some (1, some 16) ∧
    s.slots.entries[(1 : Fin 16)].held = none ∧ s.slots.entries[(1 : Fin 16)].announced = true ∧
    (∀ f, ((2 : Fin 16), f) ∉ m.named) ∧ s.chans[(0 : Fin 4)].state = .running := by
  refine ⟨⟨fun z => ?_, fun h => absurd h (by decide)⟩, by decide, rfl, rfl, rfl, rfl, by decide,
    by decide, by decide, by simp, by decide⟩
  revert z
  unfold OutOk
  decide

theorem witness_ReadsAnswer (r : StatusRecord) (z : ZoneReading) :
    Admitted (withCmd ringed q0 .statusRead) q0 .statusRead (partsOf (.status r)) ∧
    Admitted (withCmd ringed q0 (.zoneRead 23)) q0 (.zoneRead 23) (partsOf (.zone z)) ∧
    Admitted (withCmd ringed q0 (.zoneRead 24)) q0 (.zoneRead 24) 1 ∧
    ringed.work.spk[(23 : Fin 24)].inUse = true :=
  ⟨admitted_record _ (by decide), admitted_record _ (by decide), ⟨rfl, by decide, by decide⟩,
    by decide⟩
/-- A record that fits one body, and one that needs parts. -/
theorem witness_ReadsAnswer_parts :
    recordCode (.cause none) = some .causeRead ∧
    (dataBytes .causeRead (.cause none)).length ≤ 30 ∧
    recordCode (.status (statusRecord ringed)) = some .statusRead ∧
    30 < (dataBytes .statusRead (.status (statusRecord ringed))).length := by
  refine ⟨rfl, by decide, rfl, ?_⟩
  have h := itemsBytes_length (cmdMsgCode .statusRead) (dataItems (.status (statusRecord ringed)))
    (by decide)
  have h2 : (dataItems (.status (statusRecord ringed))).length = 33 := by decide
  show 30 < (List.take 336 _).length
  rw [List.length_take]
  omega
/-- A standby channel serves zone 23 alone, and a zone that none serves. -/
theorem witness_ReadsAnswer_standing :
    let s := { ringed with serving := (Vector.replicate 2 none).set 1 (some 23) }
    OneFeed s ∧ s.serving[(1 : Fin 2)] = some 23 ∧ (∀ k : Fin 2, s.serving[k] ≠ some 0) := by
  refine ⟨?_, by decide, by decide⟩
  unfold OneFeed
  decide
theorem witness_ReadsAnswer_tables (c : Contents) (a b : Bool) :
    Admitted (withCmd ringed q0 (.tableRead 10 24)) q0 (.tableRead 10 24) (partsOf (.table c a b)) ∧
    entryOf ringed.work 10 24 = some (.window 100) ∧
    Admitted (withCmd ringed q0 (.tableRead 10 25)) q0 (.tableRead 10 25) 1 ∧
    entryOf ringed.work 10 25 = none :=
  ⟨admitted_record _ (by decide), by decide, ⟨rfl, by decide, by decide⟩, by decide⟩
theorem witness_CauseReadAnswers :
    Admitted (withCmd ringed q0 (.causeRead 31)) q0 (.causeRead 31) (partsOf (.cause none)) ∧
    ringed.acts.length ≤ 31 ∧
    Admitted (withCmd ringed q0 (.causeRead 32)) q0 (.causeRead 32) 1 ∧
    (withRecs ringed fullList).acts[(31 : Nat)]? = some (rec1 31 true none) :=
  ⟨admitted_record _ (by decide), by decide, ⟨rfl, by decide, by decide⟩, by decide⟩
theorem witness_CauseReadAnswers_record (r : ActRecord) :
    mayBegin { withCmd ringed q0 (.causeRead 0) with acts := [r] } (partsOf (.cause (some r))) =
      true := by
  have h : mayBegin { withCmd ringed q0 (.causeRead 0) with acts := [r] }
      (partsOf (.cause (some r))) =
      mayBegin (withCmd ringed q0 (.causeRead 0)) (partsOf (.cause (some r))) := rfl
  rw [h]
  exact mayBegin_ringed (partsOf_le _)
theorem witness_CauseReadAnswers_removed :
    let s := withRecs ringed [rec1 3 true none, rec1 4 true none]
    s.acts = [] ++ rec1 3 true none :: [rec1 4 true none] ∧
    s.acts[(1 : Nat)]? = some (rec1 4 true none) ∧ RecordsOk s := by
  refine ⟨rfl, rfl, ?_⟩
  simp [RecordsOk, withRecs, rec1, Config.actMax, Config.refMax]

/-! ## Single steps of the manual's examples -/

/-- The state that a command leaves. -/
def after (c : Instr) (s : State) : State :=
  match exec c s with
  | .next t => t
  | _ => s

set_option maxRecDepth 4000 in
/-- The published check value of this cyclic check: over the ASCII digits 1 to 9 (generator
x^16 + x^12 + x^5 + 1, initial value all ones). -/
theorem test_crc16_check_value :
    crc16 [0x31, 0x32, 0x33, 0x34, 0x35, 0x36, 0x37, 0x38, 0x39] = 0x29B1#16 := by decide

/-- R181: zone 9 is bit 1 of byte 1, and a number goes out most significant byte first. -/
theorem test_zone_bytes : zoneBytes (1#24 <<< 9) = [0#8, 2#8, 0#8] ∧ numBytes 2 509 = [1#8, 253#8] := by
  decide
/-- R131: a GAP of 10 ms begun 8 sample times before the millisecond in hand ends 8 before its tenth
millisecond does, and the 8 go to the step behind it. -/
theorem test_gap_exact :
    silentStep 0 1 .gap 10 { idleChan with state := .running, kind := .phrase, owed := 8, due := true } =
      { idleChan with state := .running, step := 1, remaining := 10, late := 0, owed := 8 } := by decide

/-- R129: a phrase of 32 samples from address 100 gives them to address 131 and no further; its end is then
due, and the sample times that follow go to the next step. -/
theorem test_phrase_end :
    let c := phraseStep 0 ⟨100, 64, 32, true⟩ idleChan
    let shown (c : ChanRun) : Nat × Nat × Bool × Nat := (c.addr, c.remaining, c.due, c.owed)
    [c, chanSamples 31 c, chanSamples 16 (chanSamples 16 c), chanSamples 40 c].map shown =
      [(100, 32, false, 0), (131, 1, false, 0), (131, 1, true, 0), (131, 1, true, 8)] := by decide
/-- R119: a cadence written not in use while it is stopped stands at the start of ON with its stored on-time.
-/
theorem test_cadence_not_in_use :
    (cadWritten 2 ⟨false, 500, 700, 0, 0, 0⟩ ringed).cads[(2 : Fin 4)] =
      { listeners := 0, running := false, phase := .on, burst := 1, remaining := 700 } := by decide

/-- The router of 1.4.2: local input 2 with dz 509, active LOW, latched, at level 43, sector 1. -/
def bouncing : State :=
  { ringed with
    work := { ringed.work with
      inputs := ringed.work.inputs.set 2 (
        { inUse := true, dz := 509, activeHigh := false, latch := true })
      dzMap := ringed.work.dzMap.set 509 (
        { inUse := true, level := some 43, sector := some 1 }) }
    pins := { ringed.pins with inputHigh := Vector.replicate 8 true } }
/-- 1.4.2 at 5,000: the pending change of 5,200. -/
theorem test_input_pending :
    (after (.localInputEdge 2 false) { bouncing with now := 5000 }).inputs[(2 : Fin 8)] =
      { active := false, due := some 5200 } := by decide
/-- 1.4.2 at 5,080: the bounce removes it. -/
theorem test_input_bounce :
    (after (.localInputEdge 2 true) { bouncing with
      now := 5080, inputs := bouncing.inputs.set 2 ({ active := false, due := some 5200 }) }).inputs[
      (2 : Fin 8)] = { active := false, due := none } := by decide
set_option maxRecDepth 10000 in
/-- 1.4.2 at 5,330: the cause is taken. -/
theorem test_input_taken :
    (after (.localInputTaken 2) { bouncing with
      now := 5330, pins := { bouncing.pins with inputHigh := Vector.replicate 8 false }
      inputs := bouncing.inputs.set 2 ({ active := false, due := some 5330 }) }).acts.map
      (fun r => decide (r.dz = 509 ∧ r.cls = 4 ∧ r.time = 5330 ∧ r.level = some 43 ∧
        r.sector = some 1 ∧ r.latched = true)) = [true] := by decide

set_option maxRecDepth 10000 in
/-- R26, R86: the removal of detection zone 3 keeps the SILENCE claim of zone 0 and brings the claim of
detection zone 4 in; zone 1 stays empty. -/
theorem test_removal_refills :
    let t := after (.causeOff q0 3) (withCmd removing q0 (.causeOff 3))
    (t.lists[(0 : Fin 24)].map (fun c => c.owner), t.lists[(1 : Fin 24)]) =
      ([.silence 0, .cause 4], []) := by decide
set_option maxRecDepth 10000 in
/-- R149 step 2, R86: a release takes the WARDEN claim from zone 0, keeps the SILENCE claim there and brings in
the claim of detection zone 3 and the OVERFLOW claim. -/
theorem test_release_refills :
    ((after .keyRelease (onAir (keyState false .pressed none))).lists[(0 : Fin 24)].map
      fun c => c.owner) = [.silence 1, .cause 3, .overflow] := by decide
set_option maxRecDepth 10000 in
/-- R118: the first zone that plays cadence 0 starts it, and the last that leaves stops it. -/
theorem test_listeners_start_and_stop :
    let t := after (.zoneSet q0 1#24 false) (withCmd ringed q0 (.zoneSet 1#24 false))
    let u := after (.zoneClear q0 1#24) (withCmd t q0 (.zoneClear 1#24))
    (t.cads[(0 : Fin 4)].listeners, t.cads[(0 : Fin 4)].running, t.outs[(0 : Fin 24)].current,
      u.cads[(0 : Fin 4)].listeners, u.cads[(0 : Fin 4)].running) = (1, true, 120, 0, false) := by
  decide
set_option maxRecDepth 10000 in
/-- R88, R168: a zone with AMP FAILED takes standby channel 0 as it gains a winner, and gives it back as it
loses the winner. -/
theorem test_winner_change_runs_arbiter :
    let s := { ringed with
      amps := ringed.amps.set 0 { ringed.amps[(0 : Fin 24)] with failed := true } }
    let t := after (.zoneSet q0 1#24 false) (withCmd s q0 (.zoneSet 1#24 false))
    let u := after (.zoneClear q0 1#24) (withCmd t q0 (.zoneClear 1#24))
    (t.serving.toList, u.serving.toList, u.reports.map fun r => r.body) =
      ([some 0, none], [none, none],
        [.standbyChange 0 (.assigned 0), .standbyChange 0 (.released 0)]) := by decide

/-- 10.3.1: router Q, whose queue holds 8 commands, sends the message on with TAKEN and FULL. -/
theorem test_group_full :
    (settleMessage { msg (.command true (.causeOn 214)) with taken := true, takenBar := false }
      { ringed with cmdQueue := List.replicate 8 ⟨q0, .commit⟩ }).rif.fwd.map
      (fun m => (m.taken, m.full, m.tag)) = [(true, true, 5)] := by decide

/-- 6.9: cadence 2 at 800 Hz, 500 ms on and off, 3 bursts, pause 2,000 ms. -/
def sounding (p : CadPhase) (burst : Nat) : State :=
  { base with
    work := { base.work with cad := base.work.cad.set 2 (
      { inUse := true, freq := 800, on := 500, off := 500, bursts := 3, pause := 2000 }) }
    cads := base.cads.set 2 (
      { listeners := 1, running := true, phase := p, burst := burst, remaining := 0 }) }
/-- 6.9 at 4,000: the OFF of burst 3 is followed by the pause. -/
theorem test_cadence_pause :
    (after (.cadencePhaseEnd 2) (sounding .off 3)).cads[(2 : Fin 4)] =
      { listeners := 1, running := true, phase := .pause, burst := 3, remaining := 2000 } := by
  decide
/-- 6.9 at 6,000: the pause is followed by burst 1. -/
theorem test_cadence_again :
    (after (.cadencePhaseEnd 2) (sounding .pause 3)).cads[(2 : Fin 4)] =
      { listeners := 1, running := true, phase := .on, burst := 1, remaining := 500 } := by decide

/-- 10.7 at 1,025: the master grants slot 17 to node 41 while node 30 holds slot 16. -/
theorem test_grant_next :
    ((settleMessage (sent 253 41 (.command true (.slotRequest 1)))
      { master with slots :=
        { coldSlots with
          entries := (Vector.replicate 16 releasedSlot).set 0 (heldSlot 16 30) } }).outbound.map
      fun m => match m.content with
        | .reply r => some r.data
        | _ => none) = [some (.granted [17] 17 14)] := by decide

set_option maxRecDepth 10000 in
/-- R154: a SLOTS CLEARED notice takes the slot of the press, which asks for no slot at the next relock, and
the next press taken may ask again. -/
theorem test_cleared_press :
    let t := slotCleared .all { clearedPress with
      warden := { clearedPress.warden with cleared := false, slot := .holding 16 16 } }
    let u := after .ringLock { t with outbound := [] }
    (t.warden, t.reports.map fun r => r.body) =
      (clearedPress.warden, [.wardenLocalOnly (.cleared 16 16)]) ∧
    (u.rif.ring, u.warden.slot, u.outbound, (pressTaken u).warden.cleared) =
      (.locked, .none, [], false) := by decide
/-- 8.8 at 232,140: a grant that finds CANCELLED is given back with a SLOT RELEASE. -/
theorem test_late_grant :
    let t := slotGranted 16 16
      { ringed with warden := { coldWarden with slot := .cancelled 232150 }, now := 232140 }
    t.warden.slot = .none ∧ t.reports = [] ∧
    t.outbound = [{ dest := 253, content := .command true (.slotRelease 16) }] := by decide

end Sys2Proof.Tests
end

