-- ==== Sys2Proof/Proofs/CauseRepeated.lean ====
section
/-!
PROOFS. A repeated CAUSE ON (R18): what the Cause Unit does where the detection zone already has a record,
then its two ways in, the ring and a local input, and the bound on a written local input.
-/

namespace Sys2Proof.Machine

/-! ## The Cause Unit where the zone has a record -/

theorem causeOn_recorded {s : State} {dz : Nat} {r : ActRecord} (h : recordOf s dz = some r)
    (cls : Class) (origin : Nat) (latch : Option Bool) :
    causeOn dz cls origin latch s = mapRecord dz (fun x => { x with restored := false }) s := by
  simp [causeOn, h]

/-- A full list is no overflow for a zone that has its record (R21). -/
theorem causeOverflows_recorded {s : State} {dz : Nat} {r : ActRecord}
    (h : recordOf s dz = some r) : causeOverflows s dz = false := by
  simp [causeOverflows, h]

/-! ## CAUSE_ON from the ring -/

theorem exec_causeOn (q : Request) (dz : Nat) (s : State) :
    exec (.causeOn q dz) s = execCauseOn q dz s := rfl

theorem exec_causeOn_above {s : State} {q : Request} {dz : Nat} (hdz : 511 < dz)
    (h : Admitted s q (.causeOn dz) 1) :
    exec (.causeOn q dz) s = .next (repliedWith s q (.causeOn dz) .badArgument .none) := by
  rw [exec_causeOn, execCauseOn, command_of (own := oneReply) h]
  simp only [if_pos hdz]
  rfl

/-- An admitted CAUSE ON up to 511 is taken by the Cause Unit, and its reply tells whether it found the list
full (R19, R21). -/
theorem exec_causeOn_within {s : State} {q : Request} {dz : Nat} (hdz : dz ≤ 511)
    (h : Admitted s q (.causeOn dz) 1) :
    exec (.causeOn q dz) s = .next (carryOut 1
      (fun s => reply ⟨q, .causeOn dz⟩ .done (if causeOverflows s dz then .overflowed else .none)
        (causeOn dz q.cls q.origin none s)) s) := by
  rw [exec_causeOn, execCauseOn, command_of (own := oneReply) h]
  simp only [if_neg (Nat.not_lt.2 hdz)]
  rfl

theorem exec_causeOn_recorded {s : State} {q : Request} {dz : Nat} {r : ActRecord}
    (hdz : dz ≤ 511) (hr : recordOf s dz = some r) (h : Admitted s q (.causeOn dz) 1) :
    exec (.causeOn q dz) s = .next (repliedWith
      (mapRecord dz (fun x => { x with restored := false }) s) q (.causeOn dz) .done .none) := by
  have hr' : recordOf { s with cmdQueue := s.cmdQueue.tail, reserved := 1 } dz = some r := hr
  rw [exec_causeOn_within hdz h, carryOut]
  simp only [causeOverflows_recorded hr', causeOn_recorded hr']
  rfl

/-! ## CAUSE ON from a local input -/

theorem exec_localInputTaken (n : Fin 8) (s : State) :
    exec (.localInputTaken n) s = execLocalInputTaken n s := rfl

theorem inputDue_of {s : State} {n : Fin 8} {d : Nat} (hu : s.work.inputs[n].inUse = true)
    (hd : s.inputs[n].due = some d) (hle : d ≤ s.now) : inputDue s n = true := by
  simp only [inputDue, hu, hd, hle, decide_true, Bool.and_self]

theorem inputActive_of {s : State} {n : Fin 8}
    (h : s.pins.inputHigh[n] = s.work.inputs[n].activeHigh) : inputActive s n = true :=
  beq_iff_eq.2 h

/-- A due change of a local input to its active level is a CAUSE ON of class 4 (R11, R12). -/
theorem exec_localInputTaken_active {s : State} {n : Fin 8} (hrun : s.phase = .running)
    (hdue : inputDue s n = true) (hact : inputActive s n = true) :
    exec (.localInputTaken n) s = .next (causeOn s.work.inputs[n].dz 4 s.rif.addr
      (some s.work.inputs[n].latch)
      { s with inputs := s.inputs.set n { active := true, due := none } }) := by
  have hcond : (s.running && inputDue s n) = true := by simp [State.running, hrun, hdue]
  rw [exec_localInputTaken, execLocalInputTaken, whenever_of hcond]
  simp only [hact, if_true]

theorem exec_localInputTaken_recorded {s : State} {n : Fin 8} {r : ActRecord}
    (hrun : s.phase = .running) (hdue : inputDue s n = true) (hact : inputActive s n = true)
    (hr : recordOf s s.work.inputs[n].dz = some r) :
    exec (.localInputTaken n) s = .next (mapRecord s.work.inputs[n].dz
      (fun x => { x with restored := false })
      { s with inputs := s.inputs.set n { active := true, due := none } }) := by
  have hr' : recordOf { s with inputs := s.inputs.set n { active := true, due := none } }
      s.work.inputs[n].dz = some r := hr
  rw [exec_localInputTaken_active hrun hdue hact, causeOn_recorded hr']

/-! ## A written local input -/

/-- A local input that passes its check is stored as written, in use only up to zone 511 (R10). -/
theorem checkLocalIn_some {t : Tables} {i : Nat} {e e' : LocalIn}
    (h : checkLocalIn t i e = some e') : e' = e ∧ (e.inUse = true → e.dz ≤ 511) := by
  unfold checkLocalIn at h
  split at h
  · next hfree => exact ⟨(Option.some.inj h).symm, fun hu => by simp [hu] at hfree⟩
  · split at h
    · next hok => exact ⟨(Option.some.inj h).symm, fun _ => hok.1⟩
    · cases h

/-- Settles O34: with a record of the zone there, CAUSE ON is that record changed in its place, from the ring
and from a local input alike; the check of R10 bounds the zones of local inputs. -/
theorem causeRepeated : Obligations.CauseRepeated := by
  unfold Obligations.CauseRepeated
  refine ⟨fun s q dz hdz h => exec_causeOn_above hdz h,
    fun s q dz r hdz hr h => exec_causeOn_recorded hdz hr h, ?_, ?_⟩
  · intro s n d r hrun hu hd hle hpin hr
    exact exec_localInputTaken_recorded hrun (inputDue_of hu hd hle) (inputActive_of hpin) hr
  · intro t i e e' h hu
    obtain ⟨rfl, hbound⟩ := checkLocalIn_some h
    exact hbound hu

end Sys2Proof.Machine
end

