-- ==== Sys2Proof/Proofs/NoticeTaken.lean ====
section
/-!
PROOFS. A SLOTS CLEARED notice (R194): what it does to the slot record of the warden, then its way in from
the ring.
-/

namespace Sys2Proof.Machine

/-! ## The notice at the slot record -/

theorem clearedNames_iff (c : Cleared) (label : Nat) :
    clearedNames c label = true ↔ c = .all ∨ ∃ ls, c = .labels ls ∧ label ∈ ls := by
  cases c <;> simp [clearedNames]

theorem slotCleared_named {s : State} {c : Cleared} {n l : Nat}
    (hslot : s.warden.slot = .holding n l) (hname : clearedNames c l = true) :
    slotCleared c s = report (.wardenLocalOnly (.cleared n l))
      { s with warden := { s.warden with slot := .none, cleared := true } } := by
  simp only [slotCleared, hslot, hname, if_true]
  rfl

theorem slotCleared_unnamed {s : State} {c : Cleared} {n l : Nat}
    (hslot : s.warden.slot = .holding n l) (hname : clearedNames c l = false) :
    slotCleared c s = s := by
  simp [slotCleared, hslot, hname]

theorem slotCleared_notHolding {s : State} (h : ∀ n l, s.warden.slot ≠ .holding n l) (c : Cleared) :
    slotCleared c s = s := by
  unfold slotCleared
  split
  · next n l hslot => exact absurd hslot (h n l)
  · rfl

/-! ## The notice from the ring -/

theorem report_takeHead (b : ReportBody) (s : State) :
    report b (takeHead s) = takeHead (report b s) := by
  by_cases hroom : s.reports.length < Config.reportMax
  · simp [report, takeHead, setRif, hroom]
  · simp [report, takeHead, setRif, hroom]

/-- The slot record does not see which messages wait to be acted on. -/
theorem slotCleared_takeHead (c : Cleared) (s : State) :
    slotCleared c (takeHead s) = takeHead (slotCleared c s) := by
  by_cases hold : ∃ n l, s.warden.slot = .holding n l
  · obtain ⟨n, l, hslot⟩ := hold
    have hslot' : (takeHead s).warden.slot = .holding n l := hslot
    cases hname : clearedNames c l with
    | true =>
      rw [slotCleared_named hslot hname, slotCleared_named hslot' hname, ← report_takeHead]
      rfl
    | false => rw [slotCleared_unnamed hslot hname, slotCleared_unnamed hslot' hname]
  · have hnone : ∀ n l, s.warden.slot ≠ .holding n l := fun n l h => hold ⟨n, l, h⟩
    rw [slotCleared_notHolding hnone, slotCleared_notHolding (s := takeHead s) hnone]

theorem slotCleared_rif (c : Cleared) (s : State) : (slotCleared c s).rif = s.rif := by
  unfold slotCleared
  split
  · split
    · exact report_rif _ _
    · rfl
  · rfl

theorem takes_notice {s : State} {m : Message} {nt : Notice} (hm : m.content = .notice nt)
    (hn : Named s m.dest) : takes s m = true := by
  simp only [takes, hm, (reaches_iff_named s m.dest).2 hn]

/-- A notice that names this node reaches the slot record and goes along with TAKEN (R184, R185, R194). -/
theorem exec_ringMessageComplete_slotsCleared {s : State} {m : Message} {c : Cleared}
    (hm : m.content = .notice (.slotsCleared c)) (h : Arrives s m) (hn : Named s m.dest) :
    exec (.ringMessageComplete m) s = .next (sentAlong (withTaken m) (slotCleared c s)) := by
  have htakes : takes (takeHead s) m = true := by rw [takes_takeHead, takes_notice hm hn]
  have htake : takeMessage m (takeHead s) = (takeHead (slotCleared c s), .taken) := by
    rw [takeMessage_of htakes, ← slotCleared_takeHead]
    simp only [handTo, hm]
  have haddr : (slotCleared c s).rif.addr = s.rif.addr := by rw [slotCleared_rif]
  rw [exec_ringMessageComplete_arrives h, settleMessage_eq htake haddr]
  rfl

/-- Settles O24: every notice taken is handed to the slot record and goes along with TAKEN, so what it does
is what the slot record makes of it, by the slot held and by the names in the notice. -/
theorem noticeTaken : Obligations.NoticeTaken := by
  unfold Obligations.NoticeTaken
  intro s m c hm h hn
  rw [exec_ringMessageComplete_slotsCleared hm h hn]
  refine ⟨fun n l hslot hc => ?named, fun n l hslot hc => ?unnamed, fun hnone => ?notHolding⟩
  case named => rw [slotCleared_named hslot ((clearedNames_iff c l).2 hc)]
  case unnamed =>
    obtain ⟨ls, rfl, hl⟩ := hc
    have hname : clearedNames (.labels ls) l = false := by simpa [clearedNames] using hl
    rw [slotCleared_unnamed hslot hname]
  case notHolding => rw [slotCleared_notHolding hnone]

end Sys2Proof.Machine
end

/-!
PROOFS. What a command of the table can do, said once: every command comes about by moves, each of them one
operation of one block with the condition under which the command makes it. The invariants are proved of the
moves.
-/

namespace Sys2Proof.Machine

/-! ## The moves of a command -/

/-- What the RIF holds of messages and of the slots heard is that of a node outside LOCKED (R105, R180). -/
def RifQuiet (r : Rif) : Prop :=
  r.heard = silentSlots ∧ r.rx = none ∧ r.arrived = [] ∧ r.fwd = [] ∧ r.tx = none

/-- The return records held and the one that the message on its way out will create (R188). -/
def returnsDue (r : Rif) : Nat :=
  r.returns.length + match r.tx with
    | some t => if t.own then 1 else 0
    | none => 0

/-- A change of the RIF's record that keeps the ring state, the bounds of its lists and what is quiet outside
LOCKED. -/
structure RifKept (r r' : Rif) : Prop where
  ring    : r'.ring = r.ring
  fwd     : r.fwd.length ≤ Config.holdMax → r'.fwd.length ≤ Config.holdMax
  returns : returnsDue r ≤ Config.returnMax → returnsDue r' ≤ Config.returnMax
  quiet   : r.ring ≠ .locked → RifQuiet r → RifQuiet r'

/-- The claims of the zones are in play: the start-up load has completed, or a cause is recorded. -/
def Live (s : State) : Prop := s.phase = .loading → s.acts ≠ []

/-- A record as R17, R42 and R58 allow it. -/
def RecordOk (r : ActRecord) : Prop :=
  r.refs.length ≤ Config.refMax ∧
    ∀ f ∈ r.refs, (∀ k, f.timer = some k → f.stage = .alert ∧ 1 ≤ k) ∧ (f.due = true → f.timer = some 1)

/-- The commands that change channels, phrases, programs, ring state and sample times only as offers and
removals do. -/
def byZones : Instr → Bool
  | .ringFrameReceived _ _ _ | .ringLock | .isolatedRelock | .ringLoss | .ringIsolation
  | .startUpLoadComplete | .cadencePhaseEnd _ | .playoutStepEnd _ | .playStart _ _ | .playStop _ _
  | .capture _ _ _ _ | .captureLimit | .captureStop _ | .tableWrite _ _ _ (.phrase _)
  | .tableWrite _ _ _ (.program _) => false
  | _ => true

/-- One operation of one block, under the condition that the command `c` makes it. The fields that no
invariant reads change freely in `aside`. -/
inductive Move (c : Instr) : State → State → Prop where
  | aside {s t : State} (h : t = { s with
      msDue := t.msDue, pins := t.pins, invalid := t.invalid
      overflow := t.overflow, defaultMode := t.defaultMode, inputs := t.inputs, hold := t.hold
      isoTimer := t.isoTimer, isoEscalated := t.isoEscalated, phraseMissing := t.phraseMissing
      lines := t.lines, windowEnd := t.windowEnd, slots := t.slots
      reportOverflow := t.reportOverflow, restart := t.restart }) : Move c s t
  | sampleTimes {hc : byZones c = false} (k : Nat) (s : State) : Move c s { s with sampleTimes := k }
  | report (b : ReportBody) (s : State) : Move c s (report b s)
  | place (m : OutMsg) (s : State) (h : 0 < s.room) : Move c s (place m s)
  | sent (s : State) (hc : c = .insertionBegin) : Move c s { s with outbound := s.outbound.tail }
  | reportSent (s : State) (hc : c = .insertionBegin) : Move c s { s with reports := s.reports.tail }
  | entered (e : Entry) (s : State) (h : s.cmdQueue.length < Config.cmdMax) :
      Move c s { s with cmdQueue := s.cmdQueue ++ [e] }
  | taken (own : Nat) (s : State) (h : own ≤ s.room) :
      Move c s { s with cmdQueue := s.cmdQueue.tail, reserved := own }
  | replied (l : List OutMsg) (s : State) (h : l.length ≤ s.reserved) :
      Move c s { s with outbound := s.outbound ++ l, reserved := 0 }
  | deferredPlaced (m : OutMsg) (rest : List OutMsg) (s : State) (h : s.deferred = m :: rest)
      (hr : 0 < s.room) : Move c s (Machine.place m { s with deferred := rest })
  | captureBegun {hc : byZones c = false} (q : Request) (p slot ms : Nat) (s : State) (h : captureRefusal s p slot ms = none)
      (hd : s.deferred = []) : Move c s (beginCapture q p slot ms s)
  | captureEnded {hc : byZones c = false} (s : State) : Move c s (endCapture s)
  | captureSampled (h : Vector (Option Sample) 32) (s : State) : Move c s (captureSample h s)
  | records (l : List ActRecord) (s : State) (he : l = [] ↔ s.acts = [])
      (hk : RecordsOk s → RecordsOk { s with acts := l }) : Move c s { s with acts := l }
  | recorded (r : ActRecord) (s : State) (hp : s.phase = .running)
      (hl : s.acts.length < Config.actMax) (hn : recordOf s r.dz = none) (hr : RecordOk r) :
      Move c s (updateLock { s with acts := s.acts ++ [r] })
  | recordGone (dz : Nat) (b : Bool) (s : State) : Move c s
      (updateLock { s with acts := s.acts.filter fun r => r.dz != dz, overflow := b })
  | offer (z : Zone) (x : Claim) (s : State) (h : Live s) : Move c s (offer z x s)
  | removal (z : Zone) (p : Claim → Bool) (s : State) : Move c s (removal z p s)
  | started {hc : byZones c = false} (n : Fin 4) (s : State) (h : Live s) (hu : s.work.progs[n].inUse = true) :
      Move c s (startChan n s)
  | begun {hc : byZones c = false} (n : Fin 4) (k : Nat) (s : State) (h : Live s) (hr : s.chans[n].state = .running)
      (hk : k < s.work.progs[n].steps.length ∨ k = 0) : Move c s (beginStep n k s)
  | stopped {hc : byZones c = false} (n : Fin 4) (st : ChanState) (s : State) (hs : st ≠ .running)
      (hd : s.work.progs[n].mode = .named .demand → s.chans[n].listeners = 0) :
      Move c s (stopChan n st s)
  | sampled {hc : byZones c = false} (s : State) : Move c s { s with chans := updAll s.chans (chanSamples 1) }
  | cadenceMoved {hc : byZones c = false} (n : Fin 4) (s : State) (hu : s.work.cad[n].inUse = true) :
      Move c s { s with cads := upd s.cads n (cadPhaseEnd s.work.cad[n]) }
  | tables (w : Tables) (s : State) (h1 : w.spk = s.work.spk) (h2 : w.progs = s.work.progs)
      (h3 : w.cad = s.work.cad) (h4 : w.phrases = s.work.phrases) : Move c s { s with work := w }
  | zoneWritten (z : Zone) (e : SpkZone) (s : State) (hp : s.phase = .running) :
      Move c s (spkWritten z s.work.spk[z] e { s with work := putEntry z.val (.spkZone e) s.work })
  | cadenceWritten (n : Fin 4) (e : Cadence) (s : State) :
      Move c s (cadWritten n e { s with work := putEntry n.val (.cadence e) s.work })
  | phraseWritten {hc : byZones c = false} (p : Nat) (e : Phrase) (s : State) (hp : s.phase = .running)
      (hc : ∀ x, s.capture = some x → x.phrase ≠ p) :
      Move c s (phraseWritten p { s with work := putEntry p (.phrase e) s.work })
  | programWritten {hc : byZones c = false} (n : Fin 4) (e e' : Program) (s : State) (hp : s.phase = .running)
      (he : checkProgram e = some e') :
      Move c s (progWritten n e' { s with work := putEntry n.val (.program e') s.work })
  | commitBegun (q : Request) (k : Nat) (s : State) (hk : k < 12) (h : s.commit = none)
      (hd : s.deferred = []) : Move c s (beginTable q k 0 s)
  | tableDone (x : Commit) (s : State) (h : s.commit = some x) :
      Move c s (commitGoesOn x (tableWritten x s))
  | powerLost (s : State) : Move c s { cutCommit s with phase := .off }
  | windowJudged (s : State) : Move c s (windowVerdicts s)
  | health (a : Vector Health 24) (b : Vector Health 2) (s : State)
      (ha : ∀ z : Zone, a[z].failed = s.amps[z].failed)
      (hb : ∀ k : Fin 2, b[k].failed = s.standbyAmps[k].failed) :
      Move c s { s with amps := a, standbyAmps := b }
  | ringEntered {hc : byZones c = false} (st : RingState) (s : State) (hp : s.phase = .running)
      (h : st = .locked ∨ s.rif.ring ≠ .locked) : Move c s (enterRing st s)
  | ringLost {hc : byZones c = false} (s : State) (hp : s.phase = .running) :
      Move c s (abortCapture (enterRing .lost (leaveLocked s)))
  | loaded {hc : byZones c = false} (s : State) (hp : s.phase = .loading) : Move c s (enterRing .seeking (load s))
  | restarted (b : Bool) (s : State) (hc : c = .restartEffect) (hp : s.phase = .running)
      (hm : s.commit = none) : Move c s (restartEffect b s)
  | cold (b : BitVec 8) (s t : State) (hc : c = .coldStart b) (h : execColdStart b s = .next t) :
      Move c s t
  | rif (r : Rif) (s : State) (h : RifKept s.rif r) : Move c s { s with rif := r }
  | warden (w : Warden) (s : State) (h : w.slot = s.warden.slot ∨ w.slot = .none ∨
      s.warden.slot ≠ .none ∨ s.rif.ring = .locked) : Move c s { s with warden := w }
  | ticked (o : MsOrigin) (s : State) (hc : c = .timebaseMillisecond o) : Move c s (tick s)

/-- A run of moves of one command. -/
abbrev Moves (c : Instr) : State → State → Prop := Relation.ReflTransGen (Move c)

theorem Moves.one {c : Instr} {s t : State} (h : Move c s t) : Moves c s t := .single h

theorem Moves.foldl {α : Type} {c : Instr} {P : State → Prop} (f : State → α → State)
    (h : ∀ s a, P s → Moves c s (f s a) ∧ P (f s a)) (l : List α) (s : State) (hs : P s) :
    Moves c s (l.foldl f s) ∧ P (l.foldl f s) := by
  induction l generalizing s with
  | nil => exact ⟨.refl, hs⟩
  | cons a l ih => exact ⟨(h s a hs).1.trans (ih _ (h s a hs).2).1, (ih _ (h s a hs).2).2⟩

end Sys2Proof.Machine

namespace Sys2Proof.Machine

/-! ## Frames of settlements, field by field -/

theorem OnlyCauses.phase {s t : State} (h : OnlyCauses s t) : t.phase = s.phase := by
  rw [h.frame]
theorem OnlyCauses.reserved {s t : State} (h : OnlyCauses s t) : t.reserved = s.reserved := by
  rw [h.frame]
theorem OnlyCauses.work {s t : State} (h : OnlyCauses s t) : t.work = s.work := by
  rw [h.frame]
theorem OnlyZones.phase {s t : State} (h : OnlyZones s t) : t.phase = s.phase := by
  rw [h.frame]
theorem OnlyZones.acts {s t : State} (h : OnlyZones s t) : t.acts = s.acts := by
  rw [h.frame]
theorem OnlyZones.work {s t : State} (h : OnlyZones s t) : t.work = s.work := by
  rw [h.frame]
theorem OnlyZones.reserved {s t : State} (h : OnlyZones s t) : t.reserved = s.reserved := by
  rw [h.frame]
theorem OnlyZones.rif {s t : State} (h : OnlyZones s t) : t.rif = s.rif := by
  rw [h.frame]
theorem OnlyZones.warden {s t : State} (h : OnlyZones s t) : t.warden = s.warden := by
  rw [h.frame]
theorem OnlyZones.commit {s t : State} (h : OnlyZones s t) : t.commit = s.commit := by
  rw [h.frame]
theorem OnlyWarden.phase {s t : State} (h : OnlyWarden s t) : t.phase = s.phase := by
  rw [h.frame]
theorem OnlyWarden.reserved {s t : State} (h : OnlyWarden s t) : t.reserved = s.reserved := by
  rw [h.frame]
theorem OnlyWarden.work {s t : State} (h : OnlyWarden s t) : t.work = s.work := by
  rw [h.frame]

theorem live_of_running {s : State} (h : s.phase = .running) : Live s :=
  fun hl => absurd (h.symm.trans hl) (by decide)

theorem OnlyZones.live {s t : State} (h : OnlyZones s t) (hl : Live s) : Live t := by
  unfold Live
  rw [h.phase, h.acts]
  exact hl

section
variable {c : Instr}

/-! ## Offers and removals -/

theorem removalAll_moves (p : Claim → Bool) (s : State) : Moves c s (removalAll p s) :=
  (Moves.foldl (P := fun _ => True) _ (fun s z _ => ⟨.one (.removal z p s), trivial⟩) allZones s
    trivial).1

/-- Offers made zone by zone, each of a claim or of none, are moves. -/
theorem offers_moves (f : State → Zone → State) (l : List Zone)
    (hf : ∀ t z, f t z = t ∨ (∃ x, f t z = offer z x t) ∨ ∃ p, f t z = removal z p t)
    (s : State) (hs : Live s) : Moves c s (l.foldl f s) ∧ Live (l.foldl f s) := by
  refine Moves.foldl (P := Live) f (fun t z ht => ?_) l s hs
  obtain e | ⟨x, e⟩ | ⟨p, e⟩ := hf t z <;> rw [e]
  · exact ⟨.refl, ht⟩
  · exact ⟨.one (.offer z x t ht), (offer_onlyZones z x t).live ht⟩
  · exact ⟨.one (.removal z p t), (removal_onlyZones z p t).live ht⟩

theorem offerAll_moves (x : Claim) (s : State) (hs : Live s) : Moves c s (offerAll x s) :=
  (offers_moves _ _ (fun _ _ => .inr (.inl ⟨x, rfl⟩)) s hs).1

theorem offerRecord_moves (r : ActRecord) (s : State) (hs : Live s) :
    Moves c s (offerRecord r s) :=
  (offers_moves _ _ (fun t z => by
    split
    · exact .inr (.inl ⟨_, rfl⟩)
    · exact .inl rfl) s hs).1

theorem remerge_or (r : ActRecord) (z : Zone) (t : State) :
    remerge r z t = t ∨ (∃ x, remerge r z t = offer z x t) ∨ ∃ p, remerge r z t = removal z p t := by
  unfold remerge
  split
  · split
    · exact .inl rfl
    · exact .inr (.inl ⟨_, rfl⟩)
  · exact .inr (.inl ⟨_, rfl⟩)
  · exact .inr (.inr ⟨_, rfl⟩)
  · exact .inl rfl

/-! ## Records -/

/-- A change of one record in its place that keeps its detection zone and what R17, R42 and R58 ask. -/
theorem mapRecord_move (dz : Nat) (f : ActRecord → ActRecord) (s : State)
    (hd : ∀ r ∈ s.acts, r.dz = dz → (f r).dz = dz)
    (hk : ∀ r ∈ s.acts, r.dz = dz → RecordOk r → RecordOk (f r)) :
    Move c s (mapRecord dz f s) := by
  refine .records _ s (by simp) (fun ⟨h1, h2, h3⟩ => ⟨by simpa using h1, ?_, ?_⟩)
  · simp only [List.pairwise_map]
    refine h2.imp_of_mem fun {a b} ha hb hab => ?_
    have key : ∀ r ∈ s.acts, (if r.dz = dz then f r else r).dz = r.dz := by
      intro r hr
      split
      · next e => rw [hd r hr e, e]
      · rfl
    rw [key a ha, key b hb]
    exact hab
  · intro r hr
    obtain ⟨x, hx, rfl⟩ := List.mem_map.1 hr
    split
    · next e => exact hk x hx e (h3 x hx)
    · exact h3 x hx

theorem recordOf_dz {s : State} {dz : Nat} {r : ActRecord} (h : recordOf s dz = some r) :
    r.dz = dz := by
  have := List.find?_some h
  simpa using this

theorem recordOf_mem {s : State} {dz : Nat} {r : ActRecord} (h : recordOf s dz = some r) :
    r ∈ s.acts := List.mem_of_find?_eq_some h

theorem refExpired_ok {r : ActRecord} (i : Nat) {f : Ref} (h : RecordOk r) :
    RecordOk { r with refs := r.refs.set i (refExpired f) } := by
  refine ⟨by simpa using h.1, fun g hg => ?_⟩
  rcases List.mem_or_eq_of_mem_set hg with hg | rfl
  · exact h.2 g hg
  · exact ⟨fun k hk => absurd hk (by simp [refExpired]), fun hk => absurd hk (by simp [refExpired])⟩

/-- The records a state holds, each of them one of R17, R42 and R58. -/
theorem RecordsOk.record {s : State} (h : RecordsOk s) {r : ActRecord} (hr : r ∈ s.acts) : RecordOk r :=
  h.2.2 r hr

/-- Every record of a zone replaced by one record of that zone. -/
theorem replaceRecord_move (r' : ActRecord) (s : State)
    (hk : (∀ r ∈ s.acts, r.dz = r'.dz → RecordOk r) → RecordsOk s → RecordOk r') :
    Move c s (mapRecord r'.dz (fun _ => r') s) := by
  refine .records _ s (by simp) (fun hs => ?_)
  obtain ⟨h1, h2, h3⟩ := id hs
  refine ⟨by simpa using h1, ?_, ?_⟩
  · simp only [List.pairwise_map]
    refine h2.imp fun {a b} hab => ?_
    split <;> split <;> grind
  · intro r hr
    obtain ⟨x, hx, rfl⟩ := List.mem_map.1 hr
    split
    · exact hk (fun r hr _ => h3 r hr) hs
    · exact h3 x hx

theorem expire_moves (dz i : Nat) (s : State) (hs : Live s) :
    Moves c s (expire dz i s) ∧ Live (expire dz i s) := by
  unfold expire
  split
  · exact ⟨.refl, hs⟩
  next r hr =>
  split
  · exact ⟨.refl, hs⟩
  next f hf =>
  obtain rfl := recordOf_dz hr
  have hmem := recordOf_mem hr
  have h1 : Move c s (mapRecord r.dz (fun _ => { r with refs := r.refs.set i (refExpired f) }) s) :=
    replaceRecord_move { r with refs := r.refs.set i (refExpired f) } s
      (fun h _ => refExpired_ok i (h r hmem rfl))
  have l1 : Live (mapRecord r.dz (fun _ => { r with refs := r.refs.set i (refExpired f) }) s) := by
    intro hp
    simpa [mapRecord] using hs hp
  obtain ⟨h2, l2⟩ := offers_moves (c := c) (fun t z =>
      remerge { r with refs := r.refs.set i (refExpired f) } z t)
    (zonesReached s.work { r with refs := r.refs.set i (refExpired f) } f)
    (fun t z => remerge_or _ z t) _ l1
  exact ⟨(Moves.one h1).trans (h2.trans (Moves.one (.report _ _))), (report_onlyZones _ _).live l2⟩

theorem expireRecord_moves (dz : Nat) (s : State) (hs : Live s) :
    Moves c s (expireRecord dz s) ∧ Live (expireRecord dz s) := by
  unfold expireRecord
  split
  · exact ⟨.refl, hs⟩
  · exact Moves.foldl _ (fun t i ht => expire_moves dz i t ht) _ s hs

theorem expireEverything_moves (s : State) (hs : Live s) : Moves c s (expireEverything s) :=
  (Moves.foldl _ (fun t dz ht => expireRecord_moves dz t ht) _ s hs).1

/-- Where the tables load and no cause is recorded, no expiry is due. -/
theorem expireDue_moves (s : State) : Moves c s (expireDue s) := by
  by_cases hs : Live s
  · exact (Moves.foldl (fun t (p : Nat × Nat) => expire p.1 p.2 t)
      (fun t p ht => expire_moves p.1 p.2 t ht) _ s hs).1
  · have : s.acts = [] := by simp only [Live, not_forall] at hs; simpa using hs.2
    rw [expireDue_none (by simp [this])]

theorem refOf_ok (a b : Nat) (e : Effect) :
    (∀ k, (refOf a b e).timer = some k → (refOf a b e).stage = .alert ∧ 1 ≤ k) ∧
    ((refOf a b e).due = true → (refOf a b e).timer = some 1) := by
  unfold refOf
  split
  · by_cases hd : e.delay = 0
    · simp [hd]
    · simp [hd, Nat.one_le_iff_ne_zero]
  · simp

theorem newRecord_ok (s : State) (dz : Nat) (cls : Class) (o : Nat) (l : Option Bool) :
    RecordOk (newRecord s dz cls o l) := by
  unfold newRecord RecordOk
  cases s.defaultMode
  · refine ⟨List.length_take_le _ _, fun f hf => ?_⟩
    have hf' : f ∈ allRefs s.work dz := List.mem_of_mem_take hf
    simp only [allRefs, List.mem_flatMap] at hf'
    obtain ⟨i, -, hi⟩ := hf'
    split at hi
    · obtain ⟨p, -, rfl⟩ := List.mem_map.1 hi
      exact refOf_ok _ _ _
    · cases hi
  · simp [Config.refMax]

theorem firstClaims_moves (d e : Bool) (r : ActRecord) (s : State) (hs : Live s) : Moves c s
    (if d then (if e then offerAll (overflowClaim s) s else s) else offerRecord r s) := by
  split
  · split
    · exact offerAll_moves _ s hs
    · exact .refl
  · exact offerRecord_moves r s hs

theorem recordCause_moves (dz : Nat) (cls : Class) (o : Nat) (l : Option Bool) (s : State)
    (hp : s.phase = .running) (hn : recordOf s dz = none) (hl : s.acts.length < Config.actMax) :
    Moves c s (recordCause dz cls o l s) := by
  have h1 : Move c s (updateLock { s with acts := s.acts ++ [newRecord s dz cls o l] }) :=
    .recorded _ s hp hl hn (newRecord_ok s dz cls o l)
  have l1 : Live (updateLock { s with acts := s.acts ++ [newRecord s dz cls o l] }) :=
    live_of_running ((updateLock_onlyZones _).phase.trans hp)
  have h2 := firstClaims_moves (c := c) s.defaultMode s.acts.isEmpty (newRecord s dz cls o l) _ l1
  have l2 := (firstClaims_onlyZones s.defaultMode s.acts.isEmpty (newRecord s dz cls o l) _).live l1
  unfold recordCause
  dsimp only
  split
  · exact (Moves.one h1).trans (h2.trans (expireRecord_moves dz _ l2).1)
  · exact (Moves.one h1).trans h2

theorem causeOn_moves (dz : Nat) (cls : Class) (o : Nat) (l : Option Bool) (s : State)
    (hp : s.phase = .running) : Moves c s (causeOn dz cls o l s) := by
  unfold causeOn
  split
  · exact .one (mapRecord_move dz _ s (fun _ _ h => h) fun _ _ _ h => h)
  next hno =>
  have hn : recordOf s dz = none := by simpa using hno
  split
  · unfold refuseCause
    refine Relation.ReflTransGen.trans (b := if s.overflow then s
      else offerAll (overflowClaim s) { s with overflow := true }) ?_ (Moves.one (.report _ _))
    split
    · exact .refl
    · exact (Moves.one (.aside (t := { s with overflow := true }) rfl)).trans
        (offerAll_moves _ _ (live_of_running hp))
  next hf =>
    refine recordCause_moves dz cls o l s hp hn ?_
    simpa [causeOverflows, hn] using hf

theorem removeRecord_moves (dz : Nat) (s : State) : Moves c s (removeRecord dz s) :=
  (Moves.one (.recordGone dz _ s)).trans (removalAll_moves _ _)

theorem causeOff_moves (dz : Nat) (s : State) : Moves c s (causeOff dz s) := by
  unfold causeOff
  split
  · exact .refl
  · split
    · exact .one (mapRecord_move dz _ s (fun _ _ h => h) fun _ _ _ h => h)
    · exact removeRecord_moves dz s

theorem causeResetAll_moves (s : State) : Moves c s (causeResetAll s) :=
  (Moves.foldl (P := fun _ => True) _ (fun t dz _ => ⟨removeRecord_moves dz t, trivial⟩) _ s trivial).1

theorem keepTimers_moves (s : State) : Moves c s (keepTimers s) := by
  refine .one (.records _ s (by simp) fun ⟨h1, h2, h3⟩ => ⟨by simpa using h1, ?_, ?_⟩)
  · simpa only [List.pairwise_map] using h2
  · intro r hr
    obtain ⟨x, hx, rfl⟩ := List.mem_map.1 hr
    refine ⟨by simpa using (h3 x hx).1, fun f hf => ?_⟩
    obtain ⟨g, hg, rfl⟩ := List.mem_map.1 hf
    exact ⟨((h3 x hx).2 g hg).1, fun h => absurd h (by simp)⟩

/-! ## Channels -/

theorem stepEnds_moves (hc : byZones c = false) (n : Fin 4) (s : State) (hs : Live s) (hr : s.chans[n].state = .running) :
    Moves c s (stepEnds n s) := by
  unfold stepEnds
  dsimp only
  split
  next h => exact .one (.stopped (hc := hc) n .waiting s (by decide) fun _ => h.2)
  split
  next h => exact .one (.begun (hc := hc) n _ s hs hr (.inl h))
  split
  next h =>
    exact (Moves.one (.stopped (hc := hc) n .ended s (by decide) fun hd => absurd (h.symm.trans hd) (by decide))).trans
      (removalAll_moves _ _)
  · exact .one (.begun (hc := hc) n 0 s hs hr (.inr rfl))

theorem playStart_moves (hc : byZones c = false) (n : Fin 4) (s : State) (hs : Live s) : Moves c s (playStart n s) := by
  unfold playStart
  dsimp only
  split
  · exact .refl
  next hu =>
  have hu : s.work.progs[n].inUse = true := by simpa using hu
  split
  · split
    · exact .one (.started (hc := hc) n s hs hu)
    · exact .refl
  · split
    · exact .one (.started (hc := hc) n s hs hu)
    · exact .refl
  · exact .refl

theorem playStop_moves (hc : byZones c = false) (n : Fin 4) (s : State) : Moves c s (playStop n s) := by
  unfold playStop
  dsimp only
  split
  · exact .refl
  split
  next hm =>
    split
    · exact .one (.stopped (hc := hc) n .idle s (by decide) fun hd => absurd (hm.symm.trans hd) (by decide))
    · exact .refl
  next hm =>
    split
    · exact .one (.stopped (hc := hc) n .idle s (by decide) fun hd => absurd (hm.symm.trans hd) (by decide))
    · exact .refl
  · exact .refl

/-! ## The warden -/

theorem setWarden_move (f : Warden → Warden) (s : State) (h : (f s.warden).slot = s.warden.slot) :
    Move c s (setWarden f s) := .warden _ s (.inl h)

theorem sendRelease_moves (l : Nat) (s : State) : Moves c s (sendRelease l s) := by
  unfold sendRelease
  split
  next h => exact .one (.place _ s h)
  · exact .refl

theorem slotRelease_moves (s : State) : Moves c s (slotRelease s) := by
  unfold slotRelease
  split
  next h => exact .one (.warden _ s (.inr (.inr (.inl (by simp [h])))))
  · exact (Moves.one (.warden _ s (.inr (.inl rfl)))).trans (sendRelease_moves _ _)
  · exact .refl

theorem announce_moves (s : State) : Moves c s (announce s) := by
  unfold announce
  split
  next hm =>
    have hl : s.rif.ring = .locked := by
      simp only [mayRequest, State.locked, Bool.and_eq_true, beq_iff_eq] at hm
      exact hm.2
    split
    · unfold sendRequest
      split
      next h => exact (Moves.one (.place _ s h)).trans (Moves.one (.warden _ _ (.inr (.inr (.inr hl)))))
      · exact .one (.report _ s)
    · exact .one (.warden _ s (.inr (.inr (.inr hl))))
    · exact .refl
  · exact .refl

theorem endPress_moves (s : State) : Moves c s (endPress s) :=
  (Moves.one (setWarden_move _ s rfl)).trans ((removalAll_moves _ _).trans (slotRelease_moves _))

theorem offerWarden_moves (s : State) (hs : Live s) : Moves c s (offerWarden s) := by
  unfold offerWarden
  split
  · exact .refl
  · exact (offers_moves _ _ (fun t z => .inr (.inl ⟨_, rfl⟩)) s hs).1

theorem pressTaken_moves (s : State) (hs : Live s) : Moves c s (pressTaken s) := by
  cases h : s.work.warden.enabled
  · rw [pressTaken_disabled h]
    exact .one (.warden _ s (.inl rfl))
  · rw [pressTaken_enabled h]
    have hpress : ∀ u : State, Live u → Moves c u (announce (offerWarden u)) := fun u hu =>
      (offerWarden_moves u hu).trans (announce_moves _)
    refine (Moves.one (.warden { s.warden with
      taken := true, due := none, key := .pressed, talk := some 0, cleared := false } s
      (.inl rfl))).trans ?_
    exact hpress _ hs

theorem freshPress_moves (s : State) (hs : Live s) : Moves c s (freshPress s) := by
  unfold freshPress
  split
  · exact pressTaken_moves s hs
  · exact (removalAll_moves _ s).trans (pressTaken_moves _ ((removalAll_onlyZones _ s).live hs))

theorem releaseTaken_moves (s : State) : Moves c s (releaseTaken s) := by
  unfold releaseTaken
  dsimp only
  split
  · exact (Moves.one (setWarden_move _ s rfl)).trans (endPress_moves _)
  · exact .one (setWarden_move _ s rfl)

theorem forceRelease_moves (s : State) : Moves c s (forceRelease s) :=
  (Moves.one (setWarden_move _ s rfl)).trans ((endPress_moves _).trans (Moves.one (.report _ _)))

theorem observeKey_moves (s : State) : Moves c s (observeKey s) := by
  refine .one (setWarden_move _ s ?_)
  split <;> rfl

end

end Sys2Proof.Machine

namespace Sys2Proof.Machine

section
variable {c : Instr}

/-! ## Supervision -/

theorem windowRestart_moves (s : State) : Moves c s (windowRestart s) := by
  have h1 : Move c s { s with
      windowEnd := some (s.now + s.work.window)
      lines := updAll s.lines fun l => { l with a := monRestart l.a, b := l.b.map monRestart } } :=
    .aside rfl
  refine (Moves.one h1).trans (.single (.health _ _ _ ?_ ?_)) <;> intro z <;>
    simp [updAll, healthRestart]

theorem clearFaults_moves (s : State) : Moves c s (clearFaults s) := by
  have h1 : Move c s { s with lines := updAll s.lines freshLines, phraseMissing := false } :=
    .aside rfl
  have h2 : Move c { s with lines := updAll s.lines freshLines, phraseMissing := false }
      { s with lines := updAll s.lines freshLines, phraseMissing := false
               amps := updAll s.amps healthCleared
               standbyAmps := updAll s.standbyAmps healthCleared } := by
    refine .health _ _ _ ?_ ?_ <;> intro z <;> simp [updAll, healthCleared]
  exact (Moves.one h1).trans ((Moves.one h2).trans (windowRestart_moves _))

theorem healthInput_move (x : AmpChannel) (a : Bool) (s : State) : Move c s (match x with
    | .zone z => { s with amps := upd s.amps z (healthInput a) }
    | .standby k => { s with standbyAmps := upd s.standbyAmps k (healthInput a) }) := by
  cases x with
  | zone y =>
    refine .health _ _ s (fun z => ?_) (fun _ => rfl)
    simp only [upd, Fin.getElem_fin, Vector.getElem_set]
    split <;> simp_all [healthInput]
  | standby y =>
    refine .health _ _ s (fun _ => rfl) (fun z => ?_)
    simp only [upd, Fin.getElem_fin, Vector.getElem_set]
    split <;> simp_all [healthInput]

/-! ## Local inputs -/

theorem startInputs_move (s : State) : ∃ v, startInputs s = { s with inputs := v } := by
  have key : ∀ (l : List (Fin 8)) (s : State), ∃ v, l.foldl (fun t n =>
      if t.work.inputs[n].inUse then observeInput n t else t) s = { s with inputs := v } := by
    intro l
    induction l with
    | nil => exact fun s => ⟨s.inputs, rfl⟩
    | cons n l ih =>
      intro s
      simp only [List.foldl_cons]
      split
      · obtain ⟨v, hv⟩ := ih (observeInput n s)
        exact ⟨v, hv⟩
      · exact ih s
  exact key _ s

/-! ## Tables -/

theorem origWritten_moves (k : Class) (a b : OrigEntry) (s : State) :
    Moves c s (origWritten k a b s) :=
  (Moves.foldl (P := fun _ => True) _ (fun t z _ => ⟨.one (.removal z _ t), trivial⟩) allZones s
    trivial).1

theorem maxTalkChange_moves (a b : WardenSettings) (s : State) : Moves c s (maxTalkChange a b s) := by
  unfold maxTalkChange
  split
  · split
    · exact forceRelease_moves s
    · exact .refl
  · exact .refl

theorem wardenWritten_moves (a b : WardenSettings) (s : State) : Moves c s (wardenWritten a b s) := by
  unfold wardenWritten
  split
  · split
    · exact endPress_moves s
    · refine (maxTalkChange_moves a b s).trans ?_
      unfold announceChange
      split
      · exact slotRelease_moves _
      · exact .refl
  · exact .refl

/-- A phrase written to the directory while no capture of it is in flight. -/
theorem captureHolds_phrase {s : State} {i : Nat} (h : captureHolds s 8 i = false) :
    ∀ x, s.capture = some x → x.phrase ≠ i := by
  intro x hx e
  simp [captureHolds, hx, e] at h

theorem atIndex_of {n i : Nat} (f : Fin n → State → State) (s : State) (h : i < n) :
    atIndex i f s = f ⟨i, h⟩ s := by simp [atIndex, h]

theorem atIndex_not {n i : Nat} (f : Fin n → State → State) (s : State) (h : ¬i < n) :
    atIndex i f s = s := by simp [atIndex, h]

theorem putEntry_other {i : Nat} {x : Contents} (t : Tables)
    (h1 : ∀ e, x ≠ .spkZone e) (h2 : ∀ e, x ≠ .program e) (h3 : ∀ e, x ≠ .cadence e)
    (h4 : ∀ e, x ≠ .phrase e) :
    (putEntry i x t).spk = t.spk ∧ (putEntry i x t).progs = t.progs ∧
    (putEntry i x t).cad = t.cad ∧ (putEntry i x t).phrases = t.phrases := by
  cases x <;> simp_all [putEntry]

theorem updNat_not {α : Type} {n : Nat} (v : Vector α n) (i : Nat) (f : α → α) (h : ¬i < n) :
    updNat v i f = v := by simp [updNat, h]

/-- What stands in a table's contents that passed their check is of the same kind. -/
theorem checkContents_program {t : Tables} {i : Nat} {x : Contents} {e' : Program}
    (h : checkContents t i x = some (.program e')) :
    ∃ e, x = .program e ∧ checkProgram e = some e' := by
  cases x <;> simp_all [checkContents]

theorem tableWrite_phrase_table {t : Tables} {i : Nat} {x : Contents} {e' : Phrase}
    (h : checkContents t i x = some (.phrase e')) : ∃ e, x = .phrase e := by
  cases x <;> simp_all [checkContents]

/-- The effect of a write that is taken, for a table's contents that have passed their check. -/
theorem writeTaken_moves (table i : Nat) (x x' : Contents) (s : State) (hp : s.phase = .running)
    (hck : checkContents s.work i x = some x')
    (hph : ∀ e, x = .phrase e → byZones c = false) (hpr : ∀ e, x = .program e → byZones c = false)
    (hcap : ∀ e, x' = .phrase e → ∀ y, s.capture = some y → y.phrase ≠ i) :
    Moves c s (writeTaken table i x' s) := by
  unfold writeTaken
  split
  · exact .refl
  have plain : (∀ e, x' ≠ .spkZone e) → (∀ e, x' ≠ .program e) → (∀ e, x' ≠ .cadence e) →
      (∀ e, x' ≠ .phrase e) → Moves c s { s with work := putEntry i x' s.work } := by
    intro h1 h2 h3 h4
    obtain ⟨e1, e2, e3, e4⟩ := putEntry_other (i := i) s.work h1 h2 h3 h4
    exact .one (.tables _ s e1 e2 e3 e4)
  cases x' with
  | node e => exact plain (by simp) (by simp) (by simp) (by simp)
  | detZone e => exact plain (by simp) (by simp) (by simp) (by simp)
  | template e => exact plain (by simp) (by simp) (by simp) (by simp)
  | spkZone e =>
    show Moves c s (atIndex i (fun z => spkWritten z s.work.spk[z] e) _)
    by_cases h : i < 24
    · rw [atIndex_of _ _ h]
      exact .one (.zoneWritten ⟨i, h⟩ e s hp)
    · rw [atIndex_not _ _ h]
      simp only [putEntry, updNat_not _ _ _ h]
      exact .refl
  | localIn e =>
    show Moves c s (atIndex i (fun n => inputWritten n e) _)
    refine (plain (by simp) (by simp) (by simp) (by simp)).trans ?_
    by_cases h : i < 8
    · rw [atIndex_of _ _ h]
      unfold inputWritten
      dsimp only
      split
      · exact Moves.one (.aside rfl)
      · exact Moves.one (.aside rfl)
    · rw [atIndex_not _ _ h]
  | ceEntry e =>
    exact (plain (by simp) (by simp) (by simp) (by simp)).trans (Moves.one (.aside rfl))
  | originator e =>
    show Moves c s (atIndex i (fun k => origWritten k s.work.orig[k] e) _)
    refine (plain (by simp) (by simp) (by simp) (by simp)).trans ?_
    by_cases h : i < 8
    · rw [atIndex_of _ _ h]
      exact origWritten_moves _ _ _ _
    · rw [atIndex_not _ _ h]
  | cadence e =>
    show Moves c s (atIndex i (fun n => cadWritten n e) _)
    by_cases h : i < 4
    · rw [atIndex_of _ _ h]
      exact .one (.cadenceWritten ⟨i, h⟩ e s)
    · rw [atIndex_not _ _ h]
      simp only [putEntry, updNat_not _ _ _ h]
      exact .refl
  | phrase e =>
    obtain ⟨e0, he⟩ := tableWrite_phrase_table hck
    exact .one (.phraseWritten (hc := hph e0 he) i e s hp (hcap e rfl))
  | program e =>
    show Moves c s (atIndex i (fun n => progWritten n e) _)
    by_cases h : i < 4
    · rw [atIndex_of _ _ h]
      obtain ⟨e0, hx, he⟩ := checkContents_program hck
      exact .one (.programWritten (hc := hpr e0 hx) ⟨i, h⟩ e0 e s hp he)
    · rw [atIndex_not _ _ h]
      simp only [putEntry, updNat_not _ _ _ h]
      exact .refl
  | limits e =>
    refine (plain (by simp) (by simp) (by simp) (by simp)).trans ?_
    show Moves c _ (atIndex i limitsWritten _)
    by_cases h : i < 24
    · rw [atIndex_of _ _ h]
      exact Moves.one (.aside rfl)
    · rw [atIndex_not _ _ h]
  | window ms =>
    exact (plain (by simp) (by simp) (by simp) (by simp)).trans (windowRestart_moves _)
  | warden e =>
    exact (plain (by simp) (by simp) (by simp) (by simp)).trans (wardenWritten_moves _ _ _)

/-! ## Commands of the control stream -/

/-- What the Command Engine knows of a command that it carries out (R196). -/
theorem mayBegin_facts {s : State} {n : Nat} (h : mayBegin s n = true) :
    s.phase = .running ∧ n ≤ s.room ∧ (s.room = 0 ∨ s.deferred = []) := by
  simp only [mayBegin, State.running, Bool.and_eq_true, Bool.or_eq_true, beq_iff_eq,
    decide_eq_true_eq, List.isEmpty_iff] at h
  exact ⟨h.1.1.1.1, h.1.1.2, h.1.2⟩

/-- A command carried out, as the moves that its effect is, from the state that it begins in. -/
theorem commandWith_moves {s t : State} {e : Entry} {extra own : State → Nat} {act : State → State}
    (h : commandWith e extra own act s = .next t)
    (hact : ∀ u : State, u = { s with cmdQueue := s.cmdQueue.tail, reserved := own s } →
      s.phase = .running → extra s + own s ≤ s.room → (s.room = 0 ∨ s.deferred = []) →
      Moves c u { act u with reserved := 0 }) : Moves c s t := by
  obtain rfl | ⟨r, -, -, hm, rfl⟩ | ⟨-, -, hm, rfl⟩ := commandWith_cases h
  · exact .refl
  · obtain ⟨-, hr, -⟩ := mayBegin_facts hm
    refine (Moves.one (.taken 1 s hr)).trans (.single ?_)
    exact .replied (replyMsgs e.req (codeOf e.body) r .none)
      { s with cmdQueue := s.cmdQueue.tail, reserved := 1 }
      (by rw [replyMsgs_one _ _ _ rfl]; exact Nat.le_refl 1)
  · obtain ⟨hp, hr, hd⟩ := mayBegin_facts hm
    exact (Moves.one (.taken (own s) s (by omega))).trans (hact _ rfl hp hr hd)

/-- The reply at the end of a command, for which its room was held. -/
theorem reply_moves {u v : State} (e : Entry) (r : Result) (d : ReplyData) (h : Moves c u v)
    (hl : partsOf d ≤ v.reserved) : Moves c u { reply e r d v with reserved := 0 } :=
  h.trans (.single (.replied (replyMsgs e.req (codeOf e.body) r d) v (by rwa [replyMsgs_length])))

theorem partsOf_one {d : ReplyData} (h : recordCode d = none) : partsOf d = 1 := by
  simp [partsOf, h]

end

end Sys2Proof.Machine

namespace Sys2Proof.Machine

section
variable {c : Instr}

/-! ## Frames -/

theorem noteFrame_moves (f : Frame) (gap : Bool) (s : State) : Moves c s (noteFrame f gap s) := by
  have h1 : Move c s { s with msDue := s.msDue || (frameOk f && s.locked && f.count == 0#4) } :=
    .aside rfl
  refine (Moves.one h1).trans (.single (.rif _ _ ⟨rfl, id, id, fun hl hq => ?_⟩))
  obtain ⟨-, hrest⟩ := hq
  have hno : s.locked = false := by simpa [State.locked] using hl
  exact ⟨by simp only [hno, Bool.and_false]; exact if_neg (by decide), hrest⟩

theorem takePart_kept (p : Option (List Byte)) (b : Bool) (r : Rif) (h : r.ring = .locked) :
    RifKept r (takePart p { r with passing := b }) := by
  obtain e | ⟨bs, -, e | e⟩ := takePart_cases p { r with passing := b } <;> rw [e] <;>
    exact ⟨rfl, id, id, fun hl => absurd h hl⟩

theorem receiveControl_moves (f : Frame) (s : State) : Moves c s (receiveControl f s) := by
  unfold receiveControl
  split
  next hl =>
    have hl : s.rif.ring = .locked := by simpa [State.locked] using hl
    exact .single (.rif _ s (takePart_kept _ _ _ hl))
  · exact .refl

theorem advanceTx_moves (s : State) : Moves c s (advanceTx s) := by
  unfold advanceTx
  split
  · exact .refl
  next t ht =>
  have hq : ∀ r : Rif, RifQuiet s.rif → RifQuiet r := fun r hq =>
    absurd (ht.symm.trans hq.2.2.2.2) (by simp)
  dsimp only
  split
  · refine .single (.rif _ s ⟨rfl, id, fun h => ?_, fun _ => hq _⟩)
    simp only [returnsDue, ht] at h ⊢
    split <;> simp_all
  · refine .single (.rif _ s ⟨rfl, id, fun h => ?_, fun _ => hq _⟩)
    simpa only [returnsDue, ht] using h

theorem ringOut_kept (r : Rif) (f : Option Frame) : RifKept r { r with ringOut := f } :=
  ⟨rfl, id, id, fun _ h => h⟩

theorem forwardFrame_moves (f : Frame) (mic : Sample) (s : State) :
    Moves c s (forwardFrame f mic s) := by
  unfold forwardFrame
  dsimp only
  split
  · have h1 : Moves c s (setRif (fun r => { r with ringOut := some (forwarded s mic f) }) s) :=
      .single (.rif _ s (ringOut_kept _ _))
    split
    · exact h1.trans (advanceTx_moves _)
    · exact h1
  · exact .refl

theorem masterReceive_moves (f : Frame) (s : State) : Moves c s (masterReceive f s) := by
  have h1 : Move c s { s with slots := { s.slots with
      entries := Vector.ofFn fun i => freshPresence f i s.slots.entries[i] } } := .aside rfl
  exact (Moves.one h1).trans (.single (.rif _ _ ⟨rfl, id, id, fun _ h => h⟩))

theorem takeFrame_moves (hc : byZones c = false) (f : Frame) (gap : Bool) (mic : Sample) (s : State) :
    Moves c s (takeFrame f gap mic s) := by
  have h2 : ∀ u : State, Moves c u (if u.locked then captureSample u.rif.heard
      { u with chans := updAll u.chans (chanSamples 1), sampleTimes := u.sampleTimes + 1 } else u) := by
    intro u
    split
    · have a1 : Move c { u with chans := updAll u.chans (chanSamples 1) }
          { u with chans := updAll u.chans (chanSamples 1), sampleTimes := u.sampleTimes + 1 } :=
        .sampleTimes (hc := hc) _ _
      exact (Moves.one (.sampled (hc := hc) u)).trans ((Moves.one a1).trans (.single (.captureSampled _ _)))
    · exact .refl
  have h4 : ∀ u : State, Moves c u (if u.rif.master then (if frameOk f then masterReceive f u else u)
      else forwardFrame f mic u) := by
    intro u
    split
    · split
      · exact masterReceive_moves f u
      · exact .refl
    · exact forwardFrame_moves f mic u
  exact (noteFrame_moves f gap s).trans ((h2 _).trans ((receiveControl_moves f _).trans (h4 _)))

/-! ## Messages -/

theorem slotsAside (t : SlotTable) (s : State) : Move c s { s with slots := t } := .aside rfl

theorem slotRequest_moves (q : Request) (n : Nat) (s : State) (h : 0 < s.room) :
    Moves c s (slotRequest q n s) := by
  unfold slotRequest
  split
  · exact .single (.place _ s h)
  · split
    · exact .single (.place _ s h)
    · split
      · exact (Moves.one (slotsAside _ s)).trans (.single (.place _ _ h))
      · exact .single (.place _ s h)

theorem slotReleased_moves (q : Request) (l : Nat) (s : State) (h : 0 < s.room) :
    Moves c s (slotReleased q l s) := by
  unfold slotReleased
  split
  · split
    · exact (Moves.one (slotsAside _ s)).trans (.single (.place _ _ h))
    · exact .single (.place _ s h)
  · exact .single (.place _ s h)

theorem slotGranted_moves (n l : Nat) (s : State) : Moves c s (slotGranted n l s) := by
  unfold slotGranted
  split
  · exact sendRelease_moves l s
  next h => exact (Moves.one (.warden _ s (.inr (.inr (.inl (by simp [h])))))).trans (.single (.report _ _))
  · exact (Moves.one (.warden _ s (.inr (.inl rfl)))).trans (sendRelease_moves l _)
  · split
    · exact .refl
    · exact sendRelease_moves l s

theorem slotDenied_moves (n : Nat) (s : State) : Moves c s (slotDenied n s) := by
  unfold slotDenied
  split
  · exact (Moves.one (.warden _ s (.inr (.inl rfl)))).trans (.single (.report _ _))
  · exact .single (.warden _ s (.inr (.inl rfl)))
  · exact .refl

theorem slotCleared_moves (x : Cleared) (s : State) : Moves c s (slotCleared x s) := by
  unfold slotCleared
  split
  · split
    · exact (Moves.one (.warden _ s (.inr (.inl rfl)))).trans (.single (.report _ _))
    · exact .refl
  · exact .refl

theorem replyTaken_moves (r : Reply) (s : State) : Moves c s (replyTaken r s) := by
  unfold replyTaken
  split
  · exact slotGranted_moves _ _ s
  · exact slotDenied_moves _ s
  · exact .refl

theorem handTo_moves (m : Message) (s : State) : Moves c s (handTo m s).1 := by
  unfold handTo
  split
  · unfold withAnswer
    split
    next h =>
      dsimp only
      split
      · exact slotRequest_moves _ _ s h
      · exact .single (.place _ s h)
    · exact .refl
  · unfold withAnswer
    split
    next h =>
      dsimp only
      split
      · exact slotReleased_moves _ _ s h
      · exact .single (.place _ s h)
    · exact .refl
  · unfold enterCommand
    split
    next h => exact .single (.entered _ s h)
    · exact .refl
  · exact replyTaken_moves _ s
  · exact .refl
  · exact slotCleared_moves _ s
  · exact .refl
  · exact .refl
  · exact .refl

theorem sendRelease_rif (l : Nat) (s : State) : (sendRelease l s).rif = s.rif := by
  unfold sendRelease; split <;> rfl

theorem answer_rif (q : Request) (x : CmdCode) (r : Result) (d : ReplyData) (s : State) :
    (answer q x r d s).rif = s.rif := place_rif _ s

theorem slotRequest_rif (q : Request) (n : Nat) (s : State) : (slotRequest q n s).rif = s.rif := by
  unfold slotRequest
  split
  · exact answer_rif _ _ _ _ s
  · split
    · exact answer_rif _ _ _ _ s
    · split
      · exact (answer_rif _ _ _ _ _).trans (setSlots_rif _ s)
      · exact answer_rif _ _ _ _ s

theorem slotReleased_rif (q : Request) (l : Nat) (s : State) : (slotReleased q l s).rif = s.rif := by
  unfold slotReleased
  split
  · split
    · exact (answer_rif _ _ _ _ _).trans (setSlots_rif _ s)
    · exact answer_rif _ _ _ _ s
  · exact answer_rif _ _ _ _ s

theorem replyTaken_rif (r : Reply) (s : State) : (replyTaken r s).rif = s.rif := by
  unfold replyTaken
  split
  · unfold slotGranted
    split
    · exact sendRelease_rif _ _
    · exact report_rif _ _
    · exact sendRelease_rif _ _
    · split
      · rfl
      · exact sendRelease_rif _ _
  · unfold slotDenied
    split
    · exact report_rif _ _
    · rfl
    · rfl
  · rfl

/-- No block that takes a message changes the RIF's record. -/
theorem handTo_rif (m : Message) (s : State) : (handTo m s).1.rif = s.rif := by
  unfold handTo
  split
  · unfold withAnswer
    split
    · dsimp only
      split
      · exact slotRequest_rif _ _ s
      · rfl
    · rfl
  · unfold withAnswer
    split
    · dsimp only
      split
      · exact slotReleased_rif _ _ s
      · rfl
    · rfl
  · unfold enterCommand
    split <;> rfl
  · exact replyTaken_rif _ s
  · rfl
  · exact slotCleared_rif _ s
  · rfl
  · rfl
  · rfl

theorem takeMessage_rif (m : Message) (s : State) : (takeMessage m s).1.rif = s.rif := by
  unfold takeMessage
  split
  · exact handTo_rif m s
  · rfl

theorem takeHead_moves (s : State) (hl : s.rif.ring = .locked) : Moves c s (takeHead s) :=
  .single (.rif _ s ⟨rfl, id, id, fun h => absurd hl h⟩)

theorem settleMessage_moves (m : Message) (s : State) (hl : s.rif.ring = .locked)
    (hf : s.rif.fwd.length < Config.holdMax) : Moves c s (settleMessage m s) := by
  have h1 : Moves c s (takeMessage m s).1 := by
    unfold takeMessage
    split
    · exact handTo_moves m s
    · exact .refl
  have hr := takeMessage_rif m s
  unfold settleMessage
  dsimp only
  split
  · refine h1.trans (.single (.rif _ _ ⟨rfl, id, fun h => ?_, fun h => absurd (hr ▸ hl) h⟩))
    have := (List.eraseP_sublist (p := fun x => x.tag == m.tag)
      (l := (takeMessage m s).1.rif.returns)).length_le
    simp only [returnsDue] at h ⊢
    omega
  · refine h1.trans (.single (.rif _ _ ⟨rfl, fun _ => ?_, id, fun h => absurd (hr ▸ hl) h⟩))
    simp only [hr, List.length_append, List.length_singleton]
    omega

theorem execRingMessageComplete_moves (m : Message) (s t : State)
    (h : execRingMessageComplete m s = .next t) : Moves c s t := by
  obtain ⟨hp, rfl⟩ | ⟨-, rfl⟩ := whenever_cases h
  · have hl : s.rif.ring = .locked := by
      simp only [State.locked, Bool.and_eq_true, beq_iff_eq] at hp
      exact hp.1.2
    split
    next hc =>
      simp only [Bool.and_eq_true, decide_eq_true_eq] at hc
      exact (takeHead_moves s hl).trans (settleMessage_moves m _ hl hc.2)
    · exact takeHead_moves s hl
  · exact .refl

theorem beginInsertion_kept (s : State) (m : OutMsg) (hl : s.rif.ring = .locked)
    (hr : s.rif.returns.length < Config.returnMax) :
    RifKept s.rif (beginInsertion m s).rif :=
  ⟨rfl, id, fun _ => by simp only [returnsDue, beginInsertion, setRif_rif]; exact hr,
    fun h => absurd hl h⟩

theorem execInsertionBegin_moves (s t : State) (h : execInsertionBegin s = .next t) :
    Moves .insertionBegin s t := by
  obtain ⟨hp, rfl⟩ | ⟨-, rfl⟩ := whenever_cases h
  · simp only [mayInsert, State.locked, ringOutFree, Bool.and_eq_true, beq_iff_eq, decide_eq_true_eq,
      Option.isNone_iff_eq_none] at hp
    obtain ⟨⟨⟨⟨-, hl⟩, -⟩, ht, -⟩, hr⟩ := hp
    split
    next m rest hm =>
      have h1 : Move .insertionBegin s { s with outbound := s.outbound.tail } := .sent s rfl
      rw [hm] at h1
      exact (Moves.one h1).trans (.single (.rif _ _ (beginInsertion_kept _ m hl hr)))
    · split
      next r rest hm =>
        have h1 : Move .insertionBegin s { s with reports := s.reports.tail } := .reportSent s rfl
        rw [hm] at h1
        exact (Moves.one h1).trans (.single (.rif _ _ (beginInsertion_kept _ _ hl hr)))
      · exact .refl
  · exact .refl

theorem execForwardHoldSend_moves (s t : State) (h : execForwardHoldSend s = .next t) :
    Moves c s t := by
  obtain ⟨hp, rfl⟩ | ⟨-, rfl⟩ := whenever_cases h
  · simp only [State.locked, ringOutFree, Bool.and_eq_true, beq_iff_eq, Option.isNone_iff_eq_none] at hp
    obtain ⟨⟨-, hl⟩, ht, -⟩ := hp
    split
    · exact .refl
    next m rest hm =>
      refine .single (.rif _ s ⟨rfl, fun h => ?_, fun h => ?_, fun h => absurd hl h⟩)
      · simp only [hm, List.length_cons] at h
        show rest.length ≤ _
        omega
      · simpa [returnsDue, ht] using h
  · exact .refl

theorem execReturnRecordExpiry_moves (s t : State) (h : execReturnRecordExpiry s = .next t) :
    Moves c s t := by
  obtain ⟨-, rfl⟩ | ⟨-, rfl⟩ := whenever_cases h
  · refine .single (.rif _ s ⟨rfl, id, fun h => ?_, fun _ hq => hq⟩)
    have := (List.eraseP_sublist (p := returnExpired s.now) (l := s.rif.returns)).length_le
    simp only [returnsDue] at h ⊢
    omega
  · exact .refl

/-! ## Ring states -/

theorem enterLocked_moves (hc : byZones c = false) (s : State) (hp : s.phase = .running) :
    Moves c s (enterLocked s) := by
  have h1 : Move c s (setRif (fun r => { r with passing := true, rx := none, arrived := [] }) s) :=
    .rif _ s ⟨rfl, id, id, fun _ hq => ⟨hq.1, rfl, rfl, hq.2.2.2⟩⟩
  have h2 : ∀ u : State, u.phase = .running → Moves c u (announce (enterRing .locked u)) :=
    fun u hu => (Moves.one (.ringEntered (hc := hc) .locked u hu (.inl rfl))).trans (announce_moves _)
  exact (Moves.one h1).trans (h2 _ hp)

theorem dropInsertion_moves (s : State) : Moves c s (dropInsertion s) := by
  unfold dropInsertion
  split
  · exact .single (.warden _ s (.inr (.inl rfl)))
  · exact .refl

theorem dropInsertion_phase (s : State) : (dropInsertion s).phase = s.phase := by
  unfold dropInsertion; split <;> rfl

theorem execRingLock_moves (hc : byZones c = false) (s t : State) (h : execRingLock s = .next t) : Moves c s t := by
  obtain ⟨hp, ht⟩ | ⟨-, ht⟩ := whenever_cases h 
  · rw [ht]
    have hp : s.phase = .running := by
      simp only [State.running, Bool.and_eq_true, beq_iff_eq] at hp
      exact hp.1.1
    split
    · exact (dropInsertion_moves s).trans (enterLocked_moves hc _ ((dropInsertion_phase s).trans hp))
    · exact enterLocked_moves hc s hp
  · rw [ht]

theorem execIsolatedRelock_moves (hc : byZones c = false) (s t : State) (h : execIsolatedRelock s = .next t) :
    Moves c s t := by
  obtain ⟨hp, ht⟩ | ⟨-, ht⟩ := whenever_cases h 
  · rw [ht]
    have hp : s.phase = .running := by
      simp only [State.running, Bool.and_eq_true, beq_iff_eq] at hp
      exact hp.1.1
    have h2 : Move c (dropInsertion s) (endIsolation (dropInsertion s)) := .aside rfl
    have h3 := enterLocked_moves (c := c) hc
      (report (.isolationLeft (s.now - s.rif.since)) (endIsolation (dropInsertion s)))
      ((report_phase _ _).trans ((dropInsertion_phase s).trans hp))
    exact (dropInsertion_moves s).trans ((Moves.one h2).trans ((Moves.one (.report _ _)).trans h3))
  · rw [ht]

theorem execRingIsolation_moves (hc : byZones c = false) (s t : State) (h : execRingIsolation s = .next t) : Moves c s t := by
  obtain ⟨hp, ht⟩ | ⟨-, ht⟩ := whenever_cases h 
  · rw [ht]
    simp only [State.running, Bool.and_eq_true, beq_iff_eq] at hp
    obtain ⟨⟨⟨hp, hr⟩, -⟩, -⟩ := hp
    have h1 : Move c s (setRif (fun r => { r with run := 0, runStart := none }) s) :=
      .rif _ s ⟨rfl, id, id, fun _ hq => hq⟩
    have h2 : Move c (setRif (fun r => { r with run := 0, runStart := none }) s)
        { setRif (fun r => { r with run := 0, runStart := none }) s with
          isoTimer := isolationTimer s.work.node.isoDelay } := .aside rfl
    have h3 : ∀ u : State, u.phase = .running → u.rif.ring = .lost →
        Moves c u (enterRing .isolated (report .isolationEntered u)) := fun u hu hl =>
      (Moves.one (.report _ u)).trans (.single (.ringEntered (hc := hc) .isolated _ ((report_phase _ u).trans hu)
        (.inr (by rw [report_rif, hl]; decide))))
    exact (Moves.one h1).trans ((Moves.one h2).trans (h3 _ hp hr))
  · rw [ht]

/-! ## Playout -/

/-! ## Zone sets -/

theorem onZones_eq (e : Entry) (zs : ZoneSet) (f : Zone → State → State) (s : State) :
    onZones e zs f s = reply e (if trimCount s e.req.cls zs = 0 then .done else .doneTrimmed)
      (if trimCount s e.req.cls zs = 0 then .none else .trimmed (trimCount s e.req.cls zs))
      ((keptZones s e.req.cls zs).foldl (fun t z => f z t) s) := by
  unfold onZones replyTrimmed replyDone
  split <;> rfl

/-- A command on a zone set, each zone settled by an offer, a removal or nothing. -/
theorem onZones_moves (e : Entry) (zs : ZoneSet) (f : Zone → State → State) (u : State)
    (hu : u.reserved = 1) (hl : Live u)
    (hf : ∀ t z, f z t = t ∨ (∃ x, f z t = offer z x t) ∨ ∃ p, f z t = removal z p t) :
    Moves c u { onZones e zs f u with reserved := 0 } := by
  rw [onZones_eq]
  have hm := (offers_moves (c := c) (fun t z => f z t) (keptZones u e.req.cls zs) hf u hl).1
  have hz : OnlyZones u ((keptZones u e.req.cls zs).foldl (fun t z => f z t) u) :=
    .foldl _ (fun t z => by
      obtain h | ⟨x, h⟩ | ⟨p, h⟩ := hf t z <;> rw [h]
      · exact .refl t
      · exact offer_onlyZones z x t
      · exact removal_onlyZones z p t) _ u
  refine reply_moves e _ _ hm ?_
  rw [hz.reserved, hu]
  split <;> exact Nat.le_of_eq rfl

end

end Sys2Proof.Machine

namespace Sys2Proof.Machine

section
variable {c : Instr}

/-! ## Every command -/

theorem inputsAside (v : Vector Debounce 8) (s : State) : Move c s { s with inputs := v } := .aside rfl

theorem commandClaim_zone (x : Claim) (y : Bool) (z : Zone) (t : State) :
    zoneSetAt x y z t = t ∨ (∃ x', zoneSetAt x y z t = offer z x' t) ∨
      ∃ p, zoneSetAt x y z t = removal z p t := by
  unfold zoneSetAt
  split
  · exact .inl rfl
  · exact .inr (.inl ⟨x, rfl⟩)

theorem endCapture_reserved (s : State) : (endCapture s).reserved = s.reserved := by
  unfold endCapture
  split
  · rfl
  · exact placeOrDefer_reserved _ _

theorem execCauseOn_moves {q : Request} {dz : Nat} {s t : State}
    (h : execCauseOn q dz s = .next t) : Moves c s t := by
  refine commandWith_moves h fun u hu hp _ _ => ?_
  have hr : u.reserved = 1 := by rw [hu]; rfl
  split
  · exact reply_moves _ _ _ .refl (by rw [hr]; exact Nat.le_refl 1)
  · refine reply_moves _ _ _ (causeOn_moves dz q.cls q.origin none u (by rw [hu]; exact hp)) ?_
    rw [(causeOn_onlyCauses dz q.cls q.origin none u).reserved, hr]
    split <;> exact Nat.le_refl 1

/-- A command refused above detection zone 511 and otherwise settled by causes and zones. -/
theorem dzCommand_moves {s t : State} {e : Entry} {dz : Nat} {f : State → State}
    (h : command e oneReply (fun s => if 511 < dz then reply e .badArgument .none s
      else replyDone e (f s)) s = .next t)
    (hf : ∀ u, u.phase = .running → Moves c u (f u)) (ho : ∀ u, OnlyCauses u (f u)) : Moves c s t := by
  refine commandWith_moves h fun u hu hp _ _ => ?_
  have hr : u.reserved = 1 := by rw [hu]; rfl
  split
  · exact reply_moves _ _ _ .refl (by rw [hr]; exact Nat.le_refl 1)
  · exact reply_moves _ _ _ (hf u (by rw [hu]; exact hp)) (by rw [(ho u).reserved, hr]; exact Nat.le_refl 1)

/-- A command answered DONE behind an effect that leaves the places held for its reply. -/
theorem doneCommand_moves {s t : State} {e : Entry} {f : State → State}
    (h : command e oneReply (fun s => replyDone e (f s)) s = .next t)
    (hf : ∀ u, u.phase = .running → Moves c u (f u) ∧ (f u).reserved = u.reserved) : Moves c s t := by
  refine commandWith_moves h fun u hu hp _ _ => ?_
  obtain ⟨hm, hr⟩ := hf u (by rw [hu]; exact hp)
  exact reply_moves _ _ _ hm (by rw [hr, hu]; exact Nat.le_refl 1)

/-- A command on a zone set. -/
theorem zonesCommand_moves {s t : State} {e : Entry} {zs : ZoneSet} {f : State → Zone → State → State}
    (h : command e oneReply (fun s => onZones e zs (f s) s) s = .next t)
    (hf : ∀ u t z, f u z t = t ∨ (∃ x, f u z t = offer z x t) ∨ ∃ p, f u z t = removal z p t) :
    Moves c s t :=
  commandWith_moves h fun u hu hp _ _ =>
    onZones_moves e zs _ u (by rw [hu]; rfl) (live_of_running (by rw [hu]; exact hp)) (hf u)

/-- A read: its data, or BAD ARGUMENT, and nothing else. -/
theorem readCommand_moves {s t : State} {e : Entry} {d : State → Option ReplyData}
    (h : command e (fun s => dataNeed (d s)) (fun s => replyRead e (d s) s) s = .next t)
    (hd : ∀ u, u = { s with cmdQueue := s.cmdQueue.tail, reserved := dataNeed (d s) } → d u = d s) :
    Moves c s t := by
  refine commandWith_moves h fun u hu _ _ _ => ?_
  have hr : u.reserved = dataNeed (d s) := by rw [hu]
  unfold replyRead
  rw [hd u hu]
  cases hx : d s with
  | none => exact reply_moves _ _ _ .refl (by rw [hr, hx]; exact Nat.le_refl 1)
  | some x => exact reply_moves _ _ _ .refl (by rw [hr, hx]; exact Nat.le_refl _)

theorem execCapture_moves (hc : byZones c = false) {q : Request} {p n ms : Nat} {s t : State}
    (h : execCapture q p n ms s = .next t) : Moves c s t := by
  refine commandWith_moves h fun u hu _ hr hd => ?_
  have hu1 : u.reserved = 1 := by rw [hu]; rfl
  split
  next r hrr =>
    refine reply_moves _ _ _ .refl ?_
    rw [hu1]
    exact Nat.le_refl 1
  next hno =>
    have hdef : u.deferred = [] := by
      rw [hu]
      have : 1 ≤ s.room := hr
      exact hd.resolve_left (by omega)
    have h2 : Move c (beginCapture q p n ms u)
        { beginCapture q p n ms u with reserved := 0 } := by
      have := Move.replied (c := c) [] (beginCapture q p n ms u) (Nat.zero_le _)
      simpa using this
    exact (Moves.one (.captureBegun (hc := hc) q p n ms u hno hdef)).trans (.single h2)

theorem released_move (s : State) : Move c s { s with reserved := 0 } := by
  have := Move.replied (c := c) [] s (Nat.zero_le _)
  simpa using this

theorem execCommit_moves {q : Request} {s t : State} (h : execCommit q s = .next t) :
    Moves c s t := by
  refine commandWith_moves h fun u hu _ hr hd => ?_
  have hu1 : u.reserved = 1 := by rw [hu]; rfl
  have one : partsOf .none ≤ u.reserved := by rw [hu1]; exact Nat.le_refl 1
  split
  · exact reply_moves _ _ _ .refl one
  next hno =>
  split
  · exact reply_moves _ _ _ .refl one
  next k hk =>
    have hdef : u.deferred = [] := by
      rw [hu]
      have : 1 ≤ s.room := hr
      exact hd.resolve_left (by omega)
    have hk12 : k < 12 := List.mem_range.1 (List.mem_of_find?_eq_some hk)
    exact (Moves.one (.commitBegun q k u hk12 (by simpa using hno) hdef)).trans
      (.single (released_move _))

theorem writeOutcome_ok {s : State} {table i : Nat} {x x' : Contents}
    (h : writeOutcome s table i x = .ok x') :
    i < tableSize table ∧ s.commit = none ∧ captureHolds s table i = false ∧
      checkContents s.work i x = some x' := by
  unfold writeOutcome at h
  split at h
  · cases h
  split at h
  · cases h
  split at h
  · cases h
  next h1 h2 h3 =>
    split at h
    · cases h
    next y hy =>
      cases h
      exact ⟨by omega, by simpa using h2, by simpa using h3, hy⟩

theorem arbiter_reserved (s : State) : (arbiter s).reserved = s.reserved :=
  (arbiter_onlyZones s).reserved

theorem evalOutputLost_reserved (z : Zone) (s : State) :
    (evalOutputLost z s).reserved = s.reserved := by
  unfold evalOutputLost
  dsimp only
  split
  · exact report_reserved _ _
  · rfl

theorem spkWritten_reserved (z : Zone) (a b : SpkZone) (s : State) :
    (spkWritten z a b s).reserved = s.reserved := by
  unfold spkWritten
  split
  · unfold zoneLeaves
    exact (updateLock_onlyZones _).reserved.trans ((arbiter_reserved _).trans
      (listenerChange_onlyZones _ _ _).reserved)
  · rfl
  · have h1 : (trimChange z a b s).reserved = s.reserved := by unfold trimChange; split <;> rfl
    have h2 : ∀ u, (lineCfgChange z a b u).reserved = u.reserved := by
      intro u
      unfold lineCfgChange
      split
      · rfl
      · exact evalOutputLost_reserved _ _
    have h3 : ∀ u, (eligibleChange a b u).reserved = u.reserved := by
      intro u
      unfold eligibleChange
      split
      · rfl
      · exact arbiter_reserved _
    rw [h3, h2, h1]
  · rfl

theorem startChan_reserved (n : Fin 4) (s : State) : (startChan n s).reserved = s.reserved :=
  (startChan_onlyZones n s).reserved

theorem progWritten_onlyZones (n : Fin 4) (e : Program) (s : State) :
    OnlyZones s (progWritten n e s) := by
  unfold progWritten
  dsimp only
  split
  · exact stopChan_onlyZones _ _ _
  split
  · split
    · exact startChan_onlyZones _ _
    · exact stopChan_onlyZones _ _ _
  · split
    · exact startChan_onlyZones _ _
    · exact stopChan_onlyZones _ _ _
  · split
    · exact startChan_onlyZones _ _
    · split <;> exact stopChan_onlyZones _ _ _
  · exact .refl s

theorem phraseWritten_onlyZones (p : Nat) (s : State) : OnlyZones s (phraseWritten p s) :=
  .foldl _ (fun t n => by
    split
    · exact stepEnds_onlyZones n t
    · exact .refl t) _ s

theorem origWritten_onlyZones (k : Class) (a b : OrigEntry) (s : State) :
    OnlyZones s (origWritten k a b s) := .foldl _ (fun t z => removal_onlyZones z _ t) _ s

theorem wardenWritten_onlyWarden (a b : WardenSettings) (s : State) :
    OnlyWarden s (wardenWritten a b s) := by
  unfold wardenWritten
  split
  · split
    · exact endPress_onlyWarden s
    · refine OnlyWarden.trans (t := maxTalkChange a b s) ?_ ?_
      · unfold maxTalkChange
        split
        · split
          · exact forceRelease_onlyWarden s
          · exact .refl s
        · exact .refl s
      · unfold announceChange
        split
        · exact slotRelease_onlyWarden _
        · exact .refl _
  · exact .refl s

theorem atIndex_reserved {n : Nat} (i : Nat) (f : Fin n → State → State)
    (h : ∀ k s, (f k s).reserved = s.reserved) (s : State) : (atIndex i f s).reserved = s.reserved := by
  unfold atIndex
  split
  · exact h _ s
  · rfl

theorem writeTaken_reserved (table i : Nat) (x : Contents) (s : State) :
    (writeTaken table i x s).reserved = s.reserved := by
  unfold writeTaken
  split
  · rfl
  cases x with
  | node e => rfl
  | detZone e => rfl
  | template e => rfl
  | spkZone e =>
    show (atIndex i (fun z => spkWritten z s.work.spk[z] e) _).reserved = _
    exact atIndex_reserved i _ (fun z u => spkWritten_reserved z _ e u) _
  | localIn e =>
    show (atIndex i (fun n => inputWritten n e) _).reserved = _
    exact atIndex_reserved i _ (fun n u => by unfold inputWritten; dsimp only; split <;> rfl) _
  | ceEntry e => rfl
  | originator e =>
    show (atIndex i (fun k => origWritten k s.work.orig[k] e) _).reserved = _
    exact atIndex_reserved i _ (fun n u => (origWritten_onlyZones n _ e u).reserved) _
  | cadence e =>
    exact atIndex_reserved i (fun n => cadWritten n e) (fun n u => rfl) _
  | phrase e => exact (phraseWritten_onlyZones i _).reserved
  | program e =>
    show (atIndex i (fun n => progWritten n e) _).reserved = _
    exact atIndex_reserved i _ (fun n u => (progWritten_onlyZones n e u).reserved) _
  | limits e =>
    exact atIndex_reserved i limitsWritten (fun n u => rfl) _
  | window ms => rfl
  | warden e => exact (wardenWritten_onlyWarden _ _ _).reserved

/-- A write of a phrase is a write of table 8, where the index names an entry. -/
theorem contentsFit_phrase {table i : Nat} {e : Phrase} (h : contentsFit table i (.phrase e) = true) :
    table = 8 := by simpa [contentsFit] using h

theorem execTableWrite_moves {q : Request} {table i : Nat} {x : Contents} {s t : State}
    (hph : ∀ e, x = .phrase e → byZones c = false) (hpr : ∀ e, x = .program e → byZones c = false)
    (h : execTableWrite q table i x s = .next t) : Moves c s t := by
  by_cases hfit : contentsFit table i x = true ∨ tableSize table ≤ i
  · refine commandWith_moves h fun u hu hp _ _ => ?_
    have hu1 : u.reserved = 1 := by rw [hu]; rfl
    have hp' : u.phase = .running := by rw [hu]; exact hp
    split
    · exact reply_moves _ _ _ .refl (by rw [hu1]; exact Nat.le_refl 1)
    next x' hx =>
      obtain ⟨hi, -, hcap, hck⟩ := writeOutcome_ok hx
      refine reply_moves _ _ _ (writeTaken_moves table i x x' u hp' hck hph hpr ?_) ?_
      · intro e he y hy hyi
        subst he
        obtain ⟨e0, rfl⟩ := tableWrite_phrase_table hck
        obtain rfl := contentsFit_phrase (hfit.resolve_right (by omega))
        exact captureHolds_phrase hcap y hy hyi
      · rw [writeTaken_reserved, hu1]
        exact Nat.le_refl 1
  · obtain rfl | ⟨r, -, -, hm, rfl⟩ | ⟨hr, -, -, -⟩ := commandWith_cases h
    · exact .refl
    · obtain ⟨-, hr, -⟩ := mayBegin_facts hm
      refine (Moves.one (.taken 1 s hr)).trans (.single ?_)
      exact .replied (replyMsgs q .tableWrite r .none)
        { s with cmdQueue := s.cmdQueue.tail, reserved := 1 }
        (by rw [replyMsgs_one _ _ _ rfl]; exact Nat.le_refl 1)
    · exfalso
      have hb : bodyFits ⟨q, .tableWrite table i x⟩ = false := by
        push Not at hfit
        simp [bodyFits, hfit.1, hfit.2]
      simp only [refusalOf, hb] at hr
      repeat' split at hr
      all_goals simp_all

theorem execSlotClearAll_moves {q : Request} {s t : State} (h : execSlotClearAll q s = .next t) :
    Moves c s t := by
  refine commandWith_moves h fun u hu _ hr _ => ?_
  have hu1 : u.reserved = 1 := by rw [hu]; rfl
  split
  next hm =>
    have hroom : 0 < u.room := by
      have hx : slotClearExtra s = 1 := by
        have : s.rif.master = true := by rw [hu] at hm; exact hm
        simp [slotClearExtra, this]
      rw [hx] at hr
      simp only [State.room, oneReply] at hr
      rw [hu]
      simp only [State.room, oneReply]
      omega
    have h1 : Move c u (setSlots clearAllSlots u) := slotsAside _ u
    have hlen : ∀ v : State, v.reserved = u.reserved →
        partsOf .none ≤ v.reserved := fun v hv => by rw [hv, hu1]; exact Nat.le_refl 1
    unfold slotClearAll
    dsimp only
    split
    · have h2 : ∀ v : State, 0 < v.room → Moves c v (placeNotice v) := fun v hv =>
        (Moves.one (.place _ v hv)).trans (.single (slotsAside _ _))
      exact reply_moves _ _ _ ((Moves.one h1).trans (h2 _ hroom)) (hlen _ rfl)
    · exact reply_moves _ _ _ (.single h1) (hlen _ rfl)
  · exact reply_moves _ _ _ .refl (by rw [hu1]; exact Nat.le_refl 1)

theorem execStatusRead_moves {q : Request} {s t : State} (h : execStatusRead q s = .next t) :
    Moves c s t := by
  refine commandWith_moves h fun u hu _ _ _ => ?_
  have hr : u.reserved = partsOf (.status (statusRecord u)) := by rw [hu]; rfl
  have h1 : Moves c u { reply ⟨q, .statusRead⟩ .done (.status (statusRecord u)) u with reserved := 0 } :=
    reply_moves _ _ _ .refl (Nat.le_of_eq hr.symm)
  exact h1.trans (.single (.aside rfl))

end

theorem whenever_moves {c : Instr} {p : Bool} {f : State → State} {s t : State}
    (h : whenever p f s = .next t) (hf : p = true → Moves c s (f s)) : Moves c s t := by
  obtain ⟨hp, ht⟩ | ⟨-, ht⟩ := whenever_cases h
  · rw [ht]; exact hf hp
  · rw [ht]

/-- Every command of the table comes about by moves. -/
theorem exec_moves {c : Instr} {s t : State} (h : exec c s = .next t) : Moves c s t := by
  have run : ∀ {b : Bool}, (s.running && b) = true → s.phase = .running := by
    intro b hb
    simp only [State.running, Bool.and_eq_true, beq_iff_eq] at hb
    exact hb.1
  cases c with
  | coldStart b => exact .single (.cold b s t rfl h)
  | startUpLoadComplete =>
    unfold exec execStartUpLoadComplete at h
    refine whenever_moves h fun hp => ?_
    have hp : s.phase = .loading := by simpa using hp
    obtain ⟨v, hv⟩ := startInputs_move (enterRing .seeking (load s))
    have h1 : Moves .startUpLoadComplete s (startInputs (enterRing .seeking (load s))) := by
      rw [hv]
      exact (Moves.one (.loaded (hc := rfl) s hp)).trans (.single (inputsAside v _))
    have h2 : ∀ (b : ReportBody) (u : State), Moves .startUpLoadComplete u
        (report b (windowRestart (observeKey u))) := fun b u =>
      (observeKey_moves u).trans ((windowRestart_moves _).trans (.single (.report b _)))
    exact h1.trans (h2 _ _)
  | timebaseMillisecond o =>
    unfold exec execTimebaseMillisecond at h
    refine whenever_moves h fun _ => ?_
    cases o with
    | frame =>
      have h1 : Move (.timebaseMillisecond .frame) (expireDue s) { expireDue s with msDue := false } :=
        .aside rfl
      exact (expireDue_moves s).trans ((Moves.one h1).trans (.single (.ticked .frame _ rfl)))
    | oscillator => exact (expireDue_moves s).trans (.single (.ticked .oscillator _ rfl))
  | ringFrameReceived f gap mic =>
    unfold exec execRingFrameReceived at h
    refine whenever_moves h fun _ => ?_
    split
    · exact .single (.rif _ s (ringOut_kept _ _))
    · exact takeFrame_moves rfl f gap mic s
  | masterFrameOriginate mic =>
    unfold exec execMasterFrameOriginate at h
    refine whenever_moves h fun _ => ?_
    have h1 : Move (.masterFrameOriginate mic) s (setRif (fun r =>
        { r with ringOut := some (originated s mic), carry := none, count := r.count + 1#4 }) s) :=
      .rif _ s ⟨rfl, id, id, fun _ hq => hq⟩
    exact (Moves.one h1).trans (advanceTx_moves _)
  | ringMessageComplete m => exact execRingMessageComplete_moves m s t h
  | forwardHoldSend => exact execForwardHoldSend_moves s t h
  | insertionBegin => exact execInsertionBegin_moves s t h
  | returnRecordExpiry => exact execReturnRecordExpiry_moves s t h
  | ringLock => exact execRingLock_moves rfl s t h
  | isolatedRelock => exact execIsolatedRelock_moves rfl s t h
  | ringLoss =>
    unfold exec execRingLoss at h
    refine whenever_moves h fun hp => ?_
    rw [Bool.and_assoc] at hp
    exact .single (.ringLost (hc := rfl) s (run hp))
  | ringIsolation => exact execRingIsolation_moves rfl s t h
  | isolationEscalation =>
    unfold exec execIsolationEscalation at h
    refine whenever_moves h fun hp => ?_
    rw [Bool.and_assoc] at hp
    have h1 : Move .isolationEscalation s { s with isoTimer := none, isoEscalated := true } := .aside rfl
    exact (Moves.one h1).trans (expireEverything_moves _ (live_of_running (run hp)))
  | slotsClearedNotice =>
    unfold exec execSlotsClearedNotice at h
    refine whenever_moves h fun hp => ?_
    have hr : 0 < s.room := by
      simp only [Bool.and_eq_true, decide_eq_true_eq] at hp
      exact hp.1.2
    exact (Moves.one (.place _ s hr)).trans (.single (slotsAside _ _))
  | staleReclaim label =>
    unfold exec execStaleReclaim at h
    exact whenever_moves h fun _ => .single (slotsAside _ s)
  | deferredReplyPlace =>
    unfold exec execDeferredReplyPlace at h
    refine whenever_moves h fun hp => ?_
    have hr : 0 < s.room := by
      simp only [Bool.and_eq_true, decide_eq_true_eq] at hp
      exact hp.2
    split
    · exact .refl
    next m rest hm => exact .single (.deferredPlaced m rest s hm hr)
  | causeOn q dz => exact execCauseOn_moves h
  | causeOff q dz =>
    exact dzCommand_moves h (fun u _ => causeOff_moves dz u) (causeOff_onlyCauses dz)
  | causeReset q dz =>
    refine dzCommand_moves h (fun u _ => ?_) (fun u => ?_) <;> unfold causeReset <;> split
    · exact removeRecord_moves dz u
    · exact .refl
    · exact removeRecord_onlyCauses dz u
    · exact .refl u
  | causeResetAll q =>
    exact doneCommand_moves h fun u _ => ⟨causeResetAll_moves u, (causeResetAll_onlyCauses u).reserved⟩
  | localInputEdge n high =>
    cases h
    split <;> exact Moves.one (.aside rfl)
  | localInputTaken n =>
    unfold exec execLocalInputTaken at h
    refine whenever_moves h fun hp => ?_
    have h1 : ∀ a, Move (.localInputTaken n) s
        { s with inputs := s.inputs.set n { active := a, due := none } } := fun a => .aside rfl
    dsimp only
    split
    · exact (Moves.one (h1 _)).trans (causeOn_moves _ _ _ _ _ (run hp))
    · exact (Moves.one (h1 _)).trans (causeOff_moves _ _)
  | stageTimerExpiry dz i =>
    unfold exec execStageTimerExpiry at h
    exact whenever_moves h fun hp => (expire_moves dz i s (live_of_running (run hp))).1
  | escalateNow q dz =>
    exact dzCommand_moves h (fun u hp => (expireRecord_moves dz u (live_of_running hp)).1)
      (expireRecord_onlyCauses dz)
  | escalateNowAll q =>
    exact doneCommand_moves h fun u hp =>
      ⟨expireEverything_moves u (live_of_running hp), (expireEverything_onlyCauses u).reserved⟩
  | holdStages q =>
    exact doneCommand_moves h fun u _ => ⟨(keepTimers_moves u).trans (.single (.aside rfl)), rfl⟩
  | releaseStages q => exact doneCommand_moves h fun u _ => ⟨.single (.aside rfl), rfl⟩
  | zoneSet q zs y =>
    refine commandWith_moves h fun u hu hp _ _ => ?_
    have hu1 : u.reserved = 1 := by rw [hu]; rfl
    split
    · exact reply_moves _ _ _ .refl (by rw [hu1]; exact Nat.le_refl 1)
    · exact onZones_moves _ zs _ u hu1 (live_of_running (by rw [hu]; exact hp))
        (fun t z => commandClaim_zone _ y z t)
  | zoneClear q zs => exact zonesCommand_moves h fun _ t z => .inr (.inr ⟨_, rfl⟩)
  | silence q zs => exact zonesCommand_moves h fun u t z => .inr (.inl ⟨_, rfl⟩)
  | resound q zs => exact zonesCommand_moves h fun _ t z => .inr (.inr ⟨_, rfl⟩)
  | cadencePhaseEnd n =>
    unfold exec execCadencePhaseEnd at h
    refine whenever_moves h fun hp => ?_
    simp only [Bool.and_eq_true] at hp
    exact .single (.cadenceMoved (hc := rfl) n s hp.1.2)
  | playoutStepEnd n =>
    unfold exec execPlayoutStepEnd at h
    refine whenever_moves h fun hp => stepEnds_moves rfl n s (live_of_running (run hp)) ?_
    simp only [stepOver, Bool.and_eq_true, beq_iff_eq] at hp
    exact hp.2.1
  | playStart q ch =>
    refine commandWith_moves h fun u hu hp _ _ => ?_
    have hu1 : u.reserved = 1 := by rw [hu]; rfl
    split
    next hch =>
      refine reply_moves _ _ _ (playStart_moves rfl ⟨ch, hch⟩ u (live_of_running (by rw [hu]; exact hp))) ?_
      have : (playStart ⟨ch, hch⟩ u).reserved = u.reserved := by
        unfold playStart
        dsimp only
        repeat' split
        all_goals first | rfl | exact startChan_reserved _ _
      rw [this, hu1]
      exact Nat.le_refl 1
    · exact reply_moves _ _ _ .refl (by rw [hu1]; exact Nat.le_refl 1)
  | playStop q ch =>
    refine commandWith_moves h fun u hu hp _ _ => ?_
    have hu1 : u.reserved = 1 := by rw [hu]; rfl
    split
    next hch =>
      refine reply_moves _ _ _ (playStop_moves rfl ⟨ch, hch⟩ u) ?_
      have : (playStop ⟨ch, hch⟩ u).reserved = u.reserved := by
        unfold playStop
        dsimp only
        repeat' split
        all_goals rfl
      rw [this, hu1]
      exact Nat.le_refl 1
    · exact reply_moves _ _ _ .refl (by rw [hu1]; exact Nat.le_refl 1)
  | capture q p n ms => exact execCapture_moves rfl h
  | captureLimit =>
    unfold exec execCaptureLimit at h
    exact whenever_moves h fun _ => .single (.captureEnded (hc := rfl) s)
  | captureStop q =>
    refine commandWith_moves h fun u hu _ _ _ => ?_
    refine reply_moves _ _ _ (.single (.captureEnded (hc := rfl) u)) ?_
    rw [endCapture_reserved, hu]
    exact Nat.le_refl 1
  | keyEdge closed =>
    cases h
    have h1 : Moves (.keyEdge closed) s { s with pins := { s.pins with keyClosed := closed } } :=
      .single (.aside rfl)
    split
    · split
      · exact h1.trans (.single (setWarden_move _ _ rfl))
      · exact h1.trans (observeKey_moves _)
    · exact h1
  | keyPress =>
    unfold exec execKeyPress at h
    refine whenever_moves h fun hp => ?_
    rw [Bool.and_assoc] at hp
    exact pressTaken_moves s (live_of_running (run hp))
  | keyRelease =>
    unfold exec execKeyRelease at h
    exact whenever_moves h fun _ => releaseTaken_moves s
  | forcedRelease =>
    unfold exec execForcedRelease at h
    exact whenever_moves h fun _ => forceRelease_moves s
  | slotAnswerDeadline =>
    unfold exec execSlotAnswerDeadline at h
    refine whenever_moves h fun _ => ?_
    split
    · exact (Moves.one (.warden _ s (.inr (.inl rfl)))).trans (.single (.report _ _))
    · exact .single (.warden _ s (.inr (.inl rfl)))
  | wardenFreshTake =>
    unfold exec execWardenFreshTake at h
    refine whenever_moves h fun hp => ?_
    have h1 : Moves .wardenFreshTake s (setWarden (fun w => { w with fresh := none }) s) :=
      .single (setWarden_move _ s rfl)
    dsimp only
    split
    · exact h1.trans (freshPress_moves _ (live_of_running (run hp)))
    · exact h1.trans ((endPress_moves _).trans (observeKey_moves _))
  | pilotPulse z l =>
    unfold exec execPilotPulse at h
    exact whenever_moves h fun _ => .single (.aside rfl)
  | healthInputChange x a =>
    cases h
    exact .single (healthInput_move x a s)
  | windowEnd =>
    unfold exec execWindowEnd at h
    exact whenever_moves h fun _ => (Moves.one (.windowJudged s)).trans (.single (.aside rfl))
  | clearFaults q => exact doneCommand_moves h fun u _ => ⟨clearFaults_moves u, rfl⟩
  | tableWrite q table i x =>
    exact execTableWrite_moves (fun e he => by rw [he]; rfl) (fun e he => by rw [he]; rfl) h
  | commit q => exact execCommit_moves h
  | commitStepEnd =>
    unfold exec execCommitStepEnd at h
    refine whenever_moves h fun _ => ?_
    split
    next x hx => exact .single (.tableDone x s hx)
    · exact .refl
  | restart q =>
    refine commandWith_moves h fun u _ _ _ _ => ?_
    have h1 : Move (.restart q) u { u with restart := some u.commit.isSome } := .aside rfl
    exact (Moves.one h1).trans (.single (released_move _))
  | restartEffect =>
    unfold exec execRestartEffect at h
    refine whenever_moves h fun hp => ?_
    simp only [State.running, Bool.and_eq_true, beq_iff_eq, Option.isNone_iff_eq_none] at hp
    exact .single (.restarted _ s rfl hp.1.1 hp.2)
  | slotClearAll q => exact execSlotClearAll_moves h
  | statusRead q => exact execStatusRead_moves h
  | zoneRead q z =>
    exact readCommand_moves (d := fun s => zoneData s z) h fun u hu => by rw [hu]; rfl
  | causeRead q i =>
    exact readCommand_moves (d := fun s => causeData s i) h fun u hu => by rw [hu]; rfl
  | tableRead q table i =>
    exact readCommand_moves (d := fun s => tableData s table i) h fun u hu => by rw [hu]; rfl
  | powerLoss =>
    cases h
    exact .single (.powerLost s)
  | unknownCommandCode q n =>
    unfold exec execUnknownCommandCode command at h
    exact commandWith_moves h fun u _ _ _ _ => .single (released_move u)

/-- A property that every move of every command keeps is kept by every step (log entries 1 and 2), where it
does not read the queue of the commands that wait. -/
theorem step_keeps {P : State → Prop} (hp : ∀ s l, P s → P { s with pending := l })
    (h : ∀ c s t, Move c s t → P s → P t) {s t : State} (hs : P s) (ht : Machine.step s = .next t) :
    P t := by
  have run : ∀ {c : Instr} {s t : State}, Moves c s t → P s → P t := by
    intro c s t hm hs
    induction hm with
    | refl => exact hs
    | tail _ hm ih => exact h _ _ _ hm ih
  unfold Machine.step at ht
  split at ht
  · cases ht
    exact hs
  next c rest _ => exact run (exec_moves ht) (hp s rest hs)

end Sys2Proof.Machine

namespace Sys2Proof.Machine

/-! ## What shared operations change -/

/-- From `s` to `t` only cadences, channels, PHRASE MISSING and the report queue differ. -/
def SoundsOnly (s t : State) : Prop := t = { s with
  cads := t.cads, chans := t.chans, phraseMissing := t.phraseMissing, reports := t.reports
  reportOverflow := t.reportOverflow }

/-- From `s` to `t` only the standby channels' zones and the report queue differ. -/
def PoolOnly (s t : State) : Prop := t = { s with
  serving := t.serving, reports := t.reports, reportOverflow := t.reportOverflow }

/-- From `s` to `t` only what a hand-over acts on differs: outputs, cadences, channels, standby channels,
PHRASE MISSING and the report queue. -/
def HandsOnly (s t : State) : Prop := t = { s with
  outs := t.outs, cads := t.cads, chans := t.chans, serving := t.serving
  phraseMissing := t.phraseMissing, reports := t.reports, reportOverflow := t.reportOverflow }

theorem SoundsOnly.refl (s : State) : SoundsOnly s s := rfl
theorem PoolOnly.refl (s : State) : PoolOnly s s := rfl
theorem HandsOnly.refl (s : State) : HandsOnly s s := rfl

theorem SoundsOnly.trans {s t u : State} (h : SoundsOnly s t) (g : SoundsOnly t u) : SoundsOnly s u := by
  unfold SoundsOnly at *
  rw [h] at g
  exact g

theorem PoolOnly.trans {s t u : State} (h : PoolOnly s t) (g : PoolOnly t u) : PoolOnly s u := by
  unfold PoolOnly at *
  rw [h] at g
  exact g

theorem HandsOnly.trans {s t u : State} (h : HandsOnly s t) (g : HandsOnly t u) : HandsOnly s u := by
  unfold HandsOnly at *
  rw [h] at g
  exact g

theorem HandsOnly.foldl {α : Type} (f : State → α → State) (h : ∀ s a, HandsOnly s (f s a))
    (l : List α) (s : State) : HandsOnly s (l.foldl f s) := by
  induction l generalizing s with
  | nil => exact .refl s
  | cons a l ih => exact (h s a).trans (ih _)

theorem SoundsOnly.hands {s t : State} (h : SoundsOnly s t) : HandsOnly s t := by
  unfold SoundsOnly at h
  unfold HandsOnly
  rw [h]

theorem PoolOnly.hands {s t : State} (h : PoolOnly s t) : HandsOnly s t := by
  unfold PoolOnly at h
  unfold HandsOnly
  rw [h]

section
variable {s t : State}

theorem SoundsOnly.outs (h : SoundsOnly s t) : t.outs = s.outs := by rw [h]
theorem SoundsOnly.serving (h : SoundsOnly s t) : t.serving = s.serving := by rw [h]
theorem PoolOnly.outs (h : PoolOnly s t) : t.outs = s.outs := by rw [h]
theorem PoolOnly.cads (h : PoolOnly s t) : t.cads = s.cads := by rw [h]
theorem PoolOnly.chans (h : PoolOnly s t) : t.chans = s.chans := by rw [h]
theorem HandsOnly.phase (h : HandsOnly s t) : t.phase = s.phase := by rw [h]
theorem HandsOnly.now (h : HandsOnly s t) : t.now = s.now := by rw [h]
theorem HandsOnly.work (h : HandsOnly s t) : t.work = s.work := by rw [h]
theorem HandsOnly.acts (h : HandsOnly s t) : t.acts = s.acts := by rw [h]
theorem HandsOnly.lists (h : HandsOnly s t) : t.lists = s.lists := by rw [h]
theorem HandsOnly.overflow (h : HandsOnly s t) : t.overflow = s.overflow := by rw [h]
theorem HandsOnly.defaultMode (h : HandsOnly s t) : t.defaultMode = s.defaultMode := by rw [h]
theorem HandsOnly.store (h : HandsOnly s t) : t.store = s.store := by rw [h]
theorem HandsOnly.capture (h : HandsOnly s t) : t.capture = s.capture := by rw [h]
theorem HandsOnly.warden (h : HandsOnly s t) : t.warden = s.warden := by rw [h]
theorem HandsOnly.lines (h : HandsOnly s t) : t.lines = s.lines := by rw [h]
theorem HandsOnly.amps (h : HandsOnly s t) : t.amps = s.amps := by rw [h]
theorem HandsOnly.standbyAmps (h : HandsOnly s t) : t.standbyAmps = s.standbyAmps := by rw [h]
theorem HandsOnly.rif (h : HandsOnly s t) : t.rif = s.rif := by rw [h]
theorem HandsOnly.cmdQueue (h : HandsOnly s t) : t.cmdQueue = s.cmdQueue := by rw [h]
theorem HandsOnly.deferred (h : HandsOnly s t) : t.deferred = s.deferred := by rw [h]
theorem HandsOnly.outbound (h : HandsOnly s t) : t.outbound = s.outbound := by rw [h]
theorem HandsOnly.reserved (h : HandsOnly s t) : t.reserved = s.reserved := by rw [h]
theorem HandsOnly.alarmLock (h : HandsOnly s t) : t.alarmLock = s.alarmLock := by rw [h]
theorem HandsOnly.commit (h : HandsOnly s t) : t.commit = s.commit := by rw [h]
theorem HandsOnly.nv (h : HandsOnly s t) : t.nv = s.nv := by rw [h]
theorem HandsOnly.nvOk (h : HandsOnly s t) : t.nvOk = s.nvOk := by rw [h]

end

theorem report_sounds (b : ReportBody) (s : State) : SoundsOnly s (report b s) := by
  unfold report; split <;> rfl

theorem report_pool (b : ReportBody) (s : State) : PoolOnly s (report b s) := by
  unfold report; split <;> rfl

theorem beginStep_sounds (n : Fin 4) (k : Nat) (s : State) : SoundsOnly s (beginStep n k s) := by
  have hm : ∀ p, SoundsOnly s (beginMissing n k p s) := fun p =>
    SoundsOnly.trans (t := setChan n _ { s with phraseMissing := true }) rfl (report_sounds _ _)
  unfold beginStep
  split
  · split
    · split
      · rfl
      · exact hm _
    · exact hm _
  · rfl
  · rfl

theorem startChan_sounds (n : Fin 4) (s : State) : SoundsOnly s (startChan n s) :=
  SoundsOnly.trans (t := setChan n (fun c => { c with owed := 0 }) s) rfl (beginStep_sounds n 0 _)

theorem stopChan_sounds (n : Fin 4) (st : ChanState) (s : State) : SoundsOnly s (stopChan n st s) := rfl

theorem chanCount_sounds (n : Fin 4) (k : Nat) (s : State) : SoundsOnly s (chanCount n k s) := by
  have h1 : SoundsOnly s (setChan n (fun c => { c with listeners := k }) s) := rfl
  unfold chanCount
  dsimp only
  split
  · split
    · split
      · exact h1
      · exact h1.trans (startChan_sounds n _)
    · split
      · exact h1.trans (startChan_sounds n _)
      · exact h1
    · exact h1
  · exact h1

theorem countSource_sounds (src : Source) (f : Nat → Nat) (s : State) :
    SoundsOnly s (countSource src f s) := by
  unfold countSource
  split
  · unfold countCad; split <;> rfl
  · unfold countChan
    split
    · exact chanCount_sounds _ _ s
    · rfl
  · rfl

theorem listenerChange_sounds (a b : Source) (s : State) : SoundsOnly s (listenerChange a b s) := by
  unfold listenerChange
  split
  · rfl
  · exact (countSource_sounds _ _ s).trans (countSource_sounds _ _ _)

theorem arbRelease_pool (k : Fin 2) (s : State) : PoolOnly s (arbRelease k s) := by
  unfold arbRelease
  split
  · split
    · rfl
    · exact PoolOnly.trans (t := setServing k none s) rfl (report_pool _ _)
  · rfl

theorem arbAssign_pool (n : Nat) (s : State) : PoolOnly s (arbAssign n s) := by
  induction n generalizing s with
  | zero => rfl
  | succ n ih =>
    unfold arbAssign
    split
    · exact PoolOnly.trans (t := setServing _ _ s) rfl ((report_pool _ _).trans (ih _))
    · rfl

theorem arbPreempt_pool (n : Nat) (s : State) : PoolOnly s (arbPreempt n s) := by
  induction n generalizing s with
  | zero => rfl
  | succ n ih =>
    unfold arbPreempt
    split
    · split
      · exact PoolOnly.trans (t := setServing _ _ s) rfl ((report_pool _ _).trans (ih _))
      · rfl
    · rfl

theorem arbiter_pool (s : State) : PoolOnly s (arbiter s) :=
  (arbRelease_pool 0 s).trans ((arbRelease_pool 1 _).trans
    ((arbAssign_pool 2 _).trans (arbPreempt_pool 2 _)))

theorem handOver_hands (z : Zone) (s : State) : HandsOnly s (handOver z s) := by
  have h : ∀ a b o, HandsOnly s (listenerChange a b (setOut z o s)) := fun a b o =>
    HandsOnly.trans (t := setOut z o s) rfl (listenerChange_sounds a b _).hands
  unfold handOver
  dsimp only
  split
  · exact (h _ _ _).trans (arbiter_pool _).hands
  · exact h _ _ _

theorem ringToZone_hands (z : Zone) (s : State) : HandsOnly s (ringToZone z s) := by
  unfold ringToZone
  dsimp only
  split
  · exact HandsOnly.trans (t := setOut z _ s) rfl (listenerChange_sounds _ _ _).hands
  · exact .refl s

theorem ringToOutputs_hands (s : State) : HandsOnly s (ringToOutputs s) :=
  .foldl _ (fun t z => ringToZone_hands z t) allZones s

/-- An aborted capture leaves everything but its record and the queues of replies (R142). -/
theorem abortCapture_frame (s : State) : abortCapture s = { s with
    capture := (abortCapture s).capture, outbound := (abortCapture s).outbound
    deferred := (abortCapture s).deferred } := by
  unfold abortCapture placeOrDefer
  split
  · rfl
  · split <;> rfl

theorem abortCapture_capture (s : State) : (abortCapture s).capture = none := by
  unfold abortCapture
  split
  · assumption
  · exact placeOrDefer_capture _ _

theorem updateLock_frame (s : State) : updateLock s = { s with
    alarmLock := lockCondition s, capture := (updateLock s).capture
    outbound := (updateLock s).outbound, deferred := (updateLock s).deferred } := by
  unfold updateLock
  dsimp only
  split
  · rw [abortCapture_frame]
  · rfl

section
variable (s : State)
@[simp] theorem abortCapture_lists : (abortCapture s).lists = s.lists := by rw [abortCapture_frame]
@[simp] theorem abortCapture_acts : (abortCapture s).acts = s.acts := by rw [abortCapture_frame]
@[simp] theorem abortCapture_alarmLock : (abortCapture s).alarmLock = s.alarmLock := by
  rw [abortCapture_frame]
@[simp] theorem abortCapture_outs : (abortCapture s).outs = s.outs := by rw [abortCapture_frame]
@[simp] theorem abortCapture_cads : (abortCapture s).cads = s.cads := by rw [abortCapture_frame]
@[simp] theorem abortCapture_chans : (abortCapture s).chans = s.chans := by rw [abortCapture_frame]
@[simp] theorem abortCapture_work : (abortCapture s).work = s.work := by rw [abortCapture_frame]
@[simp] theorem abortCapture_rif : (abortCapture s).rif = s.rif := by rw [abortCapture_frame]
@[simp] theorem abortCapture_phase : (abortCapture s).phase = s.phase := by rw [abortCapture_frame]
@[simp] theorem abortCapture_now : (abortCapture s).now = s.now := by rw [abortCapture_frame]
@[simp] theorem abortCapture_reports : (abortCapture s).reports = s.reports := by
  rw [abortCapture_frame]
@[simp] theorem abortCapture_serving : (abortCapture s).serving = s.serving := by
  rw [abortCapture_frame]
@[simp] theorem abortCapture_amps : (abortCapture s).amps = s.amps := by rw [abortCapture_frame]
@[simp] theorem abortCapture_standbyAmps : (abortCapture s).standbyAmps = s.standbyAmps := by
  rw [abortCapture_frame]
@[simp] theorem abortCapture_warden : (abortCapture s).warden = s.warden := by rw [abortCapture_frame]
@[simp] theorem abortCapture_store : (abortCapture s).store = s.store := by rw [abortCapture_frame]
@[simp] theorem abortCapture_commit : (abortCapture s).commit = s.commit := by rw [abortCapture_frame]
@[simp] theorem abortCapture_nvOk : (abortCapture s).nvOk = s.nvOk := by rw [abortCapture_frame]
@[simp] theorem abortCapture_nv : (abortCapture s).nv = s.nv := by rw [abortCapture_frame]
@[simp] theorem abortCapture_cmdQueue : (abortCapture s).cmdQueue = s.cmdQueue := by
  rw [abortCapture_frame]
@[simp] theorem abortCapture_reserved : (abortCapture s).reserved = s.reserved := by
  rw [abortCapture_frame]
@[simp] theorem updateLock_lists : (updateLock s).lists = s.lists := by rw [updateLock_frame]
@[simp] theorem updateLock_acts : (updateLock s).acts = s.acts := by rw [updateLock_frame]
@[simp] theorem updateLock_alarmLock : (updateLock s).alarmLock = lockCondition s := by
  rw [updateLock_frame]
@[simp] theorem updateLock_outs : (updateLock s).outs = s.outs := by rw [updateLock_frame]
@[simp] theorem updateLock_cads : (updateLock s).cads = s.cads := by rw [updateLock_frame]
@[simp] theorem updateLock_chans : (updateLock s).chans = s.chans := by rw [updateLock_frame]
@[simp] theorem updateLock_work : (updateLock s).work = s.work := by rw [updateLock_frame]
@[simp] theorem updateLock_rif : (updateLock s).rif = s.rif := by rw [updateLock_frame]
@[simp] theorem updateLock_phase : (updateLock s).phase = s.phase := by rw [updateLock_frame]
@[simp] theorem updateLock_now : (updateLock s).now = s.now := by rw [updateLock_frame]
@[simp] theorem updateLock_reports : (updateLock s).reports = s.reports := by rw [updateLock_frame]
@[simp] theorem updateLock_serving : (updateLock s).serving = s.serving := by rw [updateLock_frame]
@[simp] theorem updateLock_amps : (updateLock s).amps = s.amps := by rw [updateLock_frame]
@[simp] theorem updateLock_standbyAmps : (updateLock s).standbyAmps = s.standbyAmps := by
  rw [updateLock_frame]
@[simp] theorem updateLock_overflow : (updateLock s).overflow = s.overflow := by rw [updateLock_frame]
@[simp] theorem updateLock_defaultMode : (updateLock s).defaultMode = s.defaultMode := by
  rw [updateLock_frame]
@[simp] theorem updateLock_warden : (updateLock s).warden = s.warden := by rw [updateLock_frame]
@[simp] theorem updateLock_store : (updateLock s).store = s.store := by rw [updateLock_frame]
@[simp] theorem updateLock_commit : (updateLock s).commit = s.commit := by rw [updateLock_frame]
@[simp] theorem updateLock_nvOk : (updateLock s).nvOk = s.nvOk := by rw [updateLock_frame]
@[simp] theorem updateLock_nv : (updateLock s).nv = s.nv := by rw [updateLock_frame]
end

/-- The lock follows its condition whatever has changed before (R199). -/
theorem updateLock_agrees (s : State) : LockAgrees (updateLock s) := by
  unfold LockAgrees lockCondition alarmCount
  simp only [updateLock_alarmLock, updateLock_acts, updateLock_lists]
  rfl

/-- What a capture's sample changes: the store and the count recorded (R140). -/
theorem captureSample_frame (h : Vector (Option Sample) 32) (s : State) : captureSample h s = { s with
    store := (captureSample h s).store, capture := (captureSample h s).capture } := by
  unfold captureSample
  split
  · rfl
  · split
    · rfl
    · split <;> rfl

/-- What the end of a capture changes: its phrase, its record and the queues of replies (R141). -/
theorem endCapture_frame (s : State) : endCapture s = { s with
    work := { s.work with phrases := (endCapture s).work.phrases }, capture := none
    outbound := (endCapture s).outbound, deferred := (endCapture s).deferred } := by
  unfold endCapture placeOrDefer
  split
  next h => rw [← h]
  · split <;> rfl

/-- What the end of a commit's step changes (R202). -/
theorem commitGoesOn_frame (x : Commit) (s : State) : commitGoesOn x (tableWritten x s) = { s with
    nv := (commitGoesOn x (tableWritten x s)).nv, nvOk := (commitGoesOn x (tableWritten x s)).nvOk
    invalid := (commitGoesOn x (tableWritten x s)).invalid
    commit := (commitGoesOn x (tableWritten x s)).commit
    outbound := (commitGoesOn x (tableWritten x s)).outbound
    deferred := (commitGoesOn x (tableWritten x s)).deferred } := by
  unfold commitGoesOn placeOrDefer
  split
  · rfl
  · split <;> rfl

theorem cutCommit_frame (s : State) : cutCommit s = { s with
    nv := (cutCommit s).nv, commit := none } := by
  unfold cutCommit
  split
  next h => rw [← h]
  · rfl

/-- From `s` to `t` only supervision's own records, the standby channels' zones and the report queue
differ. -/
def SupervisionOnly (s t : State) : Prop := t = { s with
  lines := t.lines, amps := t.amps, standbyAmps := t.standbyAmps, serving := t.serving
  reports := t.reports, reportOverflow := t.reportOverflow }

theorem SupervisionOnly.trans {s t u : State} (h : SupervisionOnly s t) (g : SupervisionOnly t u) :
    SupervisionOnly s u := by
  unfold SupervisionOnly at *
  rw [h] at g
  exact g

theorem SupervisionOnly.foldl {α : Type} (f : State → α → State)
    (h : ∀ s a, SupervisionOnly s (f s a)) (l : List α) (s : State) :
    SupervisionOnly s (l.foldl f s) := by
  induction l generalizing s with
  | nil => rfl
  | cons a l ih => exact (h s a).trans (ih _)

theorem PoolOnly.supervision {s t : State} (h : PoolOnly s t) : SupervisionOnly s t := by
  unfold PoolOnly at h
  unfold SupervisionOnly
  rw [h]

theorem reportOpt_pool (b : Option ReportBody) (s : State) : PoolOnly s (reportOpt b s) := by
  unfold reportOpt
  split
  · exact report_pool _ _
  · rfl

theorem evalOutputLost_supervision (z : Zone) (s : State) : SupervisionOnly s (evalOutputLost z s) := by
  have h1 : ∀ l, SupervisionOnly s { s with lines := l } := fun l => rfl
  unfold evalOutputLost
  dsimp only
  split
  · exact (h1 _).trans (report_pool _ _).supervision
  · exact h1 _

theorem windowZone_supervision (z : Zone) (s : State) : SupervisionOnly s (windowZone z s) := by
  have h1 : ∀ (u : State) l b, SupervisionOnly u (evalOutputLost z (reportOpt b { u with lines := l })) :=
    fun u l b => SupervisionOnly.trans (t := { u with lines := l }) rfl
      ((reportOpt_pool _ _).supervision.trans (evalOutputLost_supervision z _))
  have hb : ∀ u, SupervisionOnly u (windowLineB z u) := by
    intro u
    unfold windowLineB
    dsimp only
    split
    · rfl
    · exact h1 u _ _
  unfold windowZone
  split
  · exact SupervisionOnly.trans (h1 s _ _) (hb _)
  · rfl

theorem windowAmp_supervision (z : Zone) (s : State) : SupervisionOnly s (windowAmp z s) := by
  unfold windowAmp
  split
  · exact SupervisionOnly.trans (t := { s with amps := s.amps.set z (healthWindow s.amps[z]) }) rfl
      (reportOpt_pool _ _).supervision
  · rfl

theorem windowStandby_supervision (k : Fin 2) (s : State) : SupervisionOnly s (windowStandby k s) := by
  have h1 : SupervisionOnly s (reportOpt (healthReport (.standby k) s.standbyAmps[k].failed
      (healthWindow s.standbyAmps[k]).failed)
      { s with standbyAmps := s.standbyAmps.set k (healthWindow s.standbyAmps[k]) }) :=
    SupervisionOnly.trans
      (t := { s with standbyAmps := s.standbyAmps.set k (healthWindow s.standbyAmps[k]) }) rfl
      (reportOpt_pool _ _).supervision
  unfold windowStandby
  dsimp only
  split
  · split
    · exact h1.trans (PoolOnly.supervision (PoolOnly.trans (t := setServing k none _) rfl
        (report_pool _ _)))
    · exact h1
  · exact h1

theorem windowVerdicts_supervision (s : State) : SupervisionOnly s (windowVerdicts s) := by
  have h3 := ((SupervisionOnly.foldl _ (fun t z => windowZone_supervision z t) allZones s).trans
    ((SupervisionOnly.foldl _ (fun t z => windowAmp_supervision z t) allZones _).trans
      ((windowStandby_supervision 0 _).trans (windowStandby_supervision 1 _))))
  unfold windowVerdicts
  dsimp only
  split
  · exact h3.trans (arbiter_pool _).supervision
  · exact h3

/-! ## What the end of a step and a phrase's write keep -/

section
variable {P : State → Prop} (hstop : ∀ n st s, P s → P (stopChan n st s))
  (hbegin : ∀ n k s, P s → P (beginStep n k s)) (hrem : ∀ z p s, P s → P (removal z p s))
include hstop hbegin hrem

omit hstop hbegin in
theorem removalAll_keeps (p : Claim → Bool) (s : State) (h : P s) : P (removalAll p s) := by
  unfold removalAll
  generalize allZones = l
  induction l generalizing s with
  | nil => exact h
  | cons z l ih => exact ih _ (hrem z p s h)

theorem stepEnds_keeps (n : Fin 4) (s : State) (h : P s) : P (stepEnds n s) := by
  unfold stepEnds
  dsimp only
  split
  · exact hstop _ _ _ h
  split
  · exact hbegin _ _ _ h
  split
  · exact removalAll_keeps hrem _ _ (hstop n .ended s h)
  · exact hbegin _ _ _ h

theorem phraseWritten_keeps (p : Nat) (s : State) (h : P s) : P (phraseWritten p s) := by
  unfold phraseWritten
  generalize plays s p = f
  generalize List.finRange 4 = l
  induction l generalizing s with
  | nil => exact h
  | cons n l ih =>
    rw [List.foldl_cons]
    refine ih _ ?_
    split
    · exact stepEnds_keeps hstop hbegin hrem n s h
    · exact h

end

end Sys2Proof.Machine

namespace Sys2Proof.Machine

/-! ## The alarm lock (R199) -/

theorem lockAgrees_of {s t : State} (hl : t.lists = s.lists) (ha : t.acts = [] ↔ s.acts = [])
    (hk : t.alarmLock = s.alarmLock) (h : LockAgrees s) : LockAgrees t := by
  have he : t.acts.isEmpty = s.acts.isEmpty := by
    rw [Bool.eq_iff_iff, List.isEmpty_iff, List.isEmpty_iff, ha]
  unfold LockAgrees lockCondition alarmCount at *
  rw [hl, he, hk]
  exact h

theorem HandsOnly.lockAgrees {s t : State} (h : HandsOnly s t) (hs : LockAgrees s) : LockAgrees t :=
  lockAgrees_of h.lists (by rw [h.acts]) h.alarmLock hs

theorem settle_lockAgrees (z : Zone) (f : State → State) (s : State) : LockAgrees (settle z f s) :=
  updateLock_agrees _

theorem removal_lockAgrees (z : Zone) (p : Claim → Bool) (s : State) (h : LockAgrees s) :
    LockAgrees (removal z p s) := by
  unfold removal
  split
  · exact settle_lockAgrees z _ s
  · exact h

theorem phraseWritten_lockAgrees (p : Nat) (s : State) (h : LockAgrees s) :
    LockAgrees (phraseWritten p s) :=
  phraseWritten_keeps (fun n st s h => (stopChan_sounds n st s).hands.lockAgrees h)
    (fun n k s h => (beginStep_sounds n k s).hands.lockAgrees h) removal_lockAgrees p s h

theorem progWritten_sounds (n : Fin 4) (e : Program) (s : State) :
    SoundsOnly s (progWritten n e s) := by
  unfold progWritten
  dsimp only
  split
  · exact stopChan_sounds _ _ _
  split
  · split
    · exact startChan_sounds _ _
    · exact stopChan_sounds _ _ _
  · split
    · exact startChan_sounds _ _
    · exact stopChan_sounds _ _ _
  · split
    · exact startChan_sounds _ _
    · split <;> exact stopChan_sounds _ _ _
  · rfl

theorem eligibleChange_pool (a b : SpkZone) (s : State) : PoolOnly s (eligibleChange a b s) := by
  unfold eligibleChange
  split
  · rfl
  · exact arbiter_pool s

theorem lineCfgChange_supervision (z : Zone) (a b : SpkZone) (s : State) :
    SupervisionOnly s (lineCfgChange z a b s) := by
  unfold lineCfgChange
  split
  · rfl
  · exact SupervisionOnly.trans (t := { s with
      lines := s.lines.set z { s.lines[z] with b := lineBFor b false } }) rfl
      (evalOutputLost_supervision z _)

theorem spkWritten_lockAgrees (z : Zone) (a b : SpkZone) (s : State) (h : LockAgrees s) :
    LockAgrees (spkWritten z a b s) := by
  unfold spkWritten
  split
  · exact updateLock_agrees _
  · exact h
  · have h1 : LockAgrees (trimChange z a b s) := by unfold trimChange; split <;> exact h
    have h2 := lineCfgChange_supervision z a b (trimChange z a b s)
    have h3 : LockAgrees (lineCfgChange z a b (trimChange z a b s)) := by
      refine lockAgrees_of ?_ ?_ ?_ h1 <;> rw [h2]
    exact (eligibleChange_pool _ _ _).hands.lockAgrees h3
  · exact h

/-- What the restart of the channels, ring and outputs leaves of the state (R204). -/
theorem chanRestart_sounds (n : Fin 4) (s : State) : SoundsOnly s (chanRestart n s) := by
  unfold chanRestart
  dsimp only
  split
  · split
    · exact stopChan_sounds _ _ _
    · exact startChan_sounds _ _
  · exact stopChan_sounds _ _ _

theorem chansRestart_hands (s : State) : HandsOnly s (chansRestart s) :=
  .foldl _ (fun t n => (chanRestart_sounds n t).hands) _ s

theorem enterRing_lockAgrees (st : RingState) (s : State) (h : LockAgrees s) :
    LockAgrees (enterRing st s) := (ringToOutputs_hands (setRing st s)).lockAgrees h

theorem emptyQueues_lockAgrees (s : State) (h : LockAgrees s) : LockAgrees (emptyQueues s) := h

theorem ringRestart_lockAgrees (s : State) (h : LockAgrees s) : LockAgrees (ringRestart s) :=
  enterRing_lockAgrees .seeking _ h

theorem wardenRestart_lockAgrees (s : State) (h : LockAgrees s) :
    LockAgrees (wardenRestart (cadsRestart (outsRestart s))) := by
  unfold wardenRestart cadsRestart outsRestart setWarden
  exact lockAgrees_of (s := s) rfl Iff.rfl rfl h

theorem supervisionRestart_lockAgrees (s : State) (h : LockAgrees s) :
    LockAgrees (supervisionRestart s) := by
  unfold supervisionRestart windowRestart
  exact lockAgrees_of (s := s) rfl Iff.rfl rfl h

theorem withoutCapture_lockAgrees (s : State) (h : LockAgrees s) :
    LockAgrees { s with capture := none } := h

theorem restartEffect_lockAgrees (b : Bool) (s : State) (h : LockAgrees s) :
    LockAgrees (restartEffect b s) := by
  have h1 := (report_sounds (.warmRestart s.cmdQueue.length b) (emptyQueues s)).hands.lockAgrees
    (emptyQueues_lockAgrees s h)
  have h2 := (chansRestart_hands _).lockAgrees (withoutCapture_lockAgrees _ h1)
  have h3 := wardenRestart_lockAgrees _ (ringRestart_lockAgrees _ h2)
  unfold restartEffect
  exact supervisionRestart_lockAgrees _ h3

theorem tick_lists (s : State) : (tick s).lists = s.lists := by
  simp only [tick, tickOuts, tickCads, tickChans, tickSlots, tickTalk, tickIsolation, tickStages]
  split <;> split <;> split <;> rfl

theorem tick_alarmLock (s : State) : (tick s).alarmLock = s.alarmLock := by
  simp only [tick, tickOuts, tickCads, tickChans, tickSlots, tickTalk, tickIsolation, tickStages]
  split <;> split <;> split <;> rfl

theorem tick_acts (s : State) : (tick s).acts = if s.hold then s.acts else s.acts.map tickRecord := by
  simp only [tick, tickOuts, tickCads, tickChans, tickSlots, tickTalk, tickIsolation, tickStages]
  split <;> split <;> split <;> rfl

theorem tick_lockAgrees (s : State) (h : LockAgrees s) : LockAgrees (tick s) := by
  refine lockAgrees_of (tick_lists s) ?_ (tick_alarmLock s) h
  rw [tick_acts]
  split
  · rfl
  · exact List.map_eq_nil_iff

theorem coldState_lockAgrees (p : Pins) (nv : Tables) (ok : Vector Bool 12) (st : Store)
    (a : Vector Bool 24) (b : Vector Bool 2) (q : List Instr) :
    LockAgrees (coldState p nv ok st a b q) := by
  have hc : alarmCount (coldState p nv ok st a b q) = 0 := by
    exact (by decide : (allZones.map fun z =>
      (((Vector.replicate 24 [] : Vector (List Claim) 24)[z]).filter isAlarmClaim).length).sum = 0)
  unfold LockAgrees lockCondition
  rw [hc]
  rfl

theorem Move.lockAgrees {c : Instr} {s t : State} (hm : Move c s t) (h : LockAgrees s) :
    LockAgrees t := by
  induction hm with
  | aside ht => rw [ht]; exact lockAgrees_of rfl Iff.rfl rfl h
  | report b s => exact (report_sounds b s).hands.lockAgrees h
  | captureEnded s => rw [endCapture_frame]; exact h
  | captureSampled v s => rw [captureSample_frame]; exact h
  | records l s he _ => exact lockAgrees_of (s := s) rfl he rfl h
  | recorded r s _ _ _ _ => exact updateLock_agrees _
  | recordGone dz b s => exact updateLock_agrees _
  | offer z x s _ => exact settle_lockAgrees z _ s
  | removal z p s => exact removal_lockAgrees z p s h
  | started n s _ _ => exact (startChan_sounds n s).hands.lockAgrees h
  | begun n k s _ _ _ => exact (beginStep_sounds n k s).hands.lockAgrees h
  | zoneWritten z e s _ =>
    exact spkWritten_lockAgrees z _ e { s with work := putEntry z.val (.spkZone e) s.work } h
  | phraseWritten p e s _ _ =>
    exact phraseWritten_lockAgrees p { s with work := putEntry p (.phrase e) s.work } h
  | programWritten n e e' s _ _ =>
    exact (progWritten_sounds n e' { s with work := putEntry n.val (.program e') s.work
      }).hands.lockAgrees h
  | tableDone x s _ => rw [commitGoesOn_frame]; exact h
  | powerLost s => rw [cutCommit_frame]; exact h
  | windowJudged s => rw [windowVerdicts_supervision s]; exact h
  | ringEntered st s _ _ => exact enterRing_lockAgrees st s h
  | ringLost s _ =>
    refine lockAgrees_of (abortCapture_lists _) (by rw [abortCapture_acts])
      (abortCapture_alarmLock _) ?_
    exact enterRing_lockAgrees .lost (leaveLocked s) h
  | loaded s _ => exact enterRing_lockAgrees .seeking (load s) h
  | restarted b s _ _ _ => exact restartEffect_lockAgrees b s h
  | cold b s t _ ht =>
    cases ht
    exact coldState_lockAgrees _ _ _ _ _ _ _
  | ticked o s _ => exact tick_lockAgrees s h
  | _ => exact lockAgrees_of rfl Iff.rfl rfl h

/-- Settles O4: the moves that touch the Activation List or a claim list end by setting the lock anew. -/
theorem alarmLockKept : Obligations.AlarmLockKept := fun _ _ hs ht =>
  step_keeps (P := LockAgrees) (fun _ _ h => h) (fun _ _ _ hm h => hm.lockAgrees h) hs ht

end Sys2Proof.Machine

namespace Sys2Proof.Machine

/-! ## Claim lists (R77–R81) -/

theorem Before.trans {a b c : Claim} (h : Before a b) (g : Before b c) : Before a c := by
  unfold Before at *
  omega

theorem standsBehind_iff (c d : Claim) : standsBehind c.prio c.placed d = true ↔
    d.prio < c.prio ∨ (d.prio = c.prio ∧ c.placed < d.placed) := by
  simp [standsBehind]

theorem insertClaim_perm (c : Claim) (l : List Claim) : (insertClaim c l).Perm (c :: l) := by
  induction l with
  | nil => exact .refl _
  | cons d l ih =>
    unfold insertClaim
    split
    · exact .refl _
    · exact (ih.cons d).trans (.swap c d l)

@[simp] theorem mem_insertClaim {c d : Claim} {l : List Claim} :
    d ∈ insertClaim c l ↔ d = c ∨ d ∈ l := by
  rw [(insertClaim_perm c l).mem_iff, List.mem_cons]

@[simp] theorem insertClaim_length (c : Claim) (l : List Claim) :
    (insertClaim c l).length = l.length + 1 := (insertClaim_perm c l).length_eq

/-- A claim put at its position leaves the list in the order of R79. -/
theorem insertClaim_before {c : Claim} {l : List Claim} (h : l.Pairwise Before) :
    (insertClaim c l).Pairwise Before := by
  induction l with
  | nil => exact List.pairwise_singleton _ _
  | cons d l ih =>
    obtain ⟨hd, hl⟩ := List.pairwise_cons.1 h
    unfold insertClaim
    split
    next hb =>
      have hcd : Before c d := by
        have := (standsBehind_iff c d).1 hb
        unfold Before
        omega
      refine List.pairwise_cons.2 ⟨fun x hx => ?_, h⟩
      rcases List.mem_cons.1 hx with rfl | hx
      · exact hcd
      · exact hcd.trans (hd x hx)
    next hb =>
      have hdc : Before d c := by
        have := (standsBehind_iff c d).not.1 hb
        unfold Before
        omega
      refine List.pairwise_cons.2 ⟨fun x hx => ?_, ih hl⟩
      rcases mem_insertClaim.1 hx with rfl | hx
      · exact hdc
      · exact hd x hx

theorem insertClaim_owners {c : Claim} {l : List Claim} (h : l.Pairwise fun a b => a.owner ≠ b.owner)
    (hc : ∀ d ∈ l, d.owner ≠ c.owner) : (insertClaim c l).Pairwise fun a b => a.owner ≠ b.owner := by
  refine (insertClaim_perm c l).symm.pairwise ?_ fun h => h.symm
  exact List.pairwise_cons.2 ⟨fun d hd => (hc d hd).symm, h⟩

theorem ListOk.sublist {l l' : List Claim} (h : ListOk l) (g : l'.Sublist l) : ListOk l' :=
  ⟨g.length_le.trans h.1, h.2.1.sublist g, h.2.2.sublist g⟩

theorem ListOk.insert {c : Claim} {l : List Claim} (h : ListOk l) (hr : l.length < Config.claimMax)
    (hc : ∀ d ∈ l, d.owner ≠ c.owner) : ListOk (insertClaim c l) :=
  ⟨by simpa using hr, insertClaim_before h.2.1, insertClaim_owners h.2.2 hc⟩

theorem claimOf_some {o : Owner} {l : List Claim} {d : Claim} (h : claimOf o l = some d) :
    d ∈ l ∧ d.owner = o :=
  ⟨List.mem_of_find?_eq_some h, by simpa using List.find?_some h⟩

theorem claimOf_none {o : Owner} {l : List Claim} :
    claimOf o l = none ↔ ∀ d ∈ l, d.owner ≠ o := by
  simp [claimOf]

/-- In a list of R77 the claim of an owner is the only one. -/
theorem ListOk.unique {l : List Claim} (h : ListOk l) {a b : Claim} (ha : a ∈ l) (hb : b ∈ l)
    (e : a.owner = b.owner) : a = b := by
  have hall : l.Pairwise fun a b => a.owner = b.owner → a = b := h.2.2.imp fun hn e => absurd e hn
  exact hall.forall_of_forall_of_flip (fun _ _ _ => rfl)
    (h.2.2.imp fun hn e => absurd e.symm hn) ha hb e

theorem claimOf_eq {l : List Claim} (h : ListOk l) {d : Claim} (hd : d ∈ l) :
    claimOf d.owner l = some d := by
  cases hf : claimOf d.owner l with
  | none => exact absurd rfl (claimOf_none.1 hf d hd)
  | some x => rw [h.unique (claimOf_some hf).1 hd (claimOf_some hf).2]

/-- A claim that takes the place of the held one of its owner leaves the list in order (R81). -/
theorem ListOk.replace {c held : Claim} {l : List Claim} (h : ListOk l)
    (hm : held ∈ l) (ho : held.owner = c.owner) : ListOk (replaceClaim c held l) := by
  have hf : ListOk (l.filter fun d => d.owner != c.owner) := h.sublist List.filter_sublist
  unfold replaceClaim
  dsimp only
  split
  next hp =>
    have hu : ∀ d ∈ l, d.owner = c.owner → d = held := fun d hd e => h.unique hd hm (e.trans ho.symm)
    refine ⟨by simpa using h.1, ?_, ?_⟩
    · rw [List.pairwise_map]
      refine h.2.1.imp_of_mem fun {a b} ha hb hab => ?_
      have key : ∀ d ∈ l, (if d.owner == c.owner then { c with placed := held.placed } else d).prio
          = d.prio ∧ (if d.owner == c.owner then { c with placed := held.placed } else d).placed
          = d.placed := by
        intro d hd
        split
        next e => rw [hu d hd (by simpa using e)]; exact ⟨hp, rfl⟩
        · exact ⟨rfl, rfl⟩
      unfold Before at *
      rwa [(key a ha).1, (key a ha).2, (key b hb).1, (key b hb).2]
    · rw [List.pairwise_map]
      refine h.2.2.imp fun {a b} hab => ?_
      have key : ∀ d : Claim, (if d.owner == c.owner then { c with placed := held.placed }
          else d).owner = d.owner := by
        intro d
        split
        next e => exact (by simpa using e : d.owner = c.owner).symm
        · rfl
      rwa [key, key]
  next hp =>
    refine hf.insert ?_ fun d hd => by simpa using (List.mem_filter.1 hd).2
    have hlt : (l.filter fun d => d.owner != c.owner).length < l.length :=
      List.length_filter_lt_length_iff_exists.2 ⟨held, hm, by simpa using ho⟩
    exact hlt.trans_le h.1

/-! ## Changes of one zone's list -/

/-- From `s` to `t` only zone `z`'s claim list and the report queue differ. -/
def ListOnly (z : Zone) (s t : State) : Prop :=
  t = { s with lists := t.lists, reports := t.reports, reportOverflow := t.reportOverflow } ∧
    ∀ y : Zone, y ≠ z → t.lists[y] = s.lists[y]

theorem ListOnly.refl (z : Zone) (s : State) : ListOnly z s s := ⟨rfl, fun _ _ => rfl⟩

theorem ListOnly.trans {z : Zone} {s t u : State} (h : ListOnly z s t) (g : ListOnly z t u) :
    ListOnly z s u := by
  obtain ⟨h1, h2⟩ := h
  obtain ⟨g1, g2⟩ := g
  refine ⟨?_, fun y hy => (g2 y hy).trans (h2 y hy)⟩
  rw [h1] at g1
  exact g1

theorem setList_listOnly (z : Zone) (l : List Claim) (s : State) : ListOnly z s (setList z l s) :=
  ⟨rfl, fun _ hy => setList_other hy l s⟩

theorem report_listOnly (z : Zone) (b : ReportBody) (s : State) : ListOnly z s (report b s) := by
  refine ⟨?_, fun y _ => by rw [report_lists]⟩
  unfold report
  split <;> rfl

theorem afterEntry_listOnly (b : Bool) (z : Zone) (s : State) : ListOnly z s (afterEntry b z s).1 := by
  unfold afterEntry
  split
  · exact setList_listOnly z _ s
  · exact .refl z s

theorem offerCore_listOnly (z : Zone) (c : Claim) (s : State) : ListOnly z s (offerCore z c s).1 := by
  unfold offerCore
  dsimp only
  split
  · exact .refl z s
  split
  · exact (setList_listOnly z _ s).trans (afterEntry_listOnly _ z _)
  split
  · exact (setList_listOnly z _ s).trans (afterEntry_listOnly _ z _)
  split
  · split
    · exact ((setList_listOnly z _ s).trans (report_listOnly z _ _)).trans (afterEntry_listOnly _ z _)
    · exact report_listOnly z _ s
  · exact .refl z s

/-! ## What is kept through offers and removals -/

/-- A relation that every operation on one zone's list keeps, from a record's part of a refill to an offer
in full. -/
structure ListRel (z : Zone) (R : State → State → Prop) : Prop where
  refl  : ∀ s, R s s
  trans : ∀ {s t u}, R s t → R t u → R s u
  core  : ∀ c s, R s (offerCore z c s).1
  cut   : ∀ (p : Claim → Bool) s, R s (setList z (s.lists[z].filter p) s)

namespace ListRel
variable {z : Zone} {R : State → State → Prop}

theorem refillRecord (h : ListRel z R) (r : ActRecord) (p : State × Bool) :
    R p.1 (Machine.refillRecord z r p).1 := by
  unfold Machine.refillRecord
  split
  · exact h.refl _
  · split
    · exact h.refl _
    · exact h.core _ _

theorem refillRecords (h : ListRel z R) (l : List ActRecord) (p : State × Bool) :
    R p.1 (l.foldl (fun p r => Machine.refillRecord z r p) p).1 := by
  induction l generalizing p with
  | nil => exact h.refl _
  | cons r l ih => exact h.trans (h.refillRecord r p) (ih _)

theorem refillOverflow (h : ListRel z R) (p : State × Bool) : R p.1 (Machine.refillOverflow z p).1 := by
  unfold Machine.refillOverflow
  split
  · exact h.core _ _
  · exact h.refl _

theorem refillPass (h : ListRel z R) (s : State) : R s (Machine.refillPass z s).1 :=
  h.trans (h.refillRecords s.acts (s, false)) (h.refillOverflow _)

theorem refill (h : ListRel z R) (s : State) : R s (Machine.refill z s) := by
  unfold Machine.refill
  dsimp only
  split
  · exact h.trans (h.refillPass s) (h.refillPass _)
  · exact h.refillPass s

/-- An offer before its hand-over. -/
theorem offered (h : ListRel z R) (c : Claim) (s : State) :
    R s (if (offerCore z c s).2 then Machine.refill z (offerCore z c s).1 else (offerCore z c s).1) := by
  split
  · exact h.trans (h.core c s) (h.refill _)
  · exact h.core c s

/-- A removal before its hand-over. -/
theorem removed (h : ListRel z R) (p : Claim → Bool) (s : State) :
    R s (Machine.refill z (setList z (s.lists[z].filter fun c => !p c) s)) :=
  h.trans (h.cut _ s) (h.refill _)

end ListRel

theorem listOnly_listRel (z : Zone) : ListRel z (ListOnly z) :=
  ⟨.refl z, .trans, offerCore_listOnly z, fun _ s => setList_listOnly z _ s⟩

/-- A relation that offers and removals in full keep: one of their changes of a list, and the hand-over and
the lock that follow it. -/
structure ZoneRel (R : State → State → Prop) : Prop where
  list : ∀ z, ListRel z R
  hand : ∀ z s, R s (handOver z s)
  lock : ∀ s, R s (updateLock s)

namespace ZoneRel
variable {R : State → State → Prop}

theorem refl (h : ZoneRel R) (s : State) : R s s := (h.list 0).refl s

theorem trans (h : ZoneRel R) {s t u : State} (a : R s t) (b : R t u) : R s u := (h.list 0).trans a b

theorem settle (h : ZoneRel R) (z : Zone) (f : State → State) (s : State) (hf : R s (f s)) :
    R s (Machine.settle z f s) := by
  unfold Machine.settle
  refine h.trans hf (h.trans ?_ (h.lock _))
  split
  · exact h.refl _
  · exact h.hand z _

theorem offer (h : ZoneRel R) (z : Zone) (c : Claim) (s : State) : R s (Machine.offer z c s) :=
  h.settle z _ s ((h.list z).offered c s)

theorem removal (h : ZoneRel R) (z : Zone) (p : Claim → Bool) (s : State) :
    R s (Machine.removal z p s) := by
  unfold Machine.removal
  split
  · exact h.settle z _ s ((h.list z).removed p s)
  · exact h.refl s

theorem foldl {α : Type} (h : ZoneRel R) (f : State → α → State) (hf : ∀ s a, R s (f s a))
    (l : List α) (s : State) : R s (l.foldl f s) := by
  induction l generalizing s with
  | nil => exact h.refl s
  | cons a l ih => exact h.trans (hf s a) (ih _)

theorem removalAll (h : ZoneRel R) (p : Claim → Bool) (s : State) : R s (Machine.removalAll p s) :=
  h.foldl _ (fun t z => h.removal z p t) allZones s

end ZoneRel

/-! ## The claim lists keep their order -/

theorem ListsOk.of_lists {s t : State} (h : ListsOk s) (e : t.lists = s.lists) : ListsOk t := by
  unfold ListsOk at *
  rwa [e]

theorem setList_listsOk {z : Zone} {l : List Claim} {s : State} (h : ListsOk s) (hl : ListOk l) :
    ListsOk (setList z l s) := by
  intro y
  by_cases e : y = z
  · subst e; rw [setList_self]; exact hl
  · rw [setList_other e]; exact h y

theorem afterEntry_listsOk (b : Bool) (z : Zone) (s : State) (h : ListsOk s) :
    ListsOk (afterEntry b z s).1 := by
  unfold afterEntry
  split
  · exact setList_listsOk h ((h z).sublist List.filter_sublist)
  · exact h

theorem offerCore_listsOk (z : Zone) (c : Claim) (s : State) (h : ListsOk s) :
    ListsOk (offerCore z c s).1 := by
  have hl := h z
  unfold offerCore
  dsimp only
  split
  · exact h
  split
  next held hh =>
    obtain ⟨hm, ho⟩ := claimOf_some hh
    exact afterEntry_listsOk _ z _ (setList_listsOk h (hl.replace hm ho))
  next hn =>
    have hn := claimOf_none.1 hn
    split
    next hr => exact afterEntry_listsOk _ z _ (setList_listsOk h (hl.insert hr hn))
    next hr =>
      split
      next last hg =>
        split
        · refine afterEntry_listsOk _ z _ (ListsOk.of_lists (setList_listsOk h
            ((hl.sublist (List.dropLast_sublist _)).insert ?_ fun d hd =>
              hn d (List.mem_of_mem_dropLast hd))) (report_lists _ _))
          have h6 := hl.1
          have hpos : 0 < s.lists[z].length := by
            rw [List.length_pos_iff]
            rintro e
            rw [e] at hg
            cases hg
          rw [List.length_dropLast]
          omega
        · exact h.of_lists (report_lists _ _)
      · exact h

theorem listsOk_zoneRel : ZoneRel fun s t => ListsOk s → ListsOk t where
  list z := {
    refl := fun _ h => h
    trans := fun a b h => b (a h)
    core := offerCore_listsOk z
    cut := fun _ _ h => setList_listsOk h ((h z).sublist List.filter_sublist) }
  hand z s h := h.of_lists (handOver_hands z s).lists
  lock s h := h.of_lists (updateLock_lists s)

theorem ZoneRel.phraseWritten {R : State → State → Prop} (h : ZoneRel R)
    (hstop : ∀ n st s, R s (stopChan n st s)) (hbegin : ∀ n k s, R s (beginStep n k s)) (p : Nat)
    (s : State) : R s (phraseWritten p s) :=
  phraseWritten_keeps (P := R s) (fun n st t ht => h.trans ht (hstop n st t))
    (fun n k t ht => h.trans ht (hbegin n k t)) (fun z q t ht => h.trans ht (h.removal z q t)) p s
    (h.refl s)

theorem HandsOnly.listsOk {s t : State} (h : HandsOnly s t) (hs : ListsOk s) : ListsOk t :=
  hs.of_lists h.lists

theorem spkWritten_listsOk (z : Zone) (a b : SpkZone) (s : State) (h : ListsOk s) :
    ListsOk (spkWritten z a b s) := by
  have h0 : ListOk [] := ⟨Nat.zero_le _, .nil, .nil⟩
  unfold spkWritten
  split
  · have h1 : ListsOk (setOut z mutedOut (setList z [] s)) :=
      (setList_listsOk h h0).of_lists rfl
    have h2 := (listenerChange_sounds s.outs[z].effective .none _).hands.listsOk h1
    unfold zoneLeaves
    refine ListsOk.of_lists (ListsOk.of_lists h2 ?_) (updateLock_lists _)
    rw [(arbiter_pool _).hands.lists]
  · exact h.of_lists rfl
  · have h1 : ListsOk (trimChange z a b s) := by
      unfold trimChange; split
      · exact h
      · exact h.of_lists rfl
    have h2 := lineCfgChange_supervision z a b (trimChange z a b s)
    exact (eligibleChange_pool _ _ _).hands.listsOk (h1.of_lists (by rw [h2]))
  · exact h

theorem restartEffect_lists (b : Bool) (s : State) : (restartEffect b s).lists = s.lists := by
  have h1 := (report_sounds (.warmRestart s.cmdQueue.length b) (emptyQueues s)).hands.lists
  have h2 : ∀ u, (ringRestart u).lists = u.lists := by
    intro u
    unfold ringRestart enterRing
    rw [(ringToOutputs_hands _).lists]
    rfl
  have h3 : ∀ u, (supervisionRestart (wardenRestart (cadsRestart (outsRestart u)))).lists = u.lists := by
    intro u
    unfold supervisionRestart windowRestart wardenRestart cadsRestart outsRestart setWarden
    rfl
  unfold restartEffect
  dsimp only
  rw [h3, h2, (chansRestart_hands _).lists]
  exact h1

theorem coldState_lists (p : Pins) (nv : Tables) (ok : Vector Bool 12) (st : Store)
    (a : Vector Bool 24) (b : Vector Bool 2) (q : List Instr) (z : Zone) :
    (coldState p nv ok st a b q).lists[z] = [] := by
  unfold coldState
  exact Vector.getElem_replicate _

theorem Move.listsOk {c : Instr} {s t : State} (hm : Move c s t) (h : ListsOk s) : ListsOk t := by
  induction hm with
  | aside ht => rw [ht]; exact h.of_lists rfl
  | report b s => exact (report_sounds b s).hands.listsOk h
  | captureEnded s => rw [endCapture_frame]; exact h.of_lists rfl
  | captureSampled v s => rw [captureSample_frame]; exact h.of_lists rfl
  | recorded r s _ _ _ _ => exact h.of_lists (updateLock_lists _)
  | recordGone dz b s => exact h.of_lists (updateLock_lists _)
  | offer z x s _ => exact listsOk_zoneRel.offer z x s h
  | removal z p s => exact listsOk_zoneRel.removal z p s h
  | started n s _ _ => exact (startChan_sounds n s).hands.listsOk h
  | begun n k s _ _ _ => exact (beginStep_sounds n k s).hands.listsOk h
  | zoneWritten z e s _ => exact spkWritten_listsOk z _ e _ (h.of_lists rfl)
  | phraseWritten p e s _ _ =>
    exact listsOk_zoneRel.phraseWritten (fun n st s h => (stopChan_sounds n st s).hands.listsOk h)
      (fun n k s h => (beginStep_sounds n k s).hands.listsOk h) p _ (h.of_lists rfl)
  | programWritten n e e' s _ _ =>
    exact (progWritten_sounds n e' _).hands.listsOk (h.of_lists rfl)
  | tableDone x s _ => rw [commitGoesOn_frame]; exact h.of_lists rfl
  | powerLost s => rw [cutCommit_frame]; exact h.of_lists rfl
  | windowJudged s => rw [windowVerdicts_supervision s]; exact h.of_lists rfl
  | ringEntered st s _ _ => exact (ringToOutputs_hands _).listsOk (h.of_lists rfl)
  | ringLost s _ =>
    exact ((ringToOutputs_hands (setRing .lost (leaveLocked s))).listsOk
      (h.of_lists rfl)).of_lists (abortCapture_lists _)
  | loaded s _ =>
    refine (ringToOutputs_hands _).listsOk (h.of_lists ?_)
    unfold setRing load
    rfl
  | restarted b s _ _ _ => exact h.of_lists (restartEffect_lists b s)
  | cold b s t _ ht =>
    cases ht
    intro z
    rw [coldState_lists]
    exact ⟨Nat.zero_le _, .nil, .nil⟩
  | ticked o s _ => exact h.of_lists (tick_lists s)
  | _ => exact h.of_lists rfl

/-- Settles O5: insertion behind every claim of higher rank, and replacement that keeps rank or inserts anew,
keep a list's order, its owners distinct and its length within 6. -/
theorem claimListsKept : Obligations.ClaimListsKept := fun _ _ hs ht =>
  step_keeps (P := ListsOk) (fun _ _ h => h.of_lists rfl) (fun _ _ _ hm h => hm.listsOk h) hs ht

end Sys2Proof.Machine

namespace Sys2Proof.Machine

/-! ## The report queue (R206) -/

/-- From `s` to `t` reports have at most been added, within the size of the queue, at the same moment. -/
structure Later (s t : State) : Prop where
  reports : s.reports <+: t.reports
  now     : t.now = s.now
  bound   : s.reports.length ≤ Config.reportMax → t.reports.length ≤ Config.reportMax

theorem Later.same {s t : State} (h : t.reports = s.reports) (hn : t.now = s.now) : Later s t :=
  ⟨h ▸ List.prefix_rfl, hn, fun hb => h ▸ hb⟩

theorem Later.refl (s : State) : Later s s := .same rfl rfl

theorem Later.trans {s t u : State} (h : Later s t) (g : Later t u) : Later s u :=
  ⟨h.reports.trans g.reports, g.now.trans h.now, fun hb => g.bound (h.bound hb)⟩

theorem Later.foldl {α : Type} (f : State → α → State) (h : ∀ s a, Later s (f s a)) (l : List α)
    (s : State) : Later s (l.foldl f s) := by
  induction l generalizing s with
  | nil => exact .refl s
  | cons a l ih => exact (h s a).trans (ih _)

/-- A report told stays told while reports are only added. -/
theorem Told.later {b : ReportBody} {s t : State} (h : Told b s) (g : Later s t) : Told b t := by
  rcases h with h | h
  · exact .inl (g.reports.subset (g.now ▸ h))
  · exact .inr (h.trans g.reports.length_le)

theorem report_told (b : ReportBody) (s : State) : Told b (report b s) := by
  unfold Told report
  split
  · exact .inl (by simp)
  next h => exact .inr (Nat.le_of_not_lt h)

theorem report_toldLast (b : ReportBody) (s : State) : ToldLast b (report b s) := by
  unfold ToldLast report
  split
  · exact .inl (by simp)
  next h => exact .inr ⟨Nat.le_of_not_lt h, rfl⟩

theorem report_later (b : ReportBody) (s : State) : Later s (report b s) := by
  unfold report
  split
  next h => exact ⟨List.prefix_append _ _, rfl, fun _ => by simpa using h⟩
  · exact .same rfl rfl

theorem reportOpt_later (b : Option ReportBody) (s : State) : Later s (reportOpt b s) := by
  unfold reportOpt
  split
  · exact report_later _ _
  · exact .refl s

theorem beginStep_later (n : Fin 4) (k : Nat) (s : State) : Later s (beginStep n k s) := by
  have hm : ∀ p, Later s (beginMissing n k p s) := fun p =>
    Later.trans (t := setChan n _ { s with phraseMissing := true }) (.same rfl rfl) (report_later _ _)
  unfold beginStep
  split
  · split
    · split
      · exact .same rfl rfl
      · exact hm _
    · exact hm _
  · exact .same rfl rfl
  · exact .refl s

theorem startChan_later (n : Fin 4) (s : State) : Later s (startChan n s) :=
  Later.trans (t := setChan n (fun c => { c with owed := 0 }) s) (.same rfl rfl) (beginStep_later n 0 _)

theorem stopChan_later (n : Fin 4) (st : ChanState) (s : State) : Later s (stopChan n st s) :=
  .same rfl rfl

theorem chanCount_later (n : Fin 4) (k : Nat) (s : State) : Later s (chanCount n k s) := by
  have h1 : Later s (setChan n (fun c => { c with listeners := k }) s) := .same rfl rfl
  unfold chanCount
  dsimp only
  split
  · split
    · split
      · exact h1
      · exact h1.trans (startChan_later n _)
    · split
      · exact h1.trans (startChan_later n _)
      · exact h1
    · exact h1
  · exact h1

theorem countSource_later (src : Source) (f : Nat → Nat) (s : State) :
    Later s (countSource src f s) := by
  unfold countSource
  split
  · unfold countCad
    split
    · exact .same rfl rfl
    · exact .refl s
  · unfold countChan
    split
    · exact chanCount_later _ _ s
    · exact .refl s
  · exact .refl s

theorem listenerChange_later (a b : Source) (s : State) : Later s (listenerChange a b s) := by
  unfold listenerChange
  split
  · exact .refl s
  · exact (countSource_later _ _ s).trans (countSource_later _ _ _)

theorem arbRelease_later (k : Fin 2) (s : State) : Later s (arbRelease k s) := by
  unfold arbRelease
  split
  · split
    · exact .refl s
    · exact Later.trans (t := setServing k none s) (.same rfl rfl) (report_later _ _)
  · exact .refl s

theorem arbAssign_later (n : Nat) (s : State) : Later s (arbAssign n s) := by
  induction n generalizing s with
  | zero => exact .refl s
  | succ n ih =>
    unfold arbAssign
    split
    next k z _ _ =>
      exact Later.trans (t := setServing k (some z) s) (.same rfl rfl) ((report_later _ _).trans (ih _))
    · exact .refl s

theorem arbPreempt_later (n : Nat) (s : State) : Later s (arbPreempt n s) := by
  induction n generalizing s with
  | zero => exact .refl s
  | succ n ih =>
    unfold arbPreempt
    split
    next w p _ _ =>
      split
      · exact Later.trans (t := setServing p.1 (some w) s) (.same rfl rfl)
          ((report_later _ _).trans (ih _))
      · exact .refl s
    · exact .refl s

theorem arbiter_later (s : State) : Later s (arbiter s) :=
  (arbRelease_later 0 s).trans ((arbRelease_later 1 _).trans
    ((arbAssign_later 2 _).trans (arbPreempt_later 2 _)))

theorem handOver_later (z : Zone) (s : State) : Later s (handOver z s) := by
  have h : ∀ a b o, Later s (listenerChange a b (setOut z o s)) := fun a b o =>
    Later.trans (t := setOut z o s) (.same rfl rfl) (listenerChange_later a b _)
  unfold handOver
  dsimp only
  split
  · exact (h _ _ _).trans (arbiter_later _)
  · exact h _ _ _

theorem ringToZone_later (z : Zone) (s : State) : Later s (ringToZone z s) := by
  unfold ringToZone
  dsimp only
  split
  · exact Later.trans (t := setOut z _ s) (.same rfl rfl) (listenerChange_later _ _ _)
  · exact .refl s

theorem ringToOutputs_later (s : State) : Later s (ringToOutputs s) :=
  .foldl _ (fun t z => ringToZone_later z t) allZones s

theorem abortCapture_later (s : State) : Later s (abortCapture s) :=
  .same (abortCapture_reports s) (abortCapture_now s)

theorem updateLock_later (s : State) : Later s (updateLock s) :=
  .same (updateLock_reports s) (updateLock_now s)

theorem setList_later (z : Zone) (l : List Claim) (s : State) : Later s (setList z l s) := .same rfl rfl

theorem afterEntry_later (b : Bool) (z : Zone) (s : State) : Later s (afterEntry b z s).1 := by
  unfold afterEntry
  split
  · exact setList_later z _ s
  · exact .refl s

theorem offerCore_later (z : Zone) (c : Claim) (s : State) : Later s (offerCore z c s).1 := by
  unfold offerCore
  dsimp only
  split
  · exact .refl s
  split
  · exact (setList_later z _ s).trans (afterEntry_later _ z _)
  split
  · exact (setList_later z _ s).trans (afterEntry_later _ z _)
  split
  · split
    · exact ((setList_later z _ s).trans (report_later _ _)).trans (afterEntry_later _ z _)
    · exact report_later _ s
  · exact .refl s

theorem later_zoneRel : ZoneRel Later where
  list z := ⟨.refl, .trans, offerCore_later z, fun _ s => setList_later z _ s⟩
  hand := handOver_later
  lock := updateLock_later

theorem evalOutputLost_later (z : Zone) (s : State) : Later s (evalOutputLost z s) := by
  have h1 : ∀ l, Later s { s with lines := l } := fun l => .same rfl rfl
  unfold evalOutputLost
  dsimp only
  split
  · exact (h1 _).trans (report_later _ _)
  · exact h1 _

theorem windowZone_later (z : Zone) (s : State) : Later s (windowZone z s) := by
  have h1 : ∀ (u : State) l b, Later u (evalOutputLost z (reportOpt b { u with lines := l })) :=
    fun u l b => Later.trans (t := { u with lines := l }) (.same rfl rfl)
      ((reportOpt_later _ _).trans (evalOutputLost_later z _))
  have hb : ∀ u, Later u (windowLineB z u) := by
    intro u
    unfold windowLineB
    dsimp only
    split
    · exact .refl u
    · exact h1 u _ _
  unfold windowZone
  split
  · exact Later.trans (h1 s _ _) (hb _)
  · exact .refl s

theorem windowAmp_later (z : Zone) (s : State) : Later s (windowAmp z s) := by
  unfold windowAmp
  split
  · exact Later.trans (t := { s with amps := s.amps.set z (healthWindow s.amps[z]) }) (.same rfl rfl)
      (reportOpt_later _ _)
  · exact .refl s

theorem windowStandby_later (k : Fin 2) (s : State) : Later s (windowStandby k s) := by
  have h1 : Later s (reportOpt (healthReport (.standby k) s.standbyAmps[k].failed
      (healthWindow s.standbyAmps[k]).failed)
      { s with standbyAmps := s.standbyAmps.set k (healthWindow s.standbyAmps[k]) }) :=
    Later.trans (t := { s with standbyAmps := s.standbyAmps.set k (healthWindow s.standbyAmps[k]) })
      (.same rfl rfl) (reportOpt_later _ _)
  unfold windowStandby
  dsimp only
  split
  · split
    · exact h1.trans (Later.trans (t := setServing k none _) (.same rfl rfl) (report_later _ _))
    · exact h1
  · exact h1

theorem windowVerdicts_later (s : State) : Later s (windowVerdicts s) := by
  have h3 := ((Later.foldl _ (fun t z => windowZone_later z t) allZones s).trans
    ((Later.foldl _ (fun t z => windowAmp_later z t) allZones _).trans
      ((windowStandby_later 0 _).trans (windowStandby_later 1 _))))
  unfold windowVerdicts
  dsimp only
  split
  · exact h3.trans (arbiter_later _)
  · exact h3

theorem progWritten_later (n : Fin 4) (e : Program) (s : State) : Later s (progWritten n e s) := by
  unfold progWritten
  dsimp only
  split
  · exact stopChan_later _ _ _
  split
  · split
    · exact startChan_later _ _
    · exact stopChan_later _ _ _
  · split
    · exact startChan_later _ _
    · exact stopChan_later _ _ _
  · split
    · exact startChan_later _ _
    · split <;> exact stopChan_later _ _ _
  · exact .refl s

theorem chansRestart_later (s : State) : Later s (chansRestart s) := by
  refine .foldl _ (fun t n => ?_) _ s
  unfold chanRestart
  dsimp only
  split
  · split
    · exact stopChan_later _ _ _
    · exact startChan_later _ _
  · exact stopChan_later _ _ _

theorem eligibleChange_later (a b : SpkZone) (s : State) : Later s (eligibleChange a b s) := by
  unfold eligibleChange
  split
  · exact .refl s
  · exact arbiter_later s

theorem lineCfgChange_later (z : Zone) (a b : SpkZone) (s : State) :
    Later s (lineCfgChange z a b s) := by
  unfold lineCfgChange
  split
  · exact .refl s
  · exact Later.trans (t := { s with
      lines := s.lines.set z { s.lines[z] with b := lineBFor b false } }) (.same rfl rfl)
      (evalOutputLost_later z _)

theorem trimChange_later (z : Zone) (a b : SpkZone) (s : State) : Later s (trimChange z a b s) := by
  unfold trimChange
  split
  · exact .refl s
  · exact .same rfl rfl

theorem zoneLeaves_later (z : Zone) (s : State) : Later s (zoneLeaves z s) := by
  have h1 : Later s (setOut z mutedOut (setList z [] s)) := .same rfl rfl
  have h2 : ∀ (u : State) l a, Later u { u with lines := l, amps := a } := fun _ _ _ => .same rfl rfl
  unfold zoneLeaves
  exact h1.trans ((listenerChange_later _ _ _).trans ((h2 _ _ _).trans
    ((arbiter_later _).trans (updateLock_later _))))

theorem spkWritten_later (z : Zone) (a b : SpkZone) (s : State) : Later s (spkWritten z a b s) := by
  unfold spkWritten
  split
  · exact zoneLeaves_later z s
  · exact .same rfl rfl
  · exact (trimChange_later z a b s).trans ((lineCfgChange_later z a b _).trans
      (eligibleChange_later a b _))
  · exact .refl s

end Sys2Proof.Machine

namespace Sys2Proof.Machine

/-! ## The queues keep their sizes -/

section
variable {s t : State}

/-- What the bounds of the queues are read from. -/
structure SameQueues (s t : State) : Prop where
  cmdQueue : t.cmdQueue = s.cmdQueue
  outbound : t.outbound = s.outbound
  reserved : t.reserved = s.reserved
  reports  : s.reports.length ≤ Config.reportMax → t.reports.length ≤ Config.reportMax
  rif      : t.rif = s.rif
  deferred : t.deferred = s.deferred
  commit   : t.commit = s.commit
  capture  : t.capture = s.capture

theorem Bounded.of (h : Bounded s) (g : SameQueues s t) : Bounded t := by
  obtain ⟨hc, ho, hp, hf, hr, hd⟩ := h
  unfold Bounded returnsToCome at *
  rw [g.cmdQueue, g.outbound, g.reserved, g.rif, g.deferred, g.commit, g.capture]
  exact ⟨hc, ho, g.reports hp, hf, hr, hd⟩

theorem HandsOnly.queues (h : HandsOnly s t) (g : Later s t) : SameQueues s t :=
  ⟨h.cmdQueue, h.outbound, h.reserved, g.bound, h.rif, h.deferred, h.commit, h.capture⟩

theorem ListOnly.queues {z : Zone} (h : ListOnly z s t) (g : Later s t) : SameQueues s t := by
  obtain ⟨hf, -⟩ := h
  constructor
  case reports => exact g.bound
  all_goals rw [hf]

theorem SupervisionOnly.queues (h : SupervisionOnly s t) (g : Later s t) : SameQueues s t := by
  constructor
  case reports => exact g.bound
  all_goals rw [h]

end

theorem SameQueues.trans {s t u : State} (h : SameQueues s t) (g : SameQueues t u) : SameQueues s u :=
  ⟨g.cmdQueue.trans h.cmdQueue, g.outbound.trans h.outbound, g.reserved.trans h.reserved,
    fun hb => g.reports (h.reports hb), g.rif.trans h.rif, g.deferred.trans h.deferred,
    g.commit.trans h.commit, g.capture.trans h.capture⟩

/-- A reply that ends a capture or a commit in flight takes its place in the count of replies to come. -/
theorem placeOrDefer_bounded (m : OutMsg) (s : State) (h : Bounded s)
    (hd : s.deferred.length + s.commit.toList.length + s.capture.toList.length < 2) :
    Bounded (placeOrDefer m s) := by
  obtain ⟨hc, ho, hp, hf, hr, -⟩ := h
  unfold placeOrDefer
  split
  next hroom =>
    simp only [Bool.and_eq_true, decide_eq_true_eq, State.room, Config.outMax] at hroom ho
    refine ⟨hc, ?_, hp, hf, hr, hd.le⟩
    show (s.outbound ++ [m]).length + s.reserved ≤ 12
    have hroom := of_decide_eq_true hroom.2
    rw [List.length_append]
    simp only [List.length_singleton]
    omega
  · refine ⟨hc, ho, hp, hf, hr, ?_⟩
    show (s.deferred ++ [m]).length + _ + _ ≤ 2
    rw [List.length_append]
    simp only [List.length_singleton]
    omega

theorem abortCapture_bounded (s : State) (h : Bounded s) : Bounded (abortCapture s) := by
  unfold abortCapture
  split
  · exact h
  next c hx =>
    obtain ⟨hc, ho, hp, hf, hr, hd⟩ := h
    rw [hx] at hd
    simp only [Option.toList_some, List.length_singleton] at hd
    refine placeOrDefer_bounded _ _ ⟨hc, ho, hp, hf, hr, ?_⟩ ?_
    all_goals simp only [Option.toList_none, List.length_nil]; omega

theorem updateLock_bounded (s : State) (h : Bounded s) : Bounded (updateLock s) := by
  unfold updateLock
  dsimp only
  split
  · exact abortCapture_bounded _ h
  · exact h

theorem bounded_zoneRel : ZoneRel fun s t => Bounded s → Bounded t where
  list z := {
    refl := fun _ h => h
    trans := fun a b h => b (a h)
    core := fun c s h => h.of ((offerCore_listOnly z c s).queues (offerCore_later z c s))
    cut := fun _ s h => h.of ((setList_listOnly z _ s).queues (setList_later z _ s)) }
  hand z s h := h.of ((handOver_hands z s).queues (handOver_later z s))
  lock := updateLock_bounded

theorem endCapture_bounded (s : State) (h : Bounded s) : Bounded (endCapture s) := by
  unfold endCapture
  split
  · exact h
  next c hx =>
    obtain ⟨hc, ho, hp, hf, hr, hd⟩ := h
    rw [hx] at hd
    simp only [Option.toList_some, List.length_singleton] at hd
    refine placeOrDefer_bounded _ _ ⟨hc, ho, hp, hf, hr, ?_⟩ ?_
    · show s.deferred.length + s.commit.toList.length + 0 ≤ 2
      omega
    · show s.deferred.length + s.commit.toList.length + 0 < 2
      omega

theorem captureSample_bounded (v : Vector (Option Sample) 32) (s : State) (h : Bounded s) :
    Bounded (captureSample v s) := by
  unfold captureSample
  split
  · exact h
  next c hx =>
    split
    · exact h
    · split
      · obtain ⟨hc, ho, hp, hf, hr, hd⟩ := h
        rw [hx] at hd
        exact ⟨hc, ho, hp, hf, hr, hd⟩
      · exact h

theorem commitGoesOn_bounded (x : Commit) (s : State) (hx : s.commit = some x) (h : Bounded s) :
    Bounded (commitGoesOn x (tableWritten x s)) := by
  obtain ⟨hc, ho, hp, hf, hr, hd⟩ := h
  rw [hx] at hd
  simp only [Option.toList_some, List.length_singleton] at hd
  unfold commitGoesOn
  split
  · exact ⟨hc, ho, hp, hf, hr, hd⟩
  · refine placeOrDefer_bounded _ _ ⟨hc, ho, hp, hf, hr, ?_⟩ ?_
    · show s.deferred.length + 0 + s.capture.toList.length ≤ 2
      omega
    · show s.deferred.length + 0 + s.capture.toList.length < 2
      omega

theorem cutCommit_bounded (s : State) (h : Bounded s) : Bounded { cutCommit s with phase := .off } := by
  obtain ⟨hc, ho, hp, hf, hr, hd⟩ := h
  unfold cutCommit
  split
  · exact ⟨hc, ho, hp, hf, hr, hd⟩
  · refine ⟨hc, ho, hp, hf, hr, ?_⟩
    show s.deferred.length + 0 + s.capture.toList.length ≤ 2
    omega

theorem leaveLocked_bounded (s : State) (h : Bounded s) : Bounded (leaveLocked s) := by
  obtain ⟨hc, ho, hp, hf, hr, hd⟩ := h
  refine ⟨hc, ho, hp, Nat.zero_le _, ?_, hd⟩
  show (s.rif.returns ++ abandoned s.rif.tx).length + 0 ≤ _
  have : (abandoned s.rif.tx).length = returnsToCome s := by
    unfold abandoned returnsToCome
    cases s.rif.tx with
    | none => rfl
    | some x => cases x with | mk tag own fresh begun rest => cases own <;> rfl
  rw [List.length_append, this]
  exact hr

theorem enterRing_bounded (st : RingState) (s : State) (h : Bounded s) : Bounded (enterRing st s) := by
  have h1 : Bounded (setRing st s) := h
  exact h1.of ((ringToOutputs_hands _).queues (ringToOutputs_later _))

theorem tick_queues (s : State) : SameQueues s (tick s) := by
  constructor
  case reports =>
    intro h
    suffices (tick s).reports = s.reports by rwa [this]
    simp only [tick, tickOuts, tickCads, tickChans, tickSlots, tickTalk, tickIsolation, tickStages]
    split <;> split <;> split <;> rfl
  all_goals
    simp only [tick, tickOuts, tickCads, tickChans, tickSlots, tickTalk, tickIsolation, tickStages]
    split <;> split <;> split <;> rfl

theorem spkWritten_bounded (z : Zone) (a b : SpkZone) (s : State) (h : Bounded s) :
    Bounded (spkWritten z a b s) := by
  unfold spkWritten
  split
  · have h1 : SameQueues s (setOut z mutedOut (setList z [] s)) := ⟨rfl, rfl, rfl, id, rfl, rfl, rfl, rfl⟩
    have h2 : ∀ (u : State) l a, SameQueues u { u with lines := l, amps := a } :=
      fun _ _ _ => ⟨rfl, rfl, rfl, id, rfl, rfl, rfl, rfl⟩
    unfold zoneLeaves
    refine updateLock_bounded _ (h.of ?_)
    exact h1.trans (((listenerChange_sounds _ _ _).hands.queues (listenerChange_later _ _ _)).trans
      ((h2 _ _ _).trans ((arbiter_pool _).hands.queues (arbiter_later _))))
  · exact h.of ⟨rfl, rfl, rfl, id, rfl, rfl, rfl, rfl⟩
  · have h1 : SameQueues s (trimChange z a b s) := by
      unfold trimChange
      split <;> exact ⟨rfl, rfl, rfl, id, rfl, rfl, rfl, rfl⟩
    exact h.of (h1.trans (((lineCfgChange_supervision z a b _).queues (lineCfgChange_later z a b _)).trans
      ((eligibleChange_pool a b _).hands.queues (eligibleChange_later a b _))))
  · exact h

theorem restartEffect_bounded (b : Bool) (s : State) (h : Bounded s) :
    Bounded (restartEffect b s) := by
  have h1 : Bounded (emptyQueues s) := by
    obtain ⟨hc, ho, hp, hf, hr, hd⟩ := h
    refine ⟨Nat.zero_le _, ?_, Nat.zero_le _, Nat.zero_le _, Nat.zero_le _, ?_⟩
    · show 0 + s.reserved ≤ Config.outMax
      omega
    · show 0 + s.commit.toList.length + s.capture.toList.length ≤ 2
      omega
  have h2 := h1.of ((report_sounds (.warmRestart s.cmdQueue.length b) _).hands.queues
    (report_later _ (emptyQueues s)))
  have h3 : ∀ u, Bounded u → Bounded { u with capture := none } := by
    intro u ⟨hc, ho, hp, hf, hr, hd⟩
    refine ⟨hc, ho, hp, hf, hr, ?_⟩
    show u.deferred.length + u.commit.toList.length + 0 ≤ 2
    omega
  have h4 := (h3 _ h2).of ((chansRestart_hands _).queues (chansRestart_later _))
  have h5 : ∀ u, Bounded u → Bounded (ringRestart u) := by
    intro u hu
    unfold ringRestart
    exact enterRing_bounded _ _ hu
  have h6 : ∀ u, SameQueues u (supervisionRestart (wardenRestart (cadsRestart (outsRestart u)))) := by
    intro u
    unfold supervisionRestart windowRestart wardenRestart cadsRestart outsRestart setWarden
    exact ⟨rfl, rfl, rfl, id, rfl, rfl, rfl, rfl⟩
  unfold restartEffect
  exact (h5 _ h4).of (h6 _)

theorem coldState_bounded (p : Pins) (nv : Tables) (ok : Vector Bool 12) (st : Store)
    (a : Vector Bool 24) (b : Vector Bool 2) (q : List Instr) :
    Bounded (coldState p nv ok st a b q) := by
  refine ⟨Nat.zero_le _, Nat.zero_le _, Nat.zero_le _, Nat.zero_le _, Nat.zero_le _, Nat.zero_le _⟩

theorem Move.bounded {c : Instr} {s t : State} (hm : Move c s t) (h : Bounded s) : Bounded t := by
  have hsame : ∀ {u v : State}, Bounded u → HandsOnly u v → Later u v → Bounded v :=
    fun hu hv hl => hu.of (hv.queues hl)
  have hwork : ∀ (u : State) w, Bounded u → Bounded { u with work := w } := fun _ _ hu => hu
  obtain ⟨hc, ho, hp, hf, hr, hd⟩ := id h
  induction hm with
  | aside ht =>
    refine h.of ?_
    rw [ht]
    exact ⟨rfl, rfl, rfl, id, rfl, rfl, rfl, rfl⟩
  | report b s => exact hsame h (report_sounds b s).hands (report_later b s)
  | place m s hroom =>
    refine ⟨hc, ?_, hp, hf, hr, hd⟩
    unfold State.room at hroom
    show (s.outbound ++ [m]).length + s.reserved ≤ _
    rw [List.length_append, List.length_singleton]
    omega
  | sent s _ =>
    refine ⟨hc, ?_, hp, hf, hr, hd⟩
    show s.outbound.tail.length + s.reserved ≤ _
    rw [List.length_tail]
    omega
  | reportSent s _ =>
    refine ⟨hc, ho, ?_, hf, hr, hd⟩
    show s.reports.tail.length ≤ _
    rw [List.length_tail]
    omega
  | entered e s hl =>
    refine ⟨?_, ho, hp, hf, hr, hd⟩
    show (s.cmdQueue ++ [e]).length ≤ _
    rw [List.length_append, List.length_singleton]
    omega
  | taken own s hroom =>
    refine ⟨?_, ?_, hp, hf, hr, hd⟩
    · show s.cmdQueue.tail.length ≤ _
      rw [List.length_tail]
      omega
    · unfold State.room at hroom
      show s.outbound.length + own ≤ _
      omega
  | replied l s hl =>
    refine ⟨hc, ?_, hp, hf, hr, hd⟩
    show (s.outbound ++ l).length + 0 ≤ _
    rw [List.length_append]
    omega
  | deferredPlaced m rest s hdef hroom =>
    rw [hdef, List.length_cons] at hd
    refine ⟨hc, ?_, hp, hf, hr, ?_⟩
    · unfold State.room at hroom
      show (s.outbound ++ [m]).length + s.reserved ≤ _
      rw [List.length_append, List.length_singleton]
      omega
    · show rest.length + s.commit.toList.length + s.capture.toList.length ≤ 2
      omega
  | captureBegun q p slot ms s hn hdef =>
    refine ⟨hc, ho, hp, hf, hr, ?_⟩
    show s.deferred.length + s.commit.toList.length + 1 ≤ 2
    rw [hdef]
    cases s.commit <;> simp
  | captureEnded s => exact endCapture_bounded s h
  | captureSampled v s => exact captureSample_bounded v s h
  | recorded r s _ _ _ _ => exact updateLock_bounded _ ⟨hc, ho, hp, hf, hr, hd⟩
  | recordGone dz b s => exact updateLock_bounded _ ⟨hc, ho, hp, hf, hr, hd⟩
  | offer z x s _ => exact bounded_zoneRel.offer z x s h
  | removal z p s => exact bounded_zoneRel.removal z p s h
  | started n s _ _ => exact hsame h (startChan_sounds n s).hands (startChan_later n s)
  | begun n k s _ _ _ => exact hsame h (beginStep_sounds n k s).hands (beginStep_later n k s)
  | zoneWritten z e s _ => exact spkWritten_bounded z _ e _ (hwork s _ h)
  | phraseWritten p e s _ _ =>
    exact bounded_zoneRel.phraseWritten (fun n st u hu => hsame hu (stopChan_sounds n st u).hands
      (stopChan_later n st u)) (fun n k u hu => hsame hu (beginStep_sounds n k u).hands
      (beginStep_later n k u)) p _ (hwork s _ h)
  | programWritten n e e' s _ _ =>
    exact hsame (hwork s _ h) (progWritten_sounds n e' _).hands (progWritten_later n e' _)
  | commitBegun q k s _ hn hdef =>
    refine ⟨hc, ho, hp, hf, hr, ?_⟩
    show s.deferred.length + 1 + s.capture.toList.length ≤ 2
    rw [hdef]
    cases s.capture <;> simp
  | tableDone x s hx => exact commitGoesOn_bounded x s hx h
  | powerLost s => exact cutCommit_bounded s h
  | windowJudged s =>
    exact h.of ((windowVerdicts_supervision s).queues (windowVerdicts_later s))
  | ringEntered st s _ _ => exact enterRing_bounded st s h
  | ringLost s _ =>
    exact abortCapture_bounded _ (enterRing_bounded .lost _ (leaveLocked_bounded s h))
  | loaded s _ =>
    refine enterRing_bounded .seeking _ ?_
    unfold load setRif
    exact ⟨hc, ho, hp, hf, hr, hd⟩
  | restarted b s _ _ _ => exact restartEffect_bounded b s h
  | cold b s t _ ht =>
    cases ht
    exact coldState_bounded _ _ _ _ _ _ _
  | rif r s hk => exact ⟨hc, ho, hp, hk.fwd hf, hk.returns hr, hd⟩
  | ticked o s _ => exact h.of (tick_queues s)
  | _ => exact ⟨hc, ho, hp, hf, hr, hd⟩

/-- Settles O6: a move that adds to a queue has room there, a reply that ends a capture or commit replaces it in
the count, and an abandoned message of the node's own keeps the return record it was counted for. -/
theorem queuesBoundedKept : Obligations.QueuesBoundedKept := fun _ _ hs ht =>
  step_keeps (P := Bounded) (fun _ _ h => h) (fun _ _ _ hm h => hm.bounded h) hs ht

end Sys2Proof.Machine

namespace Sys2Proof.Machine

/-! ## The Activation List keeps its bounds -/

theorem RecordsOk.of_acts {s t : State} (h : RecordsOk s) (e : t.acts = s.acts) : RecordsOk t := by
  unfold RecordsOk at *
  rwa [e]

theorem OnlyZones.recordsOk {s t : State} (h : OnlyZones s t) (hs : RecordsOk s) : RecordsOk t :=
  hs.of_acts h.acts

/-- The list with a record behind it of a detection zone that had none (R17, R19). -/
theorem RecordsOk.append {s : State} {r : ActRecord} (h : RecordsOk s)
    (hl : s.acts.length < Config.actMax) (hn : recordOf s r.dz = none) (hr : RecordOk r) :
    RecordsOk { s with acts := s.acts ++ [r] } := by
  obtain ⟨-, hd, hk⟩ := h
  have hn : ∀ a ∈ s.acts, a.dz ≠ r.dz := by simpa [recordOf] using hn
  refine ⟨by simpa using hl, ?_, fun a ha => ?_⟩
  · refine List.pairwise_append.2 ⟨hd, List.pairwise_singleton _ _, fun a ha b hb => ?_⟩
    rw [List.mem_singleton.1 hb]
    exact hn a ha
  · rcases List.mem_append.1 ha with ha | ha
    · exact hk a ha
    · rw [List.mem_singleton.1 ha]
      exact hr

theorem RecordsOk.filter {s : State} (p : ActRecord → Bool) (h : RecordsOk s) (b : Bool) :
    RecordsOk { s with acts := s.acts.filter p, overflow := b } :=
  ⟨(List.length_filter_le _ _).trans h.1, h.2.1.sublist List.filter_sublist,
    fun r hr => h.2.2 r (List.mem_of_mem_filter hr)⟩

theorem tickRef_ok {f : Ref} (h : (∀ k, f.timer = some k → f.stage = .alert ∧ 1 ≤ k) ∧
    (f.due = true → f.timer = some 1)) : (∀ k, (tickRef f).timer = some k →
      (tickRef f).stage = .alert ∧ 1 ≤ k) ∧ ((tickRef f).due = true → (tickRef f).timer = some 1) := by
  obtain ⟨ht, hd⟩ := h
  unfold tickRef
  split
  next hn => exact ⟨ht, hd⟩
  next t e =>
    obtain ⟨hst, h1⟩ := ht t e
    split
    next hle => exact ⟨ht, fun _ => by rw [e, show t = 1 by omega]⟩
    next hgt =>
      refine ⟨fun k hk => ⟨hst, ?_⟩, fun hdue => ?_⟩
      · have hk : t - 1 = k := Option.some.inj hk
        omega
      · have := Option.some.inj (e.symm.trans (hd hdue))
        omega

theorem tick_recordsOk (s : State) (h : RecordsOk s) : RecordsOk (tick s) := by
  have ha := tick_acts s
  split at ha
  · exact h.of_acts ha
  · obtain ⟨hl, hd, hk⟩ := h
    unfold RecordsOk
    rw [ha]
    refine ⟨by simpa using hl, List.pairwise_map.2 hd, fun r hr => ?_⟩
    obtain ⟨r, hm, rfl⟩ := List.mem_map.1 hr
    refine ⟨by simpa [tickRecord] using (hk r hm).1, fun f hf => ?_⟩
    obtain ⟨f, hf', rfl⟩ := List.mem_map.1 hf
    exact tickRef_ok ((hk r hm).2 f hf')

theorem spkWritten_acts (z : Zone) (a b : SpkZone) (s : State) : (spkWritten z a b s).acts = s.acts := by
  unfold spkWritten
  split
  · unfold zoneLeaves
    rw [updateLock_acts, (arbiter_pool _).hands.acts]
    exact (listenerChange_sounds _ _ _).hands.acts
  · rfl
  · have h2 := lineCfgChange_supervision z a b (trimChange z a b s)
    rw [(eligibleChange_pool _ _ _).hands.acts, h2]
    show (trimChange z a b s).acts = s.acts
    unfold trimChange
    split <;> rfl
  · rfl

theorem restartEffect_acts (b : Bool) (s : State) : (restartEffect b s).acts = s.acts := by
  have h1 := (report_sounds (.warmRestart s.cmdQueue.length b) (emptyQueues s)).hands.acts
  have h2 : ∀ u, (ringRestart u).acts = u.acts := by
    intro u
    unfold ringRestart enterRing
    rw [(ringToOutputs_hands _).acts]
    rfl
  have h3 : ∀ u, (supervisionRestart (wardenRestart (cadsRestart (outsRestart u)))).acts = u.acts := by
    intro u
    unfold supervisionRestart windowRestart wardenRestart cadsRestart outsRestart setWarden
    rfl
  unfold restartEffect
  dsimp only
  rw [h3, h2, (chansRestart_hands _).acts]
  exact h1

theorem Move.recordsOk {c : Instr} {s t : State} (hm : Move c s t) (h : RecordsOk s) : RecordsOk t := by
  induction hm with
  | aside ht => rw [ht]; exact h.of_acts rfl
  | report b s => exact h.of_acts (report_acts b s)
  | captureEnded s => rw [endCapture_frame]; exact h.of_acts rfl
  | captureSampled v s => rw [captureSample_frame]; exact h.of_acts rfl
  | records l s _ hk => exact hk h
  | recorded r s _ hl hn hr => exact (h.append hl hn hr).of_acts (updateLock_acts _)
  | recordGone dz b s => exact (h.filter _ b).of_acts (updateLock_acts _)
  | offer z x s _ => exact (offer_onlyZones z x s).recordsOk h
  | removal z p s => exact (removal_onlyZones z p s).recordsOk h
  | started n s _ _ => exact (startChan_onlyZones n s).recordsOk h
  | begun n k s _ _ _ => exact (beginStep_onlyZones n k s).recordsOk h
  | zoneWritten z e s _ => exact h.of_acts (spkWritten_acts z _ e _)
  | phraseWritten p e s _ _ => exact (phraseWritten_onlyZones p _).recordsOk (h.of_acts rfl)
  | programWritten n e e' s _ _ => exact (progWritten_onlyZones n e' _).recordsOk (h.of_acts rfl)
  | tableDone x s _ => rw [commitGoesOn_frame]; exact h.of_acts rfl
  | powerLost s => rw [cutCommit_frame]; exact h.of_acts rfl
  | windowJudged s => rw [windowVerdicts_supervision s]; exact h.of_acts rfl
  | ringEntered st s _ _ => exact (ringToOutputs_onlyZones _).recordsOk (h.of_acts rfl)
  | ringLost s _ =>
    exact ((ringToOutputs_onlyZones (setRing .lost (leaveLocked s))).recordsOk
      (h.of_acts rfl)).of_acts (abortCapture_acts _)
  | loaded s _ =>
    refine (ringToOutputs_onlyZones _).recordsOk (h.of_acts ?_)
    unfold setRing load
    rfl
  | restarted b s _ _ _ => exact h.of_acts (restartEffect_acts b s)
  | cold b s t _ ht =>
    cases ht
    exact ⟨Nat.zero_le _, .nil, by simp [coldState]⟩
  | ticked o s _ => exact tick_recordsOk s h
  | _ => exact h.of_acts rfl

/-- Settles O8: a record joins only a list with room and none of its zone, a removal keeps a part of the list,
and a timer's millisecond leaves it at 1 or more, where its expiry is marked. -/
theorem recordsKept : Obligations.RecordsKept := fun _ _ hs ht =>
  step_keeps (P := RecordsOk) (fun _ _ h => h.of_acts rfl) (fun _ _ _ hm h => hm.recordsOk h) hs ht

end Sys2Proof.Machine

namespace Sys2Proof.Machine

/-! ## Quiet outside LOCKED -/

theorem QuietUnlessLocked.of {s t : State} (h : QuietUnlessLocked s) (hp : t.phase = s.phase)
    (hr : t.rif = s.rif) (hw : t.warden = s.warden) (hc : s.capture = none → t.capture = none) :
    QuietUnlessLocked t := by
  obtain ⟨h1, h2⟩ := h
  unfold QuietUnlessLocked
  rw [hp, hr, hw]
  refine ⟨fun hn => ?_, h2⟩
  obtain ⟨a, b, c, d, e, f, g⟩ := h1 hn
  exact ⟨a, b, c, d, e, f, hc g⟩

theorem OnlyZones.quiet {s t : State} (h : OnlyZones s t) (hs : QuietUnlessLocked s) :
    QuietUnlessLocked t := hs.of h.phase h.rif h.warden fun hc => (h.queues.quiet hc).1

/-- A state in which the RIF, the warden's slot and the capture are quiet in whatever ring state. -/
theorem quietUnlessLocked_of_quiet {s : State} (hp : s.phase ≠ .loading) (hr : RifQuiet s.rif)
    (hw : s.warden.slot = .none) (hc : s.capture = none) : QuietUnlessLocked s := by
  obtain ⟨a, b, c, d, e⟩ := hr
  exact ⟨fun _ => ⟨a, b, c, d, e, hw, hc⟩, fun h => absurd h hp⟩

theorem enterRing_quiet (st : RingState) (s : State) (hp : s.phase ≠ .loading)
    (hst : st = .locked ∨ (RifQuiet s.rif ∧ s.warden.slot = .none ∧ s.capture = none)) :
    QuietUnlessLocked (enterRing st s) := by
  refine (ringToOutputs_onlyZones (setRing st s)).quiet ?_
  rcases hst with rfl | ⟨hr, hw, hc⟩
  · exact ⟨fun h => absurd rfl h, fun h => absurd h hp⟩
  · exact quietUnlessLocked_of_quiet hp hr hw hc

theorem QuietUnlessLocked.outside {s : State} (h : QuietUnlessLocked s) (hn : s.rif.ring ≠ .locked) :
    RifQuiet s.rif ∧ s.warden.slot = .none ∧ s.capture = none := by
  obtain ⟨a, b, c, d, e, f, g⟩ := h.1 hn
  exact ⟨⟨a, b, c, d, e⟩, f, g⟩

theorem captureRefusal_locked {s : State} {p slot ms : Nat} (h : captureRefusal s p slot ms = none) :
    s.rif.ring = .locked := by
  by_contra hn
  have hl : s.locked = false := by simpa [State.locked] using hn
  unfold captureRefusal at h
  rw [hl] at h
  split_ifs at h <;> simp_all

theorem spkWritten_quiet (z : Zone) (a b : SpkZone) (s : State) (h : QuietUnlessLocked s) :
    QuietUnlessLocked (spkWritten z a b s) := by
  unfold spkWritten
  split
  · have h1 := (listenerChange_onlyZones s.outs[z].effective .none
      (setOut z mutedOut (setList z [] s))).quiet (h.of rfl rfl rfl id)
    unfold zoneLeaves
    exact (updateLock_onlyZones _).quiet ((arbiter_onlyZones _).quiet (h1.of rfl rfl rfl id))
  · exact h.of rfl rfl rfl id
  · have h1 : QuietUnlessLocked (trimChange z a b s) := by
      unfold trimChange
      split
      · exact h
      · exact h.of rfl rfl rfl id
    have h2 := lineCfgChange_supervision z a b (trimChange z a b s)
    have h3 : QuietUnlessLocked (lineCfgChange z a b (trimChange z a b s)) := by
      refine h1.of ?_ ?_ ?_ (fun hc => ?_)
      all_goals rw [h2]
      exact hc
    refine h3.of (eligibleChange_pool _ _ _).hands.phase (eligibleChange_pool _ _ _).hands.rif
      (eligibleChange_pool _ _ _).hands.warden fun hc => ?_
    rw [(eligibleChange_pool _ _ _).hands.capture, hc]
  · exact h

theorem restartEffect_quiet (b : Bool) (s : State) (hp : s.phase = .running) :
    QuietUnlessLocked (restartEffect b s) := by
  have h1 : ∀ u : State, u.rif.rx = none → u.rif.arrived = [] → u.rif.fwd = [] → u.rif.tx = none →
      RifQuiet (ringRestart u).rif := by
    intro u ha hb hc hd
    unfold ringRestart enterRing
    rw [(ringToOutputs_hands _).rif]
    exact ⟨rfl, ha, hb, hc, hd⟩
  have h2 : ∀ u : State, (ringRestart u).capture = u.capture ∧ (ringRestart u).phase = u.phase := by
    intro u
    unfold ringRestart enterRing
    rw [(ringToOutputs_hands _).capture, (ringToOutputs_hands _).phase]
    exact ⟨rfl, rfl⟩
  have h3 : ∀ u : State, u.phase ≠ .loading → RifQuiet u.rif → u.capture = none →
      QuietUnlessLocked (supervisionRestart (wardenRestart (cadsRestart (outsRestart u)))) := by
    intro u ha hb hc
    unfold supervisionRestart windowRestart wardenRestart cadsRestart outsRestart setWarden
    exact quietUnlessLocked_of_quiet ha hb rfl hc
  have hr := (report_sounds (.warmRestart s.cmdQueue.length b) (emptyQueues s)).hands
  have hk := chansRestart_hands { report (.warmRestart s.cmdQueue.length b) (emptyQueues s) with
    capture := none }
  unfold restartEffect
  refine h3 _ ?_ (h1 _ ?_ ?_ ?_ ?_) ?_
  · rw [(h2 _).2, hk.phase]
    show (report (.warmRestart s.cmdQueue.length b) (emptyQueues s)).phase ≠ _
    rw [hr.phase]
    show s.phase ≠ _
    rw [hp]
    decide
  · rw [hk.rif, hr.rif]; rfl
  · rw [hk.rif, hr.rif]; rfl
  · rw [hk.rif, hr.rif]; rfl
  · rw [hk.rif, hr.rif]; rfl
  · rw [(h2 _).1, hk.capture]

theorem tick_rif (s : State) : (tick s).rif = s.rif := (tick_queues s).rif

theorem tick_phase (s : State) : (tick s).phase = s.phase := by
  simp only [tick, tickOuts, tickCads, tickChans, tickSlots, tickTalk, tickIsolation, tickStages]
  split <;> split <;> split <;> rfl

theorem tick_slot (s : State) : (tick s).warden.slot = s.warden.slot := by
  simp only [tick, tickOuts, tickCads, tickChans, tickSlots, tickTalk, tickIsolation, tickStages]
  split <;> split <;> split <;> rfl

theorem tick_quiet (s : State) (h : QuietUnlessLocked s) : QuietUnlessLocked (tick s) := by
  unfold QuietUnlessLocked at *
  rwa [tick_rif, tick_phase, tick_slot, (tick_queues s).capture]

theorem Move.quiet {c : Instr} {s t : State} (hm : Move c s t) (h : QuietUnlessLocked s) :
    QuietUnlessLocked t := by
  induction hm with
  | aside ht => rw [ht]; exact h.of rfl rfl rfl id
  | report b s => exact (report_onlyZones b s).quiet h
  | captureBegun q p slot ms s hn _ =>
    exact ⟨fun hr => absurd (captureRefusal_locked hn) hr, h.2⟩
  | captureEnded s => rw [endCapture_frame]; exact h.of rfl rfl rfl fun _ => rfl
  | captureSampled v s =>
    refine h.of ?_ ?_ ?_ fun hc => ?_
    case _ => rw [captureSample_frame]
    case _ => rw [captureSample_frame]
    case _ => rw [captureSample_frame]
    · simp only [captureSample, hc]
  | recorded r s _ _ _ _ => exact (updateLock_onlyZones _).quiet (h.of rfl rfl rfl id)
  | recordGone dz b s => exact (updateLock_onlyZones _).quiet (h.of rfl rfl rfl id)
  | offer z x s _ => exact (offer_onlyZones z x s).quiet h
  | removal z p s => exact (removal_onlyZones z p s).quiet h
  | started n s _ _ => exact (startChan_onlyZones n s).quiet h
  | begun n k s _ _ _ => exact (beginStep_onlyZones n k s).quiet h
  | zoneWritten z e s _ => exact spkWritten_quiet z _ e _ (h.of rfl rfl rfl id)
  | phraseWritten p e s _ _ => exact (phraseWritten_onlyZones p _).quiet (h.of rfl rfl rfl id)
  | programWritten n e e' s _ _ => exact (progWritten_onlyZones n e' _).quiet (h.of rfl rfl rfl id)
  | tableDone x s _ => rw [commitGoesOn_frame]; exact h.of rfl rfl rfl id
  | powerLost s =>
    rw [cutCommit_frame]
    exact ⟨h.1, fun hp => nomatch hp⟩
  | windowJudged s => rw [windowVerdicts_supervision s]; exact h.of rfl rfl rfl id
  | ringEntered st s hp hst =>
    exact enterRing_quiet st s (by rw [hp]; decide) (hst.imp_right h.outside)
  | ringLost s hp =>
    have hc := abortCapture_capture (enterRing .lost (leaveLocked s))
    have hz := ringToOutputs_hands (setRing .lost (leaveLocked s))
    refine quietUnlessLocked_of_quiet ?_ ?_ ?_ hc
    · rw [abortCapture_phase]
      unfold enterRing
      rw [hz.phase]
      show s.phase ≠ _
      rw [hp]; decide
    · rw [abortCapture_rif]
      unfold enterRing
      rw [hz.rif]
      exact ⟨rfl, rfl, rfl, rfl, rfl⟩
    · rw [abortCapture_warden]
      unfold enterRing
      rw [hz.warden]
      rfl
  | loaded s hp =>
    have hr : s.rif.ring ≠ .locked := by rw [h.2 hp]; decide
    refine enterRing_quiet .seeking _ ?_ (.inr ?_)
    · unfold load setRif; exact nofun
    · unfold load setRif; exact h.outside hr
  | restarted b s _ hp _ => exact restartEffect_quiet b s hp
  | cold b s t _ ht =>
    cases ht
    exact ⟨fun _ => ⟨rfl, rfl, rfl, rfl, rfl, rfl, rfl⟩, fun _ => rfl⟩
  | rif r s hk =>
    refine ⟨fun hn => ?_, fun hp => hk.ring.trans (h.2 hp)⟩
    have hn : s.rif.ring ≠ .locked := fun e => hn (hk.ring.trans e)
    obtain ⟨hr, hw, hc⟩ := h.outside hn
    obtain ⟨a, b, c, d, e⟩ := hk.quiet hn hr
    exact ⟨a, b, c, d, e, hw, hc⟩
  | warden w s hk =>
    refine ⟨fun hn => ?_, h.2⟩
    obtain ⟨⟨a, b, c, d, e⟩, hw, hc⟩ := h.outside hn
    refine ⟨a, b, c, d, e, ?_, hc⟩
    rcases hk with hk | hk | hk | hk
    · exact hk.trans hw
    · exact hk
    · exact absurd hw hk
    · exact absurd hk hn
  | ticked o s _ => exact tick_quiet s h
  | _ => exact h.of rfl rfl rfl id

/-- Settles O10: what enters LOCKED needs no quiet, every departure from it empties what it held, and outside it
no move gives the RIF, the slot or the capture anything. -/
theorem quietUnlessLockedKept : Obligations.QuietUnlessLockedKept := fun _ _ hs ht =>
  step_keeps (P := QuietUnlessLocked) (fun _ _ h => h.of rfl rfl rfl id)
    (fun _ _ _ hm h => hm.quiet h) hs ht

end Sys2Proof.Machine

namespace Sys2Proof.Machine

/-! ## Output records (R103, R104, R106, R109) -/

theorem setOut_other {y z : Zone} (h : y ≠ z) (o : ZoneOut) (s : State) :
    (setOut z o s).outs[y] = s.outs[y] := by
  have : z.val ≠ y.val := fun e => h (Fin.ext e.symm)
  simp [setOut, this]

theorem handOver_outs (z : Zone) (s : State) : (handOver z s).outs =
    (setOut z (outAfterWinner s.rif.ring (spk s z).trim s.lists[z].head? s.outs[z]) s).outs := by
  unfold handOver
  dsimp only
  split
  · rw [(arbiter_pool _).outs, (listenerChange_sounds _ _ _).outs]
  · rw [(listenerChange_sounds _ _ _).outs]

theorem handOver_self (z : Zone) (s : State) : (handOver z s).outs[z] =
    outAfterWinner s.rif.ring (spk s z).trim s.lists[z].head? s.outs[z] := by
  rw [handOver_outs, setOut_self]

theorem handOver_other {y z : Zone} (h : y ≠ z) (s : State) : (handOver z s).outs[y] = s.outs[y] := by
  rw [handOver_outs, setOut_other h]

theorem ringToZone_outs (y z : Zone) (s : State) : (ringToZone z s).outs[y] =
    if y = z ∧ zoneInUse s z = true then settleSource s.rif.ring s.outs[y] else s.outs[y] := by
  unfold ringToZone
  dsimp only
  by_cases hu : zoneInUse s z = true
  · rw [if_pos hu, (listenerChange_sounds _ _ _).outs]
    by_cases e : y = z
    · subst e
      rw [if_pos ⟨rfl, hu⟩, setOut_self]
    · rw [if_neg fun h => e h.1, setOut_other e]
  · rw [if_neg hu, if_neg fun h => hu h.2]

theorem ringToZones_outs (l : List Zone) (hl : l.Nodup) (z : Zone) (s : State) :
    (l.foldl (fun t z => ringToZone z t) s).outs[z] =
      if z ∈ l ∧ zoneInUse s z = true then settleSource s.rif.ring s.outs[z] else s.outs[z] := by
  induction l generalizing s with
  | nil => simp
  | cons y l ih =>
    obtain ⟨hy, hl⟩ := List.nodup_cons.1 hl
    have hf := ringToZone_hands y s
    have hu : zoneInUse (ringToZone y s) z = zoneInUse s z := by
      unfold zoneInUse spk
      rw [hf.work]
    rw [List.foldl_cons, ih hl, ringToZone_outs, hf.rif, hu]
    by_cases e : z = y
    · subst e
      simp [hy]
    · simp [e]

theorem nodup_allZones : allZones.Nodup := List.nodup_finRange 24

theorem mem_allZones (z : Zone) : z ∈ allZones := List.mem_finRange z

/-- A change of ring state settles the effective source of every zone in use, and of none other (R110). -/
theorem ringToOutputs_outs (z : Zone) (s : State) : (ringToOutputs s).outs[z] =
    if zoneInUse s z = true then settleSource s.rif.ring s.outs[z] else s.outs[z] := by
  have h := ringToZones_outs allZones nodup_allZones z s
  simp only [mem_allZones, true_and] at h
  exact h

/-- An output record agrees with a winner, a trim and a ring state. -/
def OutMatches (ring : RingState) (trim : Nat) (w : Option Claim) (o : ZoneOut) : Prop :=
  o.source = (match w with | some c => c.source | none => .none) ∧
  o.fallback = w.bind (fun c => c.fallback) ∧ o.prio = w.map (fun c => c.prio) ∧
  o.atten = w.map (fun c => c.atten) ∧ o.target = targetOf o.source o.prio o.atten trim ∧
  (o.effective, o.substituted) = effectiveOf ring o.source o.fallback

theorem outOk_iff (s : State) (z : Zone) :
    OutOk s z ↔ OutMatches s.rif.ring (spk s z).trim s.lists[z].head? s.outs[z] := Iff.rfl

theorem outAfterWinner_matches (ring : RingState) (trim : Nat) (w : Option Claim) (o : ZoneOut) :
    OutMatches ring trim w (outAfterWinner ring trim w o) := by
  cases w <;> exact ⟨rfl, rfl, rfl, rfl, rfl, rfl⟩

theorem mutedOut_matches (ring : RingState) (trim : Nat) : OutMatches ring trim none mutedOut :=
  ⟨rfl, rfl, rfl, rfl, rfl, rfl⟩

section
variable {ring ring' : RingState} {trim trim' : Nat} {w w' : Option Claim} {o : ZoneOut}

theorem OutMatches.settle (h : OutMatches ring trim w o) :
    OutMatches ring' trim w (settleSource ring' o) := by
  obtain ⟨h1, h2, h3, h4, h5, -⟩ := h
  exact ⟨h1, h2, h3, h4, h5, rfl⟩

theorem OutMatches.retarget (h : OutMatches ring trim w o) :
    OutMatches ring trim' w (retarget trim' o) := by
  obtain ⟨h1, h2, h3, h4, -, h6⟩ := h
  exact ⟨h1, h2, h3, h4, rfl, h6⟩

theorem OutMatches.current (h : OutMatches ring trim w o) (k : Nat) :
    OutMatches ring trim w { o with current := k } := h

/-- An output record follows the winner as R88 compares it, without its placement time. -/
theorem OutMatches.view (h : OutMatches ring trim w o) (e : w'.map winnerView = w.map winnerView) :
    OutMatches ring trim w' o := by
  have hv : ∀ x y : Claim, winnerView x = winnerView y →
      x.source = y.source ∧ x.fallback = y.fallback ∧ x.prio = y.prio ∧ x.atten = y.atten := by
    intro x y hxy
    injection hxy with _ h1 h2 h3 h4
    exact ⟨h1, h2, h3, h4⟩
  obtain ⟨h1, h2, h3, h4, h5, h6⟩ := h
  match w, w', e with
  | none, none, _ => exact ⟨h1, h2, h3, h4, h5, h6⟩
  | some x, some y, e =>
    obtain ⟨e1, e2, e3, e4⟩ := hv y x (Option.some.inj e)
    refine ⟨h1.trans e1.symm, h2.trans ?_, h3.trans ?_, h4.trans ?_, h5, h6⟩
    · simp [e2]
    · simp [e3]
    · simp [e4]

end

/-! ## Every output follows its zone -/

/-- The output of one zone follows its claim list, or is muted over an empty one where the zone is not in
use. -/
def ZoneFollows (s : State) (z : Zone) : Prop :=
  if zoneInUse s z then OutOk s z else s.lists[z] = [] ∧ s.outs[z] = mutedOut

theorem ZoneFollows.of {s t : State} {z : Zone} (h : ZoneFollows s z) (hl : t.lists[z] = s.lists[z])
    (ho : t.outs[z] = s.outs[z]) (hw : t.work.spk[z] = s.work.spk[z])
    (hr : t.rif.ring = s.rif.ring) : ZoneFollows t z := by
  unfold ZoneFollows OutOk zoneInUse spk at *
  rw [hl, ho, hw, hr]
  exact h

theorem OutputsFollow.quiet {s : State} (h : OutputsFollow s) {z : Zone}
    (hu : zoneInUse s z = false) : s.lists[z] = [] ∧ s.outs[z] = mutedOut := by
  have := h.1 z
  rwa [hu] at this

theorem OutputsFollow.outOk {s : State} (h : OutputsFollow s) {z : Zone}
    (hu : zoneInUse s z = true) : OutOk s z := by
  have := h.1 z
  rwa [if_pos hu] at this

theorem OutputsFollow.of {s t : State} (h : OutputsFollow s) (hl : t.lists = s.lists)
    (ho : t.outs = s.outs) (hw : t.work.spk = s.work.spk) (hr : t.rif.ring = s.rif.ring)
    (hp : t.phase = .loading → s.phase = .loading) (ha : s.acts = [] → t.acts = [] ∨ t.phase = .running) :
    OutputsFollow t := by
  refine ⟨fun z => ZoneFollows.of (h.1 z) (by rw [hl]) (by rw [ho]) (by rw [hw]) hr, fun e => ?_⟩
  obtain ⟨h1, h2⟩ := h.2 (hp e)
  rw [hl, ho]
  exact ⟨(ha h1).resolve_right fun e' => by simp [e] at e', h2⟩

theorem OutputsFollow.work {s : State} {w : Tables} (h : OutputsFollow s) (hw : w.spk = s.work.spk) :
    OutputsFollow { s with work := w } := h.of rfl rfl hw rfl id .inl

theorem SoundsOnly.follow {s t : State} (h : SoundsOnly s t) (hs : OutputsFollow s) : OutputsFollow t :=
  hs.of h.hands.lists h.outs (by rw [h.hands.work]) (by rw [h.hands.rif]) (by rw [h.hands.phase]; exact id)
    (by rw [h.hands.acts]; exact .inl)

theorem PoolOnly.follow {s t : State} (h : PoolOnly s t) (hs : OutputsFollow s) : OutputsFollow t :=
  hs.of h.hands.lists h.outs (by rw [h.hands.work]) (by rw [h.hands.rif]) (by rw [h.hands.phase]; exact id)
    (by rw [h.hands.acts]; exact .inl)

theorem updateLock_follow (s : State) (h : OutputsFollow s) : OutputsFollow (updateLock s) :=
  h.of (updateLock_lists s) (updateLock_outs s) (by rw [updateLock_work]) (by rw [updateLock_rif])
    (by rw [updateLock_phase]; exact id) (by rw [updateLock_acts]; exact .inl)

/-- A change of one list in use, settled, leaves every output following its zone (R88, R103). -/
theorem settle_follow {z : Zone} {f : State → State} {s : State} (h : OutputsFollow s)
    (hp : s.phase ≠ .loading) (hu : zoneInUse s z = true) (hf : ListOnly z s (f s)) :
    OutputsFollow (settle z f s) := by
  obtain ⟨hfr, hoth⟩ := hf
  have ho : (f s).outs = s.outs := by rw [hfr]
  have hw : (f s).work = s.work := by rw [hfr]
  have hr : (f s).rif = s.rif := by rw [hfr]
  have hph : (f s).phase = s.phase := by rw [hfr]
  have hu' : zoneInUse (f s) z = true := by unfold zoneInUse spk; rw [hw]; exact hu
  have hother : ∀ y : Zone, y ≠ z → ZoneFollows (f s) y := fun y hy =>
    ZoneFollows.of (h.1 y) (hoth y hy) (by rw [ho]) (by rw [hw]) (by rw [hr])
  unfold settle
  apply updateLock_follow
  split
  next he =>
    refine ⟨fun y => ?_, fun e => absurd (hph.symm.trans e) hp⟩
    by_cases hy : y = z
    · subst hy
      rw [if_pos hu', outOk_iff, hr, ho]
      unfold spk
      rw [hw]
      exact OutMatches.view (h.outOk hu) he
    · exact hother y hy
  next hne =>
    have hh := handOver_hands z (f s)
    refine ⟨fun y => ?_, fun e => absurd ((hh.phase.trans hph).symm.trans e) hp⟩
    by_cases hy : y = z
    · subst hy
      have hu2 : zoneInUse (handOver y (f s)) y = true := by unfold zoneInUse spk; rw [hh.work]; exact hu'
      rw [if_pos hu2, outOk_iff, handOver_self, hh.rif, hh.lists]
      unfold spk
      rw [hh.work]
      exact outAfterWinner_matches _ _ _ _
    · exact ZoneFollows.of (hother y hy) (by rw [hh.lists]) (handOver_other hy _) (by rw [hh.work])
        (by rw [hh.rif])

theorem offerCore_unused {z : Zone} {s : State} (hu : zoneInUse s z = false) (c : Claim) :
    offerCore z c s = (s, false) := by
  unfold offerCore
  simp [hu]

theorem offer_unused {z : Zone} {s : State} (hu : zoneInUse s z = false) (c : Claim) :
    offer z c s = updateLock s := by
  unfold offer settle
  simp [offerCore_unused hu]

theorem offer_follow (z : Zone) (c : Claim) (s : State) (hlive : Live s) (h : OutputsFollow s) :
    OutputsFollow (offer z c s) := by
  by_cases hu : zoneInUse s z = true
  · exact settle_follow h (fun e => hlive e (h.2 e).1) hu ((listOnly_listRel z).offered c s)
  · rw [offer_unused (by simpa using hu)]
    exact updateLock_follow s h

theorem removal_follow (z : Zone) (p : Claim → Bool) (s : State) (h : OutputsFollow s) :
    OutputsFollow (removal z p s) := by
  unfold removal
  split
  next ha =>
    have hne : s.lists[z] ≠ [] := fun e => by rw [e] at ha; cases ha
    have hu : zoneInUse s z = true := by
      by_contra hu
      exact hne (h.quiet (by simpa using hu)).1
    exact settle_follow h (fun e => hne ((h.2 e).2 z).1) hu ((listOnly_listRel z).removed p s)
  · exact h

/-- A state over the same lists and zones whose outputs have been settled for its ring state. -/
theorem settled_follow {s t : State} (h : OutputsFollow s) (hp : t.phase ≠ .loading)
    (hl : t.lists = s.lists) (hw : t.work.spk = s.work.spk)
    (ho : ∀ z : Zone, t.outs[z] = if zoneInUse s z = true then settleSource t.rif.ring s.outs[z]
      else s.outs[z]) : OutputsFollow t := by
  have huse : ∀ z, zoneInUse t z = zoneInUse s z := fun z => by unfold zoneInUse spk; rw [hw]
  refine ⟨fun z => ?_, fun e => absurd e hp⟩
  rw [huse]
  split
  next hu =>
    rw [outOk_iff, ho, if_pos hu, hl]
    unfold spk
    rw [hw]
    exact OutMatches.settle (h.outOk hu)
  next hu =>
    rw [ho, if_neg hu, hl]
    exact h.quiet (by simpa using hu)

theorem enterRing_follow (st : RingState) (s : State) (hp : s.phase ≠ .loading) (h : OutputsFollow s) :
    OutputsFollow (enterRing st s) := by
  have hh := ringToOutputs_hands (setRing st s)
  unfold enterRing
  refine settled_follow h (by rw [hh.phase]; exact hp) hh.lists (by rw [hh.work]; rfl) fun z => ?_
  rw [ringToOutputs_outs, hh.rif]
  rfl

end Sys2Proof.Machine

namespace Sys2Proof.Machine

/-- A state without claims, every output muted, in which the outputs follow whatever zones are in use. -/
theorem follow_of_silent {s : State} (h : ∀ z : Zone, s.lists[z] = [] ∧ s.outs[z] = mutedOut)
    (ha : s.phase = .loading → s.acts = []) : OutputsFollow s := by
  refine ⟨fun z => ?_, fun e => ⟨ha e, h⟩⟩
  obtain ⟨hl, ho⟩ := h z
  split
  · rw [outOk_iff, hl, ho]
    exact mutedOut_matches _ _
  · exact h z

theorem load_follow (s : State) (hp : s.phase = .loading) (h : OutputsFollow s) :
    OutputsFollow (enterRing .seeking (load s)) := by
  have hl : (load s).lists = s.lists := by unfold load setRif; rfl
  have ho : (load s).outs = s.outs := by unfold load setRif; rfl
  have hr : (load s).phase = .running := by unfold load setRif; rfl
  refine enterRing_follow _ _ (by rw [hr]; decide) (follow_of_silent (fun z => ?_) fun e => ?_)
  · rw [hl, ho]
    exact (h.2 hp).2 z
  · rw [hr] at e
    cases e

/-! ## A Speaker Zone Map write (R8) -/

theorem putEntry_spk_self (z : Zone) (e : SpkZone) (w : Tables) :
    (putEntry z.val (.spkZone e) w).spk[z] = e := by
  simp [putEntry, updNat]

theorem putEntry_spk_other {y z : Zone} (h : y ≠ z) (e : SpkZone) (w : Tables) :
    (putEntry z.val (.spkZone e) w).spk[y] = w.spk[y] := by
  have : z.val ≠ y.val := fun e => h (Fin.ext e.symm)
  simp [putEntry, updNat, this]

theorem zoneLeaves_outs (z : Zone) (s : State) : (zoneLeaves z s).outs =
    (setOut z mutedOut s).outs := by
  unfold zoneLeaves
  dsimp only
  rw [updateLock_outs, (arbiter_pool _).outs]
  exact (listenerChange_sounds _ _ _).outs

theorem zoneLeaves_lists (z : Zone) (s : State) : (zoneLeaves z s).lists = (setList z [] s).lists := by
  unfold zoneLeaves
  dsimp only
  rw [updateLock_lists, (arbiter_pool _).hands.lists]
  exact (listenerChange_sounds _ _ _).hands.lists

theorem zoneLeaves_frame (z : Zone) (s : State) : (zoneLeaves z s).work = s.work ∧
    (zoneLeaves z s).rif = s.rif ∧ (zoneLeaves z s).phase = s.phase ∧ (zoneLeaves z s).acts = s.acts := by
  unfold zoneLeaves
  dsimp only
  rw [updateLock_work, updateLock_rif, updateLock_phase, updateLock_acts, (arbiter_pool _).hands.work,
    (arbiter_pool _).hands.rif, (arbiter_pool _).hands.phase, (arbiter_pool _).hands.acts]
  have h := (listenerChange_sounds s.outs[z].effective .none (setOut z mutedOut (setList z [] s))).hands
  exact ⟨h.work, h.rif, h.phase, h.acts⟩

/-- What a write that changes an entry in use leaves as it was before the write. -/
theorem spkChanged_frame (z : Zone) (a b : SpkZone) (s : State) :
    let t := eligibleChange a b (lineCfgChange z a b (trimChange z a b s))
    t.outs = (trimChange z a b s).outs ∧ t.lists = s.lists ∧ t.work = s.work ∧ t.rif = s.rif ∧
      t.phase = s.phase ∧ t.acts = s.acts := by
  have h1 := lineCfgChange_supervision z a b (trimChange z a b s)
  have h2 := eligibleChange_pool a b (lineCfgChange z a b (trimChange z a b s))
  have h3 : (trimChange z a b s).lists = s.lists ∧ (trimChange z a b s).work = s.work ∧
      (trimChange z a b s).rif = s.rif ∧ (trimChange z a b s).phase = s.phase ∧
      (trimChange z a b s).acts = s.acts := by
    unfold trimChange
    split <;> exact ⟨rfl, rfl, rfl, rfl, rfl⟩
  intro t
  refine ⟨?_, ?_, ?_, ?_, ?_, ?_⟩
  · rw [h2.outs, h1]
  · rw [h2.hands.lists, h1]; exact h3.1
  · rw [h2.hands.work, h1]; exact h3.2.1
  · rw [h2.hands.rif, h1]; exact h3.2.2.1
  · rw [h2.hands.phase, h1]; exact h3.2.2.2.1
  · rw [h2.hands.acts, h1]; exact h3.2.2.2.2

theorem trimChange_self (z : Zone) (a b : SpkZone) (s : State) : (trimChange z a b s).outs[z] =
    if a.trim = b.trim then s.outs[z] else retarget b.trim s.outs[z] := by
  unfold trimChange
  split
  · rfl
  · exact setOut_self z _ s

/-- A zone's own entry changes: a zone other than `z` is as before the write. -/
theorem spkWritten_follow (z : Zone) (e : SpkZone) (s : State) (hp : s.phase = .running)
    (h : OutputsFollow s) :
    OutputsFollow (spkWritten z s.work.spk[z] e { s with work := putEntry z.val (.spkZone e) s.work }) := by
  generalize hw : { s with work := putEntry z.val (.spkZone e) s.work } = w
  have hl : w.lists = s.lists := by rw [← hw]
  have ho : w.outs = s.outs := by rw [← hw]
  have hr : w.rif = s.rif := by rw [← hw]
  have hph : w.phase = .running := by rw [← hw]; exact hp
  have hself : w.work.spk[z] = e := by rw [← hw]; exact putEntry_spk_self z e s.work
  have hoth : ∀ y, y ≠ z → w.work.spk[y] = s.work.spk[y] := fun y hy => by
    rw [← hw]; exact putEntry_spk_other hy e s.work
  have hrest : ∀ (t : State) (y : Zone), y ≠ z → t.work = w.work → t.rif = w.rif →
      t.lists[y] = w.lists[y] → t.outs[y] = w.outs[y] → ZoneFollows t y := by
    intro t y hy h1 h2 h3 h4
    exact ZoneFollows.of (h.1 y) (h3.trans (by rw [hl])) (h4.trans (by rw [ho]))
      (by rw [h1]; exact hoth y hy) (by rw [h2, hr])
  have hrun : ∀ t : State, t.phase = w.phase → t.phase ≠ .loading := fun t e => by
    rw [e, hph]; decide
  unfold spkWritten
  split
  next h1 h2 =>
    obtain ⟨f1, f2, f3, -⟩ := zoneLeaves_frame z w
    refine ⟨fun y => ?_, fun e => absurd e (hrun _ f3)⟩
    by_cases hy : y = z
    · subst hy
      rw [if_neg]
      · rw [zoneLeaves_lists, zoneLeaves_outs, setList_self, setOut_self]
        exact ⟨rfl, rfl⟩
      · unfold zoneInUse spk
        rw [f1, hself, h2]
        decide
    · refine hrest _ y hy f1 f2 ?_ ?_
      · rw [zoneLeaves_lists, setList_other hy]
      · rw [zoneLeaves_outs, setOut_other hy]
  next h1 h2 =>
    refine ⟨fun y => ?_, fun e => absurd e (hrun _ rfl)⟩
    by_cases hy : y = z
    · subst hy
      obtain ⟨q1, q2⟩ := h.quiet (z := y) h1
      rw [if_pos, outOk_iff]
      · show OutMatches w.rif.ring _ w.lists[y].head? w.outs[y]
        rw [hl, ho, q1, q2]
        exact mutedOut_matches _ _
      · unfold zoneInUse spk zoneEnters
        rw [hself]
        exact h2
    · exact hrest _ y hy rfl rfl rfl rfl
  next h1 h2 =>
    obtain ⟨f0, f1, f2, f3, f4, -⟩ := spkChanged_frame z s.work.spk[z] e w
    refine ⟨fun y => ?_, fun e => absurd e (hrun _ f4)⟩
    by_cases hy : y = z
    · subst hy
      rw [if_pos, outOk_iff, f0, f1, f3]
      · unfold spk
        rw [f2, hself, hl, hr]
        rw [trimChange_self, ho]
        split
        next ht => exact ht ▸ h.outOk (z := y) h1
        next ht => exact OutMatches.retarget (h.outOk (z := y) h1)
      · unfold zoneInUse spk
        rw [f2, hself]
        exact h2
    · refine hrest _ y hy f2 f3 (by rw [f1]) ?_
      rw [f0]
      unfold trimChange
      split
      · rfl
      · exact setOut_other hy _ _
  next h1 h2 =>
    refine ⟨fun y => ?_, fun e => absurd e (hrun _ rfl)⟩
    by_cases hy : y = z
    · subst hy
      obtain ⟨q1, q2⟩ := h.quiet (z := y) h1
      rw [if_neg, hl, ho]
      · exact ⟨q1, q2⟩
      · unfold zoneInUse spk
        rw [hself, h2]
        decide
    · exact hrest _ y hy rfl rfl rfl rfl

/-! ## RESTART_EFFECT (R114, R204) -/

/-- The state in which the channels of a RESTART begin again: the queues emptied, WARM RESTART told, no
capture. -/
def restartBegun (b : Bool) (s : State) : State :=
  { report (.warmRestart s.cmdQueue.length b) (emptyQueues s) with capture := none }

theorem restartEffect_eq (b : Bool) (s : State) : restartEffect b s =
    supervisionRestart (wardenRestart (cadsRestart (outsRestart (ringRestart
      (chansRestart (restartBegun b s)))))) := rfl

theorem restartBegun_frame (b : Bool) (s : State) : (restartBegun b s).lists = s.lists ∧
    (restartBegun b s).outs = s.outs ∧ (restartBegun b s).work = s.work ∧
    (restartBegun b s).phase = s.phase ∧ (restartBegun b s).chans = s.chans ∧
    (restartBegun b s).cads = s.cads ∧ (restartBegun b s).store = s.store ∧
    (restartBegun b s).acts = s.acts := by
  have h := report_sounds (.warmRestart s.cmdQueue.length b) (emptyQueues s)
  unfold restartBegun
  refine ⟨h.hands.lists, h.outs, h.hands.work, h.hands.phase, report_chans _ _, report_cads _ _,
    h.hands.store, h.hands.acts⟩

theorem chansRestart_sounds (s : State) : SoundsOnly s (chansRestart s) := by
  unfold chansRestart
  generalize List.finRange 4 = l
  induction l generalizing s with
  | nil => exact .refl s
  | cons n l ih => exact (chanRestart_sounds n s).trans (ih _)

theorem restartTail_frame (s : State) :
    let t := supervisionRestart (wardenRestart (cadsRestart (outsRestart s)))
    t.lists = s.lists ∧ t.work = s.work ∧ t.phase = s.phase ∧ t.rif = s.rif ∧ t.chans = s.chans ∧
      t.outs = (outsRestart s).outs ∧ t.cads = (cadsRestart s).cads ∧ t.acts = s.acts ∧
      t.serving = Vector.replicate 2 none := by
  unfold supervisionRestart windowRestart wardenRestart cadsRestart outsRestart setWarden
  exact ⟨rfl, rfl, rfl, rfl, rfl, rfl, rfl, rfl, rfl⟩

/-- The RIF in SEEKING with its runs of frames begun anew and no isolation (R195, R204). -/
def ringAnew (s : State) : State :=
  setRing .seeking
    (setRif (fun r => { r with run := 0, runStart := none, heard := silentSlots, passing := false })
      { endIsolation s with msDue := false, sampleTimes := 0 })

theorem ringRestart_eq (s : State) : ringRestart s = ringToOutputs (ringAnew s) := rfl

theorem ringAnew_frame (s : State) : (ringAnew s).lists = s.lists ∧ (ringAnew s).outs = s.outs ∧
    (ringAnew s).work = s.work ∧ (ringAnew s).phase = s.phase ∧ (ringAnew s).chans = s.chans ∧
    (ringAnew s).cads = s.cads ∧ (ringAnew s).rif.ring = .seeking ∧ (ringAnew s).acts = s.acts :=
  ⟨rfl, rfl, rfl, rfl, rfl, rfl, rfl, rfl⟩

theorem outsRestart_outs (z : Zone) (s : State) :
    (outsRestart s).outs[z] = { s.outs[z] with current := Config.muted } := by
  simp [outsRestart, updAll]

theorem restartEffect_outs (b : Bool) (s : State) (z : Zone) : (restartEffect b s).outs[z] =
    { (if zoneInUse s z = true then settleSource .seeking s.outs[z] else s.outs[z]) with
      current := Config.muted } := by
  obtain ⟨-, -, -, -, -, h, -⟩ := restartTail_frame (ringRestart (chansRestart (restartBegun b s)))
  obtain ⟨-, h1, h2, -, -, -, h3, -⟩ := ringAnew_frame (chansRestart (restartBegun b s))
  obtain ⟨-, g1, g2, -⟩ := restartBegun_frame b s
  have k := chansRestart_sounds (restartBegun b s)
  rw [restartEffect_eq, h, outsRestart_outs, ringRestart_eq, ringToOutputs_outs, h3, h1, k.outs, g1]
  unfold zoneInUse spk
  rw [h2, k.hands.work, g2]

theorem restartEffect_frame (b : Bool) (s : State) : (restartEffect b s).lists = s.lists ∧
    (restartEffect b s).work = s.work ∧ (restartEffect b s).phase = s.phase ∧
    (restartEffect b s).rif.ring = .seeking := by
  obtain ⟨t1, t2, t3, t4, -⟩ := restartTail_frame (ringRestart (chansRestart (restartBegun b s)))
  obtain ⟨h1, -, h2, h3, -, -, h4, -⟩ := ringAnew_frame (chansRestart (restartBegun b s))
  obtain ⟨g1, -, g2, g3, -⟩ := restartBegun_frame b s
  have k := (chansRestart_sounds (restartBegun b s)).hands
  have r := ringToOutputs_hands (ringAnew (chansRestart (restartBegun b s)))
  rw [restartEffect_eq, t1, t2, t3, t4, ringRestart_eq, r.lists, r.work, r.phase, r.rif, h1, h2, h3, h4, k.lists,
    k.work, k.phase, g1, g2, g3]
  exact ⟨rfl, rfl, rfl, rfl⟩

theorem mutedOut_again : { mutedOut with current := Config.muted } = mutedOut := rfl

theorem restartEffect_follow (b : Bool) (s : State) (hp : s.phase = .running) (h : OutputsFollow s) :
    OutputsFollow (restartEffect b s) := by
  obtain ⟨f1, f2, f3, f4⟩ := restartEffect_frame b s
  have huse : ∀ z, zoneInUse (restartEffect b s) z = zoneInUse s z := fun z => by
    unfold zoneInUse spk; rw [f2]
  refine ⟨fun z => ?_, fun e => by rw [f3, hp] at e; cases e⟩
  rw [huse]
  split
  next hu =>
    rw [outOk_iff, restartEffect_outs, if_pos hu, f1, f4]
    unfold spk
    rw [f2]
    exact OutMatches.current (OutMatches.settle (h.outOk hu)) _
  next hu =>
    obtain ⟨q1, q2⟩ := h.quiet (z := z) (by simpa using hu)
    rw [restartEffect_outs, if_neg hu, f1, q1, q2]
    exact ⟨rfl, mutedOut_again⟩

/-! ## The millisecond -/

theorem tick_outs (s : State) : (tick s).outs = updAll s.outs tickOut := by
  simp only [tick, tickOuts, tickCads, tickChans, tickSlots, tickTalk, tickIsolation, tickStages]
  split <;> split <;> split <;> rfl

theorem tick_work (s : State) : (tick s).work = s.work := by
  simp only [tick, tickOuts, tickCads, tickChans, tickSlots, tickTalk, tickIsolation, tickStages]
  split <;> split <;> split <;> rfl

theorem updAll_get {α β : Type} {n : Nat} (v : Vector α n) (f : α → β) (i : Fin n) :
    (updAll v f)[i] = f v[i] := by
  simp [updAll]

theorem tickOut_muted : tickOut mutedOut = mutedOut := rfl

theorem tick_follow (s : State) (h : OutputsFollow s) : OutputsFollow (tick s) := by
  have huse : ∀ z, zoneInUse (tick s) z = zoneInUse s z := fun z => by
    unfold zoneInUse spk; rw [tick_work]
  have hout : ∀ z : Zone, (tick s).outs[z] = tickOut s.outs[z] := fun z => by
    rw [tick_outs, updAll_get]
  refine ⟨fun z => ?_, fun e => ?_⟩
  · rw [huse]
    split
    next hu =>
      rw [outOk_iff, hout, tick_rif, tick_lists]
      unfold spk
      rw [tick_work]
      exact OutMatches.current (h.outOk hu) _
    next hu =>
      obtain ⟨q1, q2⟩ := h.quiet (z := z) (by simpa using hu)
      rw [hout, tick_lists, q1, q2]
      exact ⟨rfl, tickOut_muted⟩
  · obtain ⟨h1, h2⟩ := h.2 ((tick_phase s).symm.trans e)
    refine ⟨?_, fun z => ?_⟩
    · rw [tick_acts, h1]
      exact ite_self _
    · rw [hout, tick_lists, (h2 z).1, (h2 z).2]
      exact ⟨rfl, tickOut_muted⟩

theorem coldState_silent (p : Pins) (nv : Tables) (ok : Vector Bool 12) (st : Store)
    (a : Vector Bool 24) (b : Vector Bool 2) (q : List Instr) (z : Zone) :
    (coldState p nv ok st a b q).lists[z] = [] ∧ (coldState p nv ok st a b q).outs[z] = mutedOut := by
  unfold coldState
  exact ⟨Vector.getElem_replicate _, Vector.getElem_replicate _⟩

theorem Move.follow {c : Instr} {s t : State} (hm : Move c s t) (h : OutputsFollow s) :
    OutputsFollow t := by
  induction hm with
  | aside ht => rw [ht]; exact h.of rfl rfl rfl rfl id .inl
  | report b s => exact (report_sounds b s).follow h
  | captureBegun q p slot ms s _ _ => exact h.of rfl rfl rfl rfl id .inl
  | captureEnded s => rw [endCapture_frame]; exact h.of rfl rfl rfl rfl id .inl
  | captureSampled v s => rw [captureSample_frame]; exact h.of rfl rfl rfl rfl id .inl
  | records l s he _ => exact h.of rfl rfl rfl rfl id fun ha => .inl (he.2 ha)
  | recorded r s hp _ _ _ => exact updateLock_follow _ (h.of rfl rfl rfl rfl id fun _ => .inr hp)
  | recordGone dz b s =>
    exact updateLock_follow _ (h.of rfl rfl rfl rfl id fun ha => .inl (by rw [ha]; rfl))
  | offer z x s hl => exact offer_follow z x s hl h
  | removal z p s => exact removal_follow z p s h
  | started n s _ _ => exact (startChan_sounds n s).follow h
  | begun n k s _ _ _ => exact (beginStep_sounds n k s).follow h
  | stopped n st s _ _ => exact (stopChan_sounds n st s).follow h
  | tables w s h1 _ _ _ => exact h.work h1
  | zoneWritten z e s hp => exact spkWritten_follow z e s hp h
  | cadenceWritten n e s => exact h.of rfl rfl rfl rfl id .inl
  | phraseWritten p e s hp _ =>
    exact phraseWritten_keeps (fun n st s h => (stopChan_sounds n st s).follow h)
      (fun n k s h => (beginStep_sounds n k s).follow h) removal_follow p _ (h.work rfl)
  | programWritten n e e' s _ _ => exact (progWritten_sounds n e' _).follow (h.work rfl)
  | tableDone x s _ => rw [commitGoesOn_frame]; exact h.of rfl rfl rfl rfl id .inl
  | powerLost s =>
    rw [cutCommit_frame]
    exact h.of rfl rfl rfl rfl (fun e => nomatch e) .inl
  | windowJudged s => rw [windowVerdicts_supervision s]; exact h.of rfl rfl rfl rfl id .inl
  | ringEntered st s hp _ => exact enterRing_follow st s (by rw [hp]; decide) h
  | ringLost s hp =>
    have h1 : OutputsFollow (leaveLocked s) := h.of rfl rfl rfl rfl id .inl
    exact (enterRing_follow .lost _ (by show s.phase ≠ _; rw [hp]; decide) h1).of (abortCapture_lists _)
      (abortCapture_outs _) (by rw [abortCapture_work]) (by rw [abortCapture_rif])
      (by rw [abortCapture_phase]; exact id) (by rw [abortCapture_acts]; exact .inl)
  | loaded s hp => exact load_follow s hp h
  | restarted b s _ hp _ => exact restartEffect_follow b s hp h
  | cold b s t _ ht =>
    cases ht
    exact follow_of_silent (coldState_silent _ _ _ _ _ _ _) fun _ => rfl
  | rif r s hk => exact h.of rfl rfl rfl hk.ring id .inl
  | ticked o s _ => exact tick_follow s h
  | _ => exact h.of rfl rfl rfl rfl id .inl

end Sys2Proof.Machine

namespace Sys2Proof.Machine

/-! ## Changes of the current attenuation (R108, R109) -/

/-- A record's current attenuation stays, or is put to 120, as it is by a change of effective source. -/
def OutFades (o o' : ZoneOut) : Prop :=
  (o'.effective ≠ o.effective → o'.current = 120) ∧ (o'.current = o.current ∨ o'.current = 120)

/-- From `s` to `t` no current attenuation has moved but to 120, where a change of effective source puts
it. -/
def Fades (s t : State) : Prop := ∀ z : Zone, OutFades s.outs[z] t.outs[z]

theorem OutFades.refl (o : ZoneOut) : OutFades o o := ⟨fun h => absurd rfl h, .inl rfl⟩

theorem OutFades.trans {a b c : ZoneOut} (h : OutFades a b) (g : OutFades b c) : OutFades a c := by
  obtain ⟨h1, h2⟩ := h
  obtain ⟨g1, g2⟩ := g
  refine ⟨fun he => ?_, ?_⟩
  · by_cases e : c.effective = b.effective
    · rcases g2 with g2 | g2
      · rw [g2]
        exact h1 (by rw [← e]; exact he)
      · exact g2
    · exact g1 e
  · rcases g2 with g2 | g2
    · rw [g2]; exact h2
    · exact .inr g2

theorem settleSource_fades (ring : RingState) (o : ZoneOut) : OutFades o (settleSource ring o) := by
  unfold settleSource
  by_cases e : (effectiveOf ring o.source o.fallback).1 = o.effective
  · exact ⟨fun h => absurd e h, .inl (if_pos e)⟩
  · exact ⟨fun _ => if_neg e, .inr (if_neg e)⟩

theorem outAfterWinner_fades (ring : RingState) (trim : Nat) (w : Option Claim) (o : ZoneOut) :
    OutFades o (outAfterWinner ring trim w o) := by
  have h := settleSource_fades ring (winnerFields w o)
  cases w <;> exact h

theorem Fades.same {s t : State} (h : t.outs = s.outs) : Fades s t := fun z => by
  rw [h]
  exact .refl _

theorem Fades.refl (s : State) : Fades s s := .same rfl

theorem Fades.trans {s t u : State} (h : Fades s t) (g : Fades t u) : Fades s u :=
  fun z => (h z).trans (g z)

theorem setOut_fades (z : Zone) (o : ZoneOut) (s : State) (h : OutFades s.outs[z] o) :
    Fades s (setOut z o s) := by
  intro y
  by_cases e : y = z
  · subst e
    rw [setOut_self]
    exact h
  · rw [setOut_other e]
    exact .refl _

theorem handOver_fades (z : Zone) (s : State) : Fades s (handOver z s) := by
  have h := setOut_fades z _ s (outAfterWinner_fades s.rif.ring (spk s z).trim s.lists[z].head? s.outs[z])
  intro y
  rw [handOver_outs]
  exact h y

theorem ringToOutputs_fades (s : State) : Fades s (ringToOutputs s) := by
  intro z
  rw [ringToOutputs_outs]
  split
  · exact settleSource_fades _ _
  · exact .refl _

theorem SoundsOnly.fades {s t : State} (h : SoundsOnly s t) : Fades s t := .same h.outs

theorem fades_zoneRel : ZoneRel Fades where
  list z := {
    refl := .refl
    trans := .trans
    core := fun c s => by
      obtain ⟨hf, -⟩ := offerCore_listOnly z c s
      exact .same (by rw [hf])
    cut := fun _ s => .same rfl }
  hand := handOver_fades
  lock s := .same (updateLock_outs s)

theorem enterRing_fades (st : RingState) (s : State) : Fades s (enterRing st s) := by
  intro z
  exact ringToOutputs_fades (setRing st s) z

theorem spkWritten_fades (z : Zone) (a b : SpkZone) (s : State) : Fades s (spkWritten z a b s) := by
  unfold spkWritten
  split
  · intro y
    rw [zoneLeaves_outs]
    exact setOut_fades z mutedOut s ⟨fun _ => rfl, .inr rfl⟩ y
  · exact .same rfl
  · obtain ⟨f, -⟩ := spkChanged_frame z a b s
    intro y
    rw [f]
    unfold trimChange
    split
    · exact .refl _
    · exact setOut_fades z (retarget b.trim s.outs[z]) s ⟨fun h => absurd rfl h, .inl rfl⟩ y
  · exact .refl s

theorem restartEffect_fades (b : Bool) (s : State) : Fades s (restartEffect b s) := by
  intro z
  rw [restartEffect_outs]
  exact ⟨fun _ => rfl, .inr rfl⟩

theorem Move.fades {c : Instr} {s t : State} (hc : ∀ o, c ≠ .timebaseMillisecond o)
    (hm : Move c s t) : Fades s t := by
  induction hm with
  | aside ht => rw [ht]; exact .same rfl
  | report b s => exact (report_sounds b s).fades
  | captureEnded s => rw [endCapture_frame]; exact .same rfl
  | captureSampled v s => rw [captureSample_frame]; exact .same rfl
  | recorded r s _ _ _ _ => exact .same (updateLock_outs _)
  | recordGone dz b s => exact .same (updateLock_outs _)
  | offer z x s _ => exact fades_zoneRel.offer z x s
  | removal z p s => exact fades_zoneRel.removal z p s
  | started n s _ _ => exact (startChan_sounds n s).fades
  | begun n k s _ _ _ => exact (beginStep_sounds n k s).fades
  | zoneWritten z e s _ =>
    exact spkWritten_fades z _ e { s with work := putEntry z.val (.spkZone e) s.work }
  | phraseWritten p e s _ _ =>
    exact fades_zoneRel.phraseWritten (fun n st s => (stopChan_sounds n st s).fades)
      (fun n k s => (beginStep_sounds n k s).fades) p
      { s with work := putEntry p (.phrase e) s.work }
  | programWritten n e e' s _ _ =>
    exact (progWritten_sounds n e' { s with work := putEntry n.val (.program e') s.work }).fades
  | tableDone x s _ => rw [commitGoesOn_frame]; exact .same rfl
  | powerLost s => rw [cutCommit_frame]; exact .same rfl
  | windowJudged s => rw [windowVerdicts_supervision s]; exact .same rfl
  | ringEntered st s _ _ => exact enterRing_fades st s
  | ringLost s _ =>
    refine Fades.trans ?_ (.same (abortCapture_outs _))
    exact enterRing_fades .lost (leaveLocked s)
  | loaded s _ =>
    have h : Fades s (load s) := .same (by unfold load setRif; rfl)
    exact h.trans (enterRing_fades .seeking _)
  | restarted b s _ _ _ => exact restartEffect_fades b s
  | cold b s t _ ht =>
    cases ht
    intro z
    rw [(coldState_silent _ _ _ _ _ _ _ z).2]
    exact ⟨fun _ => rfl, .inr rfl⟩
  | ticked o s hc' => exact absurd hc' (hc o)
  | _ => exact .same rfl

theorem exec_fades {c : Instr} {s t : State} (hc : ∀ o, c ≠ .timebaseMillisecond o)
    (h : exec c s = .next t) : Fades s t := by
  have hm := exec_moves h
  clear h
  induction hm with
  | refl => exact .refl s
  | tail _ hm ih => exact ih.trans (hm.fades hc)

/-- Settles O11: a settled winner change and a settled ring state leave the record agreeing with its zone, and
every change of effective source goes through the settling that puts the attenuation to 120. -/
theorem outputsFollowKept : Obligations.OutputsFollowKept :=
  ⟨fun _ _ hs ht => step_keeps (P := OutputsFollow) (fun _ _ h => h.of rfl rfl rfl rfl id .inl)
    (fun _ _ _ hm h => hm.follow h) hs ht, fun _ _ _ z hc h => exec_fades hc h z⟩

end Sys2Proof.Machine

namespace Sys2Proof.Machine

/-! ## Entries of a table -/

section
variable {α : Type} {n : Nat}

theorem upd_self (v : Vector α n) (i : Fin n) (f : α → α) : (upd v i f)[i] = f v[i] := by
  simp [upd]

theorem vector_set_other {i j : Fin n} (h : j ≠ i) (v : Vector α n) (x : α) : (v.set i x)[j] = v[j] := by
  have : i.val ≠ j.val := fun e => h (Fin.ext e.symm)
  simp [this]

theorem vector_set_self (v : Vector α n) (i : Fin n) (x : α) : (v.set i x)[i] = x := by simp

theorem upd_other {i j : Fin n} (h : j ≠ i) (v : Vector α n) (f : α → α) : (upd v i f)[j] = v[j] :=
  vector_set_other h v _

theorem vector_ext_fin {v w : Vector α n} (h : ∀ i : Fin n, v[i] = w[i]) : v = w :=
  Vector.ext fun i hi => h ⟨i, hi⟩

end

/-! ## Beginning a step (R129, R130) -/

theorem phraseStep_eq (k : Nat) (p : Phrase) (c : ChanRun) (hl : 0 < p.length) :
    (c.owed < p.length → phraseStep k p c =
      { state := .running, step := k, kind := .phrase, addr := p.start + c.owed,
        remaining := p.length - c.owed, late := 0, owed := 0, due := false, listeners := c.listeners }) ∧
    (p.length ≤ c.owed → phraseStep k p c =
      { state := .running, step := k, kind := .phrase, addr := p.start + p.length - 1,
        remaining := 1, late := 0, owed := c.owed - p.length, due := true, listeners := c.listeners }) := by
  unfold phraseStep phraseGive
  refine ⟨fun h => ?_, fun h => ?_⟩
  · simp [h]
  · simp only [Bool.false_eq_true, if_false]
    rw [if_neg (by omega)]
    simp only [ChanRun.mk.injEq, true_and, and_true]
    omega

theorem ChanBegun.unnamed {s : State} {n : Fin 4} {k owed : Nat} {c : ChanRun}
    (h : ∀ p, s.work.progs[n].steps[k]? ≠ some (.named p)) : ChanBegun s n k owed c :=
  ⟨fun _ hm => absurd hm (h _), fun _ _ hm => absurd hm (h _)⟩

/-- Whatever step begins in a channel, its run state is the one that R129 and R130 give. -/
theorem beginStep_begun (n : Fin 4) (k : Nat) (s : State) :
    ChanBegun s n k s.chans[n].owed (beginStep n k s).chans[n] := by
  have hsil : ∀ (kind : StepKind) (ms : Nat) (c : ChanRun), silentStep (samplePhase s) k kind ms c =
      { state := .running, step := k, kind := kind, addr := 0, remaining := ms, due := false
        late := (if s.rif.ring = .locked then s.sampleTimes else 0) - c.owed
        owed := c.owed - (if s.rif.ring = .locked then s.sampleTimes else 0)
        listeners := c.listeners } := by
    intro kind ms c
    have : samplePhase s = if s.rif.ring = .locked then s.sampleTimes else 0 := by
      simp [samplePhase, State.locked]
    rw [← this]
    rfl
  have hmiss : ∀ p, (beginMissing n k p s).chans[n] =
      silentStep (samplePhase s) k .missing Config.missingMs s.chans[n] := by
    intro p
    unfold beginMissing
    rw [report_chans]
    exact upd_self _ _ _
  unfold beginStep
  split
  next p hp =>
    split
    next ph hph =>
      split
      next hv =>
        simp only [Bool.and_eq_true, decide_eq_true_eq] at hv
        have hc : (beginPhrase n k ph s).chans[n] = phraseStep k ph s.chans[n] := upd_self _ _ _
        obtain ⟨h1, h2⟩ := phraseStep_eq k ph s.chans[n] hv.2
        refine ⟨fun ms hm => (by rw [hp] at hm; cases hm), fun w q hw hq => ?_⟩
        obtain rfl : p = w := by rw [hp] at hw; injection hw with hw; injection hw with hw; injection hw
        obtain rfl : ph = q := Option.some.inj (hph.symm.trans hq)
        rw [hc]
        exact ⟨fun _ => h1, fun _ _ => h2, fun h => by rcases h with h | h <;> simp_all⟩
      next hv =>
        refine ⟨fun ms hm => (by rw [hp] at hm; cases hm), fun w q hw hq => ?_⟩
        obtain rfl : p = w := by rw [hp] at hw; injection hw with hw; injection hw with hw; injection hw
        obtain rfl : ph = q := Option.some.inj (hph.symm.trans hq)
        rw [hmiss, hsil]
        refine ⟨fun h1 h2 => absurd ?_ hv, fun h1 h2 _ => absurd ?_ hv, fun _ => rfl⟩
        · rw [h1]; simpa using Nat.lt_of_le_of_lt (Nat.zero_le _) h2
        · rw [h1]; simpa using h2
    next hph =>
      refine ⟨fun ms hm => (by rw [hp] at hm; cases hm), fun w q hw hq => ?_⟩
      obtain rfl : p = w := by rw [hp] at hw; injection hw with hw; injection hw with hw; injection hw
      rw [hph] at hq
      cases hq
  next ms hm =>
    have hc : (beginGap n k ms s).chans[n] = silentStep (samplePhase s) k .gap ms s.chans[n] := upd_self _ _ _
    refine ⟨fun ms' hm' => ?_, fun w q hw _ => by rw [hm] at hw; cases hw⟩
    obtain rfl : ms = ms' := by rw [hm] at hm'; injection hm' with h; injection h with h; injection h
    rw [hc, hsil]
  next h1 h2 =>
    refine .unnamed fun p hp => ?_
    cases p with
    | phrase w => exact h1 w hp
    | gap ms => exact h2 ms hp

/-- A step that begins changes the run state of its channel alone, and leaves it running unless the step is
none of R126. -/
theorem beginStep_chans (n : Fin 4) (k : Nat) (s : State) :
    (∃ c : ChanRun, c.state = .running ∧ c.step = k ∧ c.listeners = s.chans[n].listeners ∧
      (beginStep n k s).chans = s.chans.set n c) ∨
    ((∀ p, s.work.progs[n].steps[k]? ≠ some (.named p)) ∧ beginStep n k s = s) := by
  have hmiss : ∀ p, (beginMissing n k p s).chans =
      s.chans.set n (silentStep (samplePhase s) k .missing Config.missingMs s.chans[n]) := by
    intro p
    unfold beginMissing
    rw [report_chans]
    rfl
  have hphrase : ∀ p : Phrase, (phraseStep k p s.chans[n]).state = .running ∧
      (phraseStep k p s.chans[n]).step = k ∧
      (phraseStep k p s.chans[n]).listeners = s.chans[n].listeners := by
    intro p
    unfold phraseStep
    obtain ⟨_, e⟩ | ⟨_, _, e⟩ | ⟨_, _, e⟩ := phraseGive_cases s.chans[n].owed { s.chans[n] with
      state := .running, step := k, kind := .phrase, addr := p.start, remaining := p.length
      late := 0, owed := 0, due := false } <;> rw [e] <;> exact ⟨rfl, rfl, rfl⟩
  unfold beginStep
  split
  · split
    · split
      next ph _ _ => exact .inl ⟨_, (hphrase ph).1, (hphrase ph).2.1, (hphrase ph).2.2, rfl⟩
      · exact .inl ⟨silentStep (samplePhase s) k .missing Config.missingMs s.chans[n], rfl, rfl, rfl,
          hmiss _⟩
    · exact .inl ⟨silentStep (samplePhase s) k .missing Config.missingMs s.chans[n], rfl, rfl, rfl,
        hmiss _⟩
  next ms _ => exact .inl ⟨silentStep (samplePhase s) k .gap ms s.chans[n], rfl, rfl, rfl, rfl⟩
  next h1 h2 =>
    refine .inr ⟨fun p hp => ?_, rfl⟩
    cases p with
    | phrase w => exact h1 w hp
    | gap ms => exact h2 ms hp

theorem beginStep_other {n m : Fin 4} (h : m ≠ n) (k : Nat) (s : State) :
    (beginStep n k s).chans[m] = s.chans[m] := by
  obtain ⟨c, -, -, -, e⟩ | ⟨-, e⟩ := beginStep_chans n k s
  · rw [e, vector_set_other h]
  · rw [e]

theorem beginStep_listeners (n m : Fin 4) (k : Nat) (s : State) :
    (beginStep n k s).chans[m].listeners = s.chans[m].listeners := by
  obtain ⟨c, -, -, hl, e⟩ | ⟨-, e⟩ := beginStep_chans n k s
  · by_cases h : m = n
    · subst h; rw [e, vector_set_self, hl]
    · rw [e, vector_set_other h]
  · rw [e]

theorem beginStep_cads (n : Fin 4) (k : Nat) (s : State) : (beginStep n k s).cads = s.cads := by
  have hm : ∀ p, (beginMissing n k p s).cads = s.cads := fun p => report_cads _ _
  unfold beginStep
  split
  · split
    · split
      · rfl
      · exact hm _
    · exact hm _
  · rfl
  · rfl

theorem setChan_self' (n : Fin 4) (f : ChanRun → ChanRun) (s : State) :
    (setChan n f s).chans[n] = f s.chans[n] := upd_self _ _ _

theorem setChan_other' {n m : Fin 4} (h : m ≠ n) (f : ChanRun → ChanRun) (s : State) :
    (setChan n f s).chans[m] = s.chans[m] := upd_other h _ _

theorem startChan_other {n m : Fin 4} (h : m ≠ n) (s : State) :
    (startChan n s).chans[m] = s.chans[m] := by
  unfold startChan
  rw [beginStep_other h, setChan_other' h]

theorem startChan_listeners (n m : Fin 4) (s : State) :
    (startChan n s).chans[m].listeners = s.chans[m].listeners := by
  unfold startChan
  rw [beginStep_listeners]
  by_cases h : m = n
  · subst h; rw [setChan_self']
  · rw [setChan_other' h]

theorem startChan_cads (n : Fin 4) (s : State) : (startChan n s).cads = s.cads := beginStep_cads _ _ _

/-- A channel whose step 0 is one of R126 is running once it has started. -/
theorem startChan_running {n : Fin 4} {s : State}
    (h : ∃ p, s.work.progs[n].steps[0]? = some (.named p)) : (startChan n s).chans[n].state = .running := by
  obtain ⟨p, hp⟩ := h
  obtain ⟨c, hc, -, -, e⟩ | ⟨hn, -⟩ := beginStep_chans n 0 (setChan n (fun c => { c with owed := 0 }) s)
  · unfold startChan
    rw [e, vector_set_self, hc]
  · exact absurd hp (hn p)

theorem startChan_begun (n : Fin 4) (s : State) : ChanBegun s n 0 0 (startChan n s).chans[n] := by
  have h := beginStep_begun n 0 (setChan n (fun c => { c with owed := 0 }) s)
  have ho : (setChan n (fun c : ChanRun => { c with owed := 0 }) s).chans[n] =
      { s.chans[n] with owed := 0 } := setChan_self' _ _ _
  unfold ChanBegun at h ⊢
  rw [ho] at h
  exact h

/-- What a step that has begun took is the same where the ring, the sample times, the program and the phrases
are, but for the listener count, which goes with the channel. -/
theorem ChanBegun.of {s t : State} {n : Fin 4} {k owed : Nat} {c d : ChanRun} (h : ChanBegun s n k owed c)
    (hr : t.rif.ring = s.rif.ring) (hs : t.sampleTimes = s.sampleTimes)
    (hp : t.work.progs[n] = s.work.progs[n]) (hw : t.work.phrases = s.work.phrases)
    (hd : d = { c with listeners := t.chans[n].listeners }) : ChanBegun t n k owed d := by
  obtain ⟨h1, h2⟩ := h
  unfold ChanBegun
  rw [hr, hs, hp, hw]
  refine ⟨fun ms hm => ?_, fun w p hw' hp' => ?_⟩
  · rw [hd, h1 ms hm]
  · obtain ⟨a, b, e⟩ := h2 w p hw' hp'
    exact ⟨fun x y => by rw [hd, a x y], fun x y z => by rw [hd, b x y z], fun x => by rw [hd, e x]⟩

end Sys2Proof.Machine

namespace Sys2Proof.Machine

/-! ## Tables taken from another copy -/

theorem tableEq_iff (k : Nat) (a b : Tables) : tableEq k a b = true ↔ copyTable k a b = b := beq_iff_eq

theorem copyTable_self (k : Nat) (t : Tables) : copyTable k t t = t := by
  unfold copyTable; split <;> rfl

theorem copyTable_twice (k : Nat) (a b c : Tables) : copyTable k (copyTable k a b) c = copyTable k a c := by
  unfold copyTable; split <;> rfl

theorem copyTable_other {j k : Nat} (h : j ≠ k) (a b : Tables) : copyTable j (copyTable k a b) b = b := by
  unfold copyTable
  split <;> first | rfl | (split <;> first | rfl | exact absurd rfl h)

theorem tableEq_refl (k : Nat) (t : Tables) : tableEq k t t = true :=
  (tableEq_iff k t t).2 (copyTable_self k t)

/-- A table is as in the copy that it was taken from. -/
theorem tableEq_copy (k : Nat) (a b : Tables) : tableEq k (copyTable k a b) a = true := by
  rw [tableEq_iff, copyTable_twice, copyTable_self]

/-- The other tables are as they were before one was taken. -/
theorem tableEq_copy_other {j k : Nat} (h : j ≠ k) (a b : Tables) : tableEq j (copyTable k a b) b = true :=
  (tableEq_iff _ _ _).2 (copyTable_other h a b)

/-- A cut commit ends without reply and leaves every table but the one in its step (R202). -/
theorem cutCommit_eq (s : State) : ∃ nv : Tables, cutCommit s = { s with commit := none, nv := nv } ∧
    ∀ k, (∀ c, s.commit = some c → k ≠ c.table) → tableEq k nv s.nv = true := by
  unfold cutCommit
  split
  next h => exact ⟨s.nv, by rw [← h], fun k _ => tableEq_refl k _⟩
  next c h => exact ⟨_, rfl, fun k hk => tableEq_copy_other (hk c h) _ _⟩

/-! ## The cold state -/

section
variable (p : Pins) (nv : Tables) (ok : Vector Bool 12) (st : Store) (a : Vector Bool 24) (b : Vector Bool 2)
  (q : List Instr)

theorem coldState_cad (n : Fin 4) :
    (coldState p nv ok st a b q).cads[n] = stoppedCad Config.factory.cad[n].on :=
  updAll_get Config.factory.cad (fun c => stoppedCad c.on) n

theorem coldState_chan (n : Fin 4) : (coldState p nv ok st a b q).chans[n] = idleChan :=
  Vector.getElem_replicate _

theorem coldState_amp (z : Zone) : (coldState p nv ok st a b q).amps[z] = freshHealth a[z] true :=
  updAll_get a (fun h => freshHealth h true) z

theorem coldState_standby (k : Fin 2) : (coldState p nv ok st a b q).standbyAmps[k] = freshHealth b[k] true :=
  updAll_get b (fun h => freshHealth h true) k

theorem coldState_serving (k : Fin 2) : (coldState p nv ok st a b q).serving[k] = none :=
  Vector.getElem_replicate _

theorem coldState_line (z : Zone) :
    (coldState p nv ok st a b q).lines[z] = { a := freshMon true, b := none, lost := false } :=
  Vector.getElem_replicate _

theorem coldState_input (n : Fin 8) :
    (coldState p nv ok st a b q).inputs[n] = { active := false, due := none } :=
  Vector.getElem_replicate _

theorem coldState_slot (i : Fin 16) : (coldState p nv ok st a b q).slots.entries[i] =
    { held := none, announced := false, absence := 0, freedFrom := none } :=
  Vector.getElem_replicate _

theorem coldState_counted : ListenersCounted (coldState p nv ok st a b q) := by
  intro n
  rw [coldState_cad, coldState_chan]
  have h : ∀ src : Source, src ≠ .none →
      (allZones.filter fun z => (coldState p nv ok st a b q).outs[z].effective == src) = [] := by
    intro src hs
    refine List.filter_eq_nil_iff.2 fun z _ => ?_
    rw [(coldState_silent p nv ok st a b q z).2]
    exact fun e => hs (beq_iff_eq.1 e).symm
  exact ⟨by rw [h _ (by simp)]; rfl, by rw [h _ (by simp)]; rfl⟩

theorem coldState_served : ListenersServed (coldState p nv ok st a b q) := by
  intro n
  rw [coldState_cad, coldState_chan]
  exact ⟨by simp [stoppedCad], fun _ => ⟨rfl, rfl, rfl⟩, fun _ _ _ h => absurd h (Nat.lt_irrefl 0)⟩

theorem coldState_settled : PoolSettled (coldState p nv ok st a b q) :=
  ⟨fun k z h => (by rw [coldState_serving] at h; cases h), fun z h => (by
    rw [failedZone, (coldState_silent p nv ok st a b q z).1] at h
    simp at h)⟩

theorem coldState_oneFeed : OneFeed (coldState p nv ok st a b q) :=
  ⟨fun z h => (by rw [coldState_serving] at h; cases h), fun k _ => coldState_serving p nv ok st a b q k⟩

theorem coldState_playing : PhrasesPlay (coldState p nv ok st a b q) := by
  have hc : ∀ n : Fin 4, (coldState p nv ok st a b q).chans[n].state ≠ .running := by
    intro n
    rw [coldState_chan]
    exact fun h => nomatch h
  exact ⟨fun n h => absurd h (hc n), fun _ _ h => (nomatch h), fun _ => ⟨hc, rfl⟩⟩

end

/-- The programs of the factory default are not in use (R126). -/
theorem factory_programsOk : ProgramsOk Config.factory :=
  (programsOk_iff _).2 fun n h => by
    have : Config.factory.progs[n] = Config.defProgram := Vector.getElem_replicate _
    rw [this] at h
    cases h

/-- Settles O1. -/
theorem stepRunsFrontCommand : Obligations.StepRunsFrontCommand := by
  refine ⟨fun c rest s h => ?_, fun s h => ?_⟩ <;> unfold Machine.step <;> rw [h]

/-- Settles O13. -/
theorem resetMeetsInvariants : Obligations.ResetMeetsInvariants := by
  refine ⟨coldState_lockAgrees .., fun z => ?_, coldState_bounded .., rfl, ?_, coldState_oneFeed .., ?_, ?_,
    coldState_counted _ _ _ _ _ _ _, coldState_served _ _ _ _ _ _ _, coldState_settled .., coldState_playing .., ?_⟩
  · have h : State.reset.lists[z] = [] := coldState_lists ..
    rw [h]
    exact ⟨Nat.zero_le _, .nil, .nil⟩
  · exact ⟨Nat.zero_le _, .nil, fun r h => (nomatch h)⟩
  · exact ⟨fun _ => ⟨rfl, rfl, rfl, rfl, rfl, rfl, rfl⟩, fun _ => rfl⟩
  · have hs : ∀ z : Zone, State.reset.lists[z] = [] ∧ State.reset.outs[z] = mutedOut :=
      coldState_silent _ _ _ _ _ _ _
    refine ⟨fun z => ?_, fun _ => ⟨rfl, hs⟩⟩
    split
    · rw [outOk_iff, (hs z).1, (hs z).2]
      exact mutedOut_matches _ _
    · exact hs z
  · have hn : State.reset.nvOk[(9 : Fin 12)] = false := Vector.getElem_replicate _
    exact ⟨factory_programsOk, fun h => absurd (hn.symm.trans h) Bool.false_ne_true, fun c h => (nomatch h)⟩

/-- Settles O14. -/
theorem coldStartAndPowerLoss : Obligations.ColdStartAndPowerLoss := by
  refine ⟨fun straps s => ?_, fun s => ?_⟩
  · obtain ⟨nv, e, hnv⟩ := cutCommit_eq s
    refine ⟨_, rfl, ?_⟩
    rw [e]
    refine ⟨rfl, rfl, rfl, rfl, rfl, rfl, rfl, coldState_silent _ _ _ _ _ _ _, fun n => ?_, coldState_input _ _ _ _ _ _ _, rfl, rfl,
      rfl, rfl, fun z l => ?_, fun z => ?_, fun k => ?_, rfl, rfl, rfl, rfl, rfl, rfl, rfl, rfl, rfl,
      fun i => ?_, rfl, rfl, rfl, rfl, rfl, rfl, rfl, rfl, rfl, rfl, rfl, hnv, rfl, rfl⟩
    · rw [coldState_cad, coldState_chan]
      exact ⟨rfl, rfl, fun _ => ⟨rfl, rfl, rfl⟩, rfl, rfl⟩
    · cases l <;> rfl
    · rw [coldState_line, coldState_amp, updAll_get]
      exact ⟨rfl, rfl, rfl⟩
    · rw [coldState_standby, updAll_get]
      rfl
    · rw [coldState_slot]
      exact ⟨rfl, rfl, rfl⟩
  · obtain ⟨nv, e, hnv⟩ := cutCommit_eq s
    refine ⟨_, rfl, ?_⟩
    rw [e]
    exact ⟨rfl, hnv⟩

end Sys2Proof.Machine

namespace Sys2Proof.Machine

/-- A command whose condition holds leaves what its act makes of the state. -/
theorem whenever_leaves {o : Out} {p : Bool} {f : State → State} {s u : State} (ho : o = whenever p f s)
    (hp : p = true) (hu : f s = u) : o = .next u := by
  rw [ho, whenever_of hp, hu]

/-! ## A table write that is taken (R200) -/

theorem tableSize_pos_of_entry {t : Tables} {table i : Nat} (h : entryOf t table i ≠ none) :
    ¬tableSize table ≤ i := by
  intro hl
  unfold tableSize at hl
  unfold entryOf at h
  split at h <;> simp only at hl <;> first
    | (simp at h; omega)
    | (split at h <;> first
        | omega
        | (rw [Vector.getElem?_eq_none (by omega)] at h; exact h rfl))
    | exact h rfl

/-- A command in execution: it has left the queue, and the room of its reply is held (R196). -/
def inHand (own : Nat) (s : State) : State := { s with cmdQueue := s.cmdQueue.tail, reserved := own }

/-- A write in execution: the working entry is replaced, and its effects follow (R200). -/
def inWriting (i : Nat) (c : Contents) (s : State) : State :=
  { inHand 1 s with work := putEntry i c s.work }

/-- A write that no check refuses is taken with what its contents' check makes of them (R124, R200). -/
theorem writeOutcome_taken {s : State} {table i : Nat} {c c' : Contents} (hn : entryOf s.work table i ≠ none)
    (hcom : s.commit = none) (hcap : ∀ x, s.capture = some x → ¬(table = 8 ∧ i = x.phrase))
    (hck : checkContents s.work i c = some c') : writeOutcome s table i c = .ok c' := by
  have hcap : captureHolds s table i = false := by
    unfold captureHolds
    split
    next x hx => simpa using hcap x hx
    next => rfl
  unfold writeOutcome
  rw [if_neg (tableSize_pos_of_entry hn), hcom, hcap, hck]
  rfl

/-- What a taken write leaves, with its DONE placed last. -/
theorem write_leaves {s : State} {q : Request} {table i : Nat} {c c' : Contents}
    (hout : writeOutcome s table i c = .ok c') (h : Admitted s q (.tableWrite table i c)
      (if table = 11 ∧ (insertionSlot s).isSome = true then 2 else 1)) :
    writeLeaves s q table i c { writeTaken table i c' (inHand 1 s) with reserved := 0 } := by
  have hadm : Admitted s q (.tableWrite table i c) (writeExtra table i c s + oneReply s) := by
    have hn : writeExtra table i c s + oneReply s =
        if table = 11 ∧ (insertionSlot s).isSome = true then 2 else 1 := by
      unfold writeExtra
      rw [hout]
      by_cases hb : table = 11 ∧ wardenHolds s = true
      · simp only [if_pos hb, oneReply]
        exact (if_pos hb).symm
      · simp only [if_neg hb, oneReply]
        exact (if_neg hb).symm
    rw [hn]
    exact h
  have hout' : writeOutcome (inHand 1 s) table i c = .ok c' := hout
  unfold writeLeaves
  rw [show exec (.tableWrite q table i c) s = execTableWrite q table i c s from rfl]
  unfold execTableWrite
  rw [commandWith_of hadm]
  refine congrArg _ ?_
  unfold carryOut
  rw [show oneReply s = 1 from rfl, show { s with cmdQueue := s.cmdQueue.tail, reserved := 1 } = inHand 1 s from rfl]
  dsimp only
  rw [hout']
  dsimp only
  unfold replyDone reply
  rw [replyMsgs_one _ _ _ rfl]
  rfl

theorem WriteTaken.outcome {s : State} {q : Request} {table i : Nat} {c c' : Contents}
    (h : WriteTaken s q table i c c') : writeOutcome s table i c = .ok c' :=
  writeOutcome_taken h.names h.commit h.capture h.passes

/-- What a taken write leaves is what its effects make of the state with the entry replaced. -/
theorem WriteTaken.leaves {s u : State} {q : Request} {table i : Nat} {c c' : Contents}
    (h : WriteTaken s q table i c c')
    (hu : { writeEffects s.work i c' (inWriting i c' s) with reserved := 0 } = u) :
    writeLeaves s q table i c u := by
  have hl := write_leaves h.outcome h.begins
  have hw : writeTaken table i c' (inHand 1 s) = writeEffects s.work i c' (inWriting i c' s) := if_neg h.changes
  rw [hw, hu] at hl
  exact hl

theorem updNat_fin {α : Type} {n : Nat} (v : Vector α n) (i : Fin n) (f : α → α) :
    updNat v i.val f = v.set i (f v[i]) := dif_pos i.isLt

theorem atIndex_fin {n : Nat} (i : Fin n) (f : Fin n → State → State) (s : State) :
    atIndex i.val f s = f i s := dif_pos i.isLt

theorem updAll_map {α β : Type} {n : Nat} (v : Vector α n) (f : α → β) : updAll v f = v.map f :=
  vector_ext_fin fun i => by rw [updAll_get]; simp

end Sys2Proof.Machine

namespace Sys2Proof.Machine

/-! ## A ring frame, part by part (R176–R182) -/

/-- The last part of a frame's reception: the master keeps it, another node sends it on (R177, R178). -/
def handOn (f : Frame) (mic : Sample) (s : State) : State :=
  if s.rif.master then (if frameOk f then masterReceive f s else s) else forwardFrame f mic s

/-- A frame gives its sample to a capture and one sample time to the channels while LOCKED (R129, R140). -/
def frameSampled (f : Frame) (gap : Bool) (s : State) : State :=
  let t := noteFrame f gap s
  if t.locked then captureSample t.rif.heard
    { t with chans := updAll t.chans (chanSamples 1), sampleTimes := t.sampleTimes + 1 }
  else t

theorem takeFrame_eq (f : Frame) (gap : Bool) (mic : Sample) (s : State) :
    takeFrame f gap mic s = handOn f mic (receiveControl f (frameSampled f gap s)) := rfl

theorem exec_ringFrameReceived {s : State} (h : s.phase ≠ .off) (hb : s.rif.ring ≠ .bypass) (f : Frame)
    (gap : Bool) (mic : Sample) : exec (.ringFrameReceived f gap mic) s =
      .next (handOn f mic (receiveControl f (frameSampled f gap s))) := by
  have hp : (s.phase != .off) = true := by simpa using h
  exact (whenever_of hp (fun s => if s.rif.ring = .bypass then setRif (fun r => { r with ringOut := some f }) s
    else takeFrame f gap mic s) s).trans (congrArg _ (if_neg hb))

theorem frameOk_iff (f : Frame) : frameOk f = true ↔ f.marker = marker ∧ f.check = crc16 (frameBody f) := by
  simp [frameOk, markerOk]

theorem frameOk_of {f : Frame} (hm : f.marker = marker) (hc : f.check = crc16 (frameBody f)) :
    frameOk f = true := (frameOk_iff f).2 ⟨hm, hc⟩

theorem not_frameOk {f : Frame} (h : ¬(f.marker = marker ∧ f.check = crc16 (frameBody f))) :
    frameOk f = false := Bool.eq_false_iff.2 fun e => h ((frameOk_iff f).1 e)

theorem locked_of {s : State} (h : s.rif.ring = .locked) : s.locked = true := by simp [State.locked, h]

theorem not_locked_of {s : State} (h : s.rif.ring ≠ .locked) : s.locked = false := by
  simpa [State.locked] using h

/-! ### What each part leaves as it was -/

theorem advanceTx_frame (s : State) : advanceTx s = { s with rif := { s.rif with
    tx := (advanceTx s).rif.tx, returns := (advanceTx s).rif.returns } } := by
  unfold advanceTx
  split
  · rfl
  · dsimp only
    split <;> rfl

theorem forwardFrame_frame (f : Frame) (mic : Sample) (s : State) : forwardFrame f mic s = { s with
    rif := { s.rif with
      ringOut := (forwardFrame f mic s).rif.ringOut
      tx := (forwardFrame f mic s).rif.tx, returns := (forwardFrame f mic s).rif.returns } } := by
  unfold forwardFrame
  dsimp only
  split
  · split
    · exact advanceTx_frame _ |>.trans (by rw [advanceTx_frame]; rfl)
    · rfl
  · rfl

theorem handOn_frame (f : Frame) (mic : Sample) (s : State) : handOn f mic s = { s with
    slots := (handOn f mic s).slots
    rif := { s.rif with
      ringOut := (handOn f mic s).rif.ringOut, carry := (handOn f mic s).rif.carry
      tx := (handOn f mic s).rif.tx, returns := (handOn f mic s).rif.returns } } := by
  unfold handOn
  split
  · split <;> rfl
  · rw [forwardFrame_frame]

theorem receiveControl_frame (f : Frame) (s : State) : receiveControl f s = { s with
    rif := { s.rif with
      passing := (receiveControl f s).rif.passing
      rx := (receiveControl f s).rif.rx, arrived := (receiveControl f s).rif.arrived } } := by
  unfold receiveControl
  split
  · unfold setRif
    dsimp only
    obtain e | ⟨bs, -, e | e⟩ := takePart_cases
      (if stillPassing f s.rif.passing = true then none else receivePart f s.rif.rx)
      { s.rif with passing := stillPassing f s.rif.passing } <;> rw [e]
  · rfl

theorem frameSampled_unlocked {s : State} (h : s.rif.ring ≠ .locked) (f : Frame) (gap : Bool) :
    frameSampled f gap s = noteFrame f gap s := by
  have : (noteFrame f gap s).locked = false := not_locked_of (s := noteFrame f gap s) h
  unfold frameSampled
  dsimp only
  rw [this]
  rfl

theorem frameSampled_locked {s : State} (h : s.rif.ring = .locked) (f : Frame) (gap : Bool) :
    frameSampled f gap s = captureSample (noteFrame f gap s).rif.heard { noteFrame f gap s with
      chans := updAll s.chans (chanSamples 1), sampleTimes := s.sampleTimes + 1 } := by
  have : (noteFrame f gap s).locked = true := locked_of (s := noteFrame f gap s) h
  unfold frameSampled
  dsimp only
  rw [this]
  rfl

/-- What a frame's sample changes at a LOCKED node. -/
theorem frameSampled_frame {s : State} (h : s.rif.ring = .locked) (f : Frame) (gap : Bool) :
    frameSampled f gap s = { noteFrame f gap s with
      chans := updAll s.chans (chanSamples 1), sampleTimes := s.sampleTimes + 1
      store := (frameSampled f gap s).store, capture := (frameSampled f gap s).capture } := by
  rw [frameSampled_locked h, captureSample_frame]

theorem frameSampled_rif (f : Frame) (gap : Bool) (s : State) :
    (frameSampled f gap s).rif = (noteFrame f gap s).rif := by
  by_cases h : s.rif.ring = .locked
  · rw [frameSampled_frame h]
  · rw [frameSampled_unlocked h]

/-- The slots heard of a frame: those of a valid one taken while LOCKED (R105). -/
theorem noteFrame_heard {s : State} (h : s.rif.ring = .locked) (f : Frame) (gap : Bool) :
    (noteFrame f gap s).rif.heard = if frameOk f then heardSlots f else silentSlots := by
  unfold noteFrame setRif
  dsimp only
  rw [locked_of h, Bool.and_true]

theorem frameTaken_heard (f : Frame) (gap : Bool) (mic : Sample) (s : State) :
    (handOn f mic (receiveControl f (frameSampled f gap s))).rif.heard = (noteFrame f gap s).rif.heard := by
  rw [handOn_frame, receiveControl_frame, ← frameSampled_rif]

/-- A frame changes no output. -/
theorem frameTaken_outs (f : Frame) (gap : Bool) (mic : Sample) (s : State) :
    (handOn f mic (receiveControl f (frameSampled f gap s))).outs = s.outs := by
  have : (frameSampled f gap s).outs = s.outs := by
    by_cases h : s.rif.ring = .locked
    · rw [frameSampled_frame h]; rfl
    · rw [frameSampled_unlocked h]; rfl
  rw [handOn_frame, receiveControl_frame, ← this]

end Sys2Proof.Machine

namespace Sys2Proof.Machine

/-! ## Cadences and what sounds (O45) -/

/-- The next phase with a length, after ON (R117, R119). -/
theorem cadAdvance_on (c : Cadence) (k burst : Nat) : cadAdvance c (k + 1) (.on, burst) =
    if c.off = 0 then cadAdvance c k (.off, burst) else (.off, burst) := rfl

/-- After PAUSE a cadence with a positive on-time begins its first burst (R117, R119). -/
theorem cadAdvance_pause {c : Cadence} (hon : 0 < c.on) (k burst : Nat) :
    cadAdvance c (k + 1) (.pause, burst) = (.on, 1) := if_neg (Nat.ne_of_gt hon)

/-- After OFF a cadence with a positive on-time begins its next burst, or its pause (R117, R119). -/
theorem cadAdvance_off {c : Cadence} (hon : 0 < c.on) (k burst : Nat) :
    cadAdvance c (k + 2) (.off, burst) =
      if c.bursts = 0 then (.on, burst)
      else if burst < c.bursts then (.on, burst + 1)
      else if c.pause = 0 then (.on, 1) else (.pause, burst) := by
  have hl : c.on ≠ 0 := Nat.ne_of_gt hon
  unfold cadAdvance
  by_cases hb : c.bursts = 0
  · simp [cadNext, cadLength, hb, hl]
  · by_cases hn : burst < c.bursts
    · simp [cadNext, cadLength, hb, hn, hl]
    · simp [cadNext, cadLength, hb, hn, cadAdvance_pause hon]

/-- A cadence whose phase has ended stands where R119 puts it, passing over phases of length 0. -/
theorem cadPhaseEnd_eq {c : Cadence} (hon : 0 < c.on) (r : CadRun) :
    let afterOff : CadRun :=
      if c.bursts = 0 then { r with phase := .on, remaining := c.on }
      else if r.burst < c.bursts then { r with phase := .on, burst := r.burst + 1, remaining := c.on }
      else if c.pause = 0 then { r with phase := .on, burst := 1, remaining := c.on }
      else { r with phase := .pause, remaining := c.pause }
    cadPhaseEnd c r = match r.phase with
      | .on => if c.off = 0 then afterOff else { r with phase := .off, remaining := c.off }
      | .off => afterOff
      | .pause => { r with phase := .on, burst := 1, remaining := c.on } := by
  have hoff : ∀ q : CadPhase × Nat, (q = if c.bursts = 0 then (.on, r.burst)
      else if r.burst < c.bursts then (.on, r.burst + 1)
      else if c.pause = 0 then (.on, 1) else (.pause, r.burst)) →
      ({ r with phase := q.1, burst := q.2, remaining := cadLength c q.1 } : CadRun) =
      if c.bursts = 0 then { r with phase := .on, remaining := c.on }
      else if r.burst < c.bursts then { r with phase := .on, burst := r.burst + 1, remaining := c.on }
      else if c.pause = 0 then { r with phase := .on, burst := 1, remaining := c.on }
      else { r with phase := .pause, remaining := c.pause } := by
    rintro q rfl
    split
    · rfl
    · split
      · rfl
      · split <;> rfl
  unfold cadPhaseEnd
  dsimp only
  cases r.phase with
  | on =>
    rw [cadAdvance_on]
    by_cases h0 : c.off = 0
    · rw [if_pos h0, if_pos h0]
      exact hoff _ (cadAdvance_off hon 0 r.burst)
    · rw [if_neg h0, if_neg h0]
      rfl
  | off => exact hoff _ (cadAdvance_off hon 1 r.burst)
  | pause =>
    rw [cadAdvance_pause hon]
    rfl

theorem vector_getElem?_fin {α : Type} {n : Nat} (v : Vector α n) (i : Fin n) : v[i.val]? = some v[i] :=
  Vector.getElem?_eq_getElem i.isLt

/-- A cadence sounds its tone in the ON phase of a run while it is in use (R120). -/
theorem cadenceAudio_fin (s : State) (n : Fin 4) : cadenceAudio s n.val =
    if s.cads[n].running = true ∧ s.work.cad[n].inUse = true ∧ s.cads[n].phase = .on
    then .tone s.work.cad[n].freq else .silence := by
  unfold cadenceAudio
  rw [vector_getElem?_fin, vector_getElem?_fin]
  simp only [Bool.and_eq_true, beq_iff_eq, and_assoc]

/-- A channel sounds the sample of its PHRASE step (R128, R129). -/
theorem channelAudio_fin (s : State) (n : Fin 4) : channelAudio s n.val =
    if s.chans[n].state = .running ∧ s.chans[n].kind = .phrase
    then .sample (storeRead s.store s.chans[n].addr) else .silence := by
  unfold channelAudio
  rw [vector_getElem?_fin]

/-- A slot of a node that hears none is silent (R105). -/
theorem ringAudio_silent {s : State} (h : s.rif.heard = silentSlots) (n : Nat) :
    sourceAudio s (.ring n) = .silence := by
  unfold sourceAudio
  dsimp only
  rw [h]
  by_cases hn : n < 32
  · rw [silentSlots, Vector.getElem?_eq_getElem hn, Vector.getElem_replicate]
  · rw [silentSlots, Vector.getElem?_eq_none (Nat.le_of_not_lt hn)]

/-- A slot sounds its sample where the frame just taken shows it present (R105). -/
theorem ringAudio_heard {s : State} {f : Frame} (h : s.rif.heard = heardSlots f) {n : Nat} (hn : n < 32) :
    sourceAudio s (.ring n) =
      if f.presence.getLsbD n = true then .sample (f.slots.toList.getD n 0#16) else .silence := by
  have hs : f.slots.toList.getD n 0#16 = f.slots[n] := by
    rw [List.getD_eq_getElem?_getD, Vector.getElem?_toList, Vector.getElem?_eq_getElem hn]
    rfl
  unfold sourceAudio
  dsimp only
  rw [h, heardSlots, Vector.getElem?_eq_getElem hn, Vector.getElem_ofFn, hs]
  dsimp only
  by_cases hp : f.presence.getLsbD n = true
  · simp [hp]
  · simp [hp]

/-- Settles O45. -/
theorem cadenceAdvances : Obligations.CadenceAdvances := by
  refine ⟨fun s q n e e' h => h.leaves ?_, fun s z => ⟨rfl, fun h => ?_, fun h => ?_, fun n h => ?_, fun n h => ?_,
    fun n h hq hl => ?_⟩, fun f gap mic s hp hl => ?_, fun s k => ⟨fun z hf hz => ?_, fun h => ?_⟩,
    fun s n hp hr hu h0 hon => ?_⟩
  · unfold writeEffects
    dsimp only
    rw [atIndex_fin]
    rfl
  · unfold zoneAudio; rw [h]; rfl
  · unfold zoneAudio; rw [h]; rfl
  · have : (zoneAudio s z).1 = cadenceAudio s n.val := by unfold zoneAudio; rw [h]; rfl
    rw [this, cadenceAudio_fin]
    exact ⟨fun hs => if_pos hs, fun hs => if_neg hs⟩
  · have : (zoneAudio s z).1 = channelAudio s n.val := by unfold zoneAudio; rw [h]; rfl
    rw [this, channelAudio_fin]
    exact ⟨fun hs => if_pos hs, fun hs => if_neg hs⟩
  · unfold zoneAudio
    rw [h]
    exact ringAudio_silent (hq.1 hl).1 n
  · refine ⟨_, exec_ringFrameReceived hp (by rw [hl]; exact fun e => nomatch e) f gap mic, fun z n hn hz => ?_⟩
    have ha : ∀ u : State, u.outs = s.outs → (zoneAudio u z).1 = sourceAudio u (.ring n) := by
      intro u hu
      unfold zoneAudio
      rw [hu, hz]
    rw [ha _ (frameTaken_outs f gap mic s)]
    have hh := (frameTaken_heard f gap mic s).trans (noteFrame_heard hl f gap)
    refine ⟨fun hm hc => ?_, fun hn' => ?_⟩
    · rw [frameOk_of hm hc] at hh
      exact ringAudio_heard hh hn
    · rw [not_frameOk hn'] at hh
      exact ringAudio_silent hh n
  · unfold standbyAudio poolState
    rw [hf, hz]
    rfl
  · unfold standbyAudio poolState
    rcases h with h | h
    · rw [h]; rfl
    · rw [h]; cases s.standbyAmps[k].failed <;> rfl
  · have hc : (s.running && s.cads[n].running && s.work.cad[n].inUse &&
        decide (s.cads[n].remaining = 0)) = true := by
      simp only [State.running, hp, hr, hu, h0]
      rfl
    intro c r afterOff
    refine (whenever_of hc (fun s => { s with cads := upd s.cads n (cadPhaseEnd s.work.cad[n]) }) s).trans ?_
    exact congrArg (fun x => Host.Outcome.next { s with cads := s.cads.set n x }) (cadPhaseEnd_eq hon r)

end Sys2Proof.Machine

namespace Sys2Proof.Machine

/-! ## Messages that arrive (R182, R184–R186) -/

section
variable {s u : State} {m : Message} (h : Arrives s m)
include h

/-- A message that arrives is settled as its block leaves it, with that acknowledgement. -/
theorem Arrives.settles {a : Ack} (ht : takeMessage m (takeHead s) = (takeHead u, a))
    (ha : u.rif.addr = s.rif.addr) :
    exec (.ringMessageComplete m) s = .next (sentAlong (addAck a m) u) := by
  rw [exec_ringMessageComplete_arrives h, settleMessage_eq ht ha]

/-- A message that this node does not take only goes on (R184). -/
theorem Arrives.untaken (hn : takes s m = false) :
    exec (.ringMessageComplete m) s = .next (sentAlong m s) :=
  h.settles (takeMessage_not ((takes_takeHead m s).trans hn)) rfl

/-- A message that this node takes is settled as its block has it. -/
theorem Arrives.handed {a : Ack} (hk : takes s m = true) (hh : handTo m (takeHead s) = (takeHead u, a))
    (ha : u.rif.addr = s.rif.addr) :
    exec (.ringMessageComplete m) s = .next (sentAlong (addAck a m) u) :=
  h.settles ((takeMessage_of ((takes_takeHead m s).trans hk)).trans hh) ha

/-- An answer that the outbound queue has room for is placed, with the slots as its block leaves them (R185). -/
theorem Arrives.answered {g : State → State} (hk : takes s m = true)
    (hh : ∀ v, handTo m v = withAnswer g v) (hr : 0 < s.room) (hg : g (takeHead s) = takeHead u)
    (ha : u.rif.addr = s.rif.addr) :
    exec (.ringMessageComplete m) s = .next (sentAlong (withTaken m) u) :=
  h.handed hk (a := .taken) (by rw [hh]; exact (if_pos hr).trans (by rw [hg])) ha

/-- Without room for the answer nothing is settled, and the message goes on acknowledged FULL (R185). -/
theorem Arrives.noRoom {g : State → State} (hk : takes s m = true)
    (hh : ∀ v, handTo m v = withAnswer g v) (hr : s.room = 0) :
    exec (.ringMessageComplete m) s = .next (sentAlong (withFull m) s) :=
  h.handed hk (a := .full) (u := s)
    (by rw [hh]; exact if_neg (Nat.not_lt.2 (Nat.le_of_eq hr))) rfl

end

theorem isMasterDest_iff (s : State) (d : Nat) :
    isMasterDest s d = true ↔ d = 253 ∧ s.rif.master = true := by simp [isMasterDest]

theorem takes_command {s : State} {m : Message} {f : Bool} {b : CmdBody} (hm : m.content = .command f b)
    (h1 : ∀ n, b ≠ .slotRequest n) (h2 : ∀ l, b ≠ .slotRelease l) :
    takes s m = true ↔ (m.dest = 253 ∧ s.rif.master = true) ∨ Named s m.dest := by
  have : takes s m = (isMasterDest s m.dest || reaches s m.dest) := by
    unfold takes
    rw [hm]
    cases b <;> first | rfl | exact absurd rfl (h1 _) | exact absurd rfl (h2 _)
  rw [this, Bool.or_eq_true, isMasterDest_iff, reaches_iff_named]

/-- Who takes a SLOT REQUEST or SLOT RELEASE: the master as its destination calls for it, another node by its
own address alone (R184). -/
theorem takes_slotCommand {s : State} {m : Message} {f : Bool} {b : CmdBody} (hm : m.content = .command f b)
    (hb : (∃ n, b = .slotRequest n) ∨ ∃ l, b = .slotRelease l) :
    takes s m = if s.rif.master then isMasterDest s m.dest || reaches s m.dest else isOwn s m.dest := by
  unfold takes
  rw [hm]
  obtain ⟨n, rfl⟩ | ⟨l, rfl⟩ := hb <;> rfl

theorem takes_reply {s : State} {m : Message}
    (hm : (∃ r, m.content = .reply r) ∨ ∃ n, m.content = .foreignReply n) :
    takes s m = isOwn s m.dest := by
  unfold takes
  obtain ⟨r, e⟩ | ⟨n, e⟩ := hm <;> rw [e]

/-- What becomes of a slot command that the Slot Allocation Table does not settle (R184, R185, R190). -/
theorem Arrives.slotNotSettled {s : State} {m : Message} {f : Bool} {b : CmdBody} {c : CmdCode}
    {g : State → State} (h : Arrives s m) (hm : m.content = .command f b)
    (hb : (∃ n, b = .slotRequest n) ∨ ∃ l, b = .slotRelease l)
    (hh : ∀ v, handTo m v = withAnswer (fun v => if v.rif.master then g v
      else answer (requestOf m f) c .notMaster .none v) v) :
    SlotNotSettled s m (requestOf m f) c := by
  have htakes := takes_slotCommand (s := s) hm hb
  refine ⟨fun hmas hd hr => h.noRoom ?_ hh hr, fun hmas ha hd => ⟨fun hr => h.answered ?_ hh hr ?_ rfl,
    fun hr => h.noRoom ?_ hh hr⟩, fun h1 h2 => h.untaken ?_⟩
  · rw [htakes, hmas, if_pos rfl, Bool.or_eq_true, isMasterDest_iff, reaches_iff_named]
    exact hd.imp_left fun hd => ⟨hd, hmas⟩
  · rw [htakes, hmas, if_neg Bool.false_ne_true, isOwn_iff]
    exact ⟨ha, hd⟩
  · have : (takeHead s).rif.master = false := hmas
    rw [this]
    rfl
  · rw [htakes, hmas, if_neg Bool.false_ne_true, isOwn_iff]
    exact ⟨ha, hd⟩
  · rw [htakes, Bool.eq_false_iff]
    cases hmas : s.rif.master with
    | true =>
      rw [if_pos rfl, ne_eq, Bool.or_eq_true, isMasterDest_iff, reaches_iff_named]
      rintro (⟨hd, -⟩ | hn)
      · exact (h1 hmas).1 hd
      · exact (h1 hmas).2 hn
    | false =>
      rw [if_neg Bool.false_ne_true, ne_eq, isOwn_iff]
      exact fun ⟨ha, hd⟩ => (h2 hmas).elim ha fun hne => hne hd

/-! ## A COMMAND of the command queue (O21) -/

/-- A message received is the oldest of those that ring-in has brought complete. -/
theorem Received.head {s : State} {m : Message} (h : Received s m) : headArrived m s = true := by
  obtain ⟨bs, rest, hbs, htake⟩ := h.bytes
  have hbody : bodyFitsContent m.content m.body = true := by
    unfold bodyFitsContent
    split
    next b hb => simp [h.body b hb]
    next => rfl
  simp [headArrived, hbs, htake, hbody]

/-- A message that this node does not settle is taken from those that wait, and nothing else happens (R182). -/
theorem exec_ringMessageComplete_discards {s : State} {m : Message} (hp : s.phase = .running)
    (hl : s.rif.ring = .locked) (ha : headArrived m s = true ∨ headFails s = true)
    (hn : ¬(headArrived m s = true ∧ messageOk m = true ∧ s.rif.fwd.length < Config.holdMax)) :
    exec (.ringMessageComplete m) s = .next (actedOn s) := by
  have hc : (s.running && s.locked && (headArrived m s || headFails s)) = true := by
    simp [State.running, hp, locked_of hl, ha]
  have hif : ¬(headArrived m s && messageOk m && decide (s.rif.fwd.length < Config.holdMax)) = true := by
    simpa [and_assoc] using hn
  exact (whenever_of hc (fun s => if headArrived m s && messageOk m &&
    decide (s.rif.fwd.length < Config.holdMax) then settleMessage m (takeHead s) else takeHead s) s).trans
    (congrArg _ (if_neg hif))

theorem getElem?_eq_getD {α : Type} {l : List α} {i : Nat} {x d : α} (h : l[i]? = some x) : l.getD i d = x := by
  simp [h]

/-- Bytes that break one of the checks of R182 do not pass them. -/
theorem not_bytesPass {bs : List Byte} {n : Byte} (hn : bs[4]? = some n) (hlen : 10 + n.toNat ≤ bs.length)
    (hbad : (bs.drop (8 + n.toNat)).take 2 ≠
        bytes16 (crc16 (bs.take 6 ++ (bs.drop 8).take n.toNat)) ∨
      bs[6]? = some 255#8 ∨
      (∀ a b v, bs[7]? ≠ some (Config.unionByte a (!a) b (!b) v)) ∨
      ∀ (k : MsgKind) (c : Byte), bs[2]? = some c → c.extractLsb' 3 2 ≠ Config.kindBits k) :
    bytesPass bs = false := by
  have hget : ∀ i, i < 10 → bs[i]? = some (bs.getD i 0#8) := by
    intro i hi
    have hlt : i < bs.length := by omega
    rw [List.getD_eq_getElem?_getD, List.getElem?_eq_getElem hlt]
    rfl
  rw [Bool.eq_false_iff]
  intro hpass
  unfold bytesPass at hpass
  rw [getElem?_eq_getD hn] at hpass
  simp only [Bool.and_eq_true, beq_iff_eq, bne_iff_ne] at hpass
  obtain ⟨⟨⟨hcheck, hhops⟩, hunion⟩, hkind⟩ := hpass
  rcases hbad with hb | hb | hb | hb
  · exact hb hcheck
  · exact hhops (getElem?_eq_getD hb)
  · unfold unionWhole at hunion
    simp only [List.any_eq_true, beq_iff_eq] at hunion
    obtain ⟨⟨a, b⟩, -, v, -, e⟩ := hunion
    exact hb a b _ ((hget 7 (by omega)).trans (congrArg some e))
  · unfold kindKnown at hkind
    simp only [List.any_eq_true, beq_iff_eq] at hkind
    obtain ⟨k, -, e⟩ := hkind
    exact hb k _ (hget 2 (by omega)) e

theorem handTo_command {m : Message} {f : Bool} {b : CmdBody} (hm : m.content = .command f b)
    (h1 : ∀ n, b ≠ .slotRequest n) (h2 : ∀ l, b ≠ .slotRelease l) (s : State) :
    handTo m s = enterCommand ⟨requestOf m f, b⟩ s := by
  unfold handTo
  rw [hm]
  cases b <;> first | rfl | exact absurd rfl (h1 _) | exact absurd rfl (h2 _)

/-- Settles O21. -/
theorem commandEntersQueue : Obligations.CommandEntersQueue := by
  refine ⟨fun s m f b hm h1 h2 h => ⟨fun hd => ⟨fun hq => ?_, fun hq => ?_⟩, fun hn hmas => ?_⟩,
    fun s m => ⟨fun h hbad => ?_, fun bs rest n hp hl hbs hn hlen hbody hbad => ?_, fun hno => ?_⟩⟩
  · have htakes := (takes_command hm h1 h2).2 hd
    refine h.handed htakes (a := .taken)
      (u := { s with cmdQueue := s.cmdQueue ++ [⟨⟨m.origin, m.cls, m.tag, f⟩, b⟩] }) ?_ rfl
    rw [handTo_command hm h1 h2]
    exact if_pos hq
  · have htakes := (takes_command hm h1 h2).2 hd
    refine h.handed htakes (a := .full) (u := s) ?_ rfl
    rw [handTo_command hm h1 h2]
    exact if_neg (Nat.not_lt.2 hq)
  · refine h.untaken (Bool.eq_false_iff.2 fun ht => ?_)
    obtain ⟨hd, hm'⟩ | hname := (takes_command hm h1 h2).1 ht
    · rw [hmas hd] at hm'
      cases hm'
    · exact hn hname
  · refine exec_ringMessageComplete_discards h.running h.locked (.inl h.head) fun ⟨_, hok, hlt⟩ => ?_
    simp only [messageOk, Bool.and_eq_true, beq_iff_eq, bne_iff_ne, decide_eq_true_eq] at hok
    obtain ⟨⟨⟨hc, ht⟩, hf⟩, hh⟩ := hok
    rcases hbad with hb | hb | hb | hb | hb
    · exact hb hc
    · exact ht hb
    · exact hf hb
    · exact absurd hh (Nat.not_lt.2 hb)
    · exact absurd hlt (Nat.not_lt.2 hb)
  · have hfail : bytesPass bs = false := not_bytesPass hn hlen hbad
    have hf : headFails s = true := by
      unfold headFails
      rw [hbs]
      exact (congrArg not hfail).trans rfl
    refine exec_ringMessageComplete_discards hp hl (.inr hf) fun ⟨ha, hok, _⟩ => ?_
    exact absurd (bytesPass_of_messageOk hbs ha hbody hok) (by rw [hfail]; exact Bool.false_ne_true)
  · have hc : (s.running && s.locked && (headArrived m s || headFails s)) = false := by
      unfold headArrived headFails
      rw [hno]
      exact Bool.and_false _
    exact whenever_not hc (fun s => if headArrived m s && messageOk m &&
      decide (s.rif.fwd.length < Config.holdMax) then settleMessage m (takeHead s) else takeHead s) s

end Sys2Proof.Machine

namespace Sys2Proof.Machine

/-! ## The Slot Allocation Table at a message (O22, O23) -/

theorem sentAlong_slots (m : Message) (s : State) : (sentAlong m s).slots = s.slots := by
  unfold sentAlong
  split <;> rfl

/-- The FREE, announced slots, the lowest-numbered first (R189). -/
def freeSlots (t : SlotTable) : List (Fin 16) := (List.finRange 16).filter fun i => grantable t.entries[i]

theorem slotRequest_badCount {n : Nat} (hn : n = 0 ∨ 4 < n) (q : Request) (s : State) :
    slotRequest q n s = place (replyMsg q .slotRequest .badCount .none) s := if_pos hn

theorem slotRequest_denied {n : Nat} (h1 : 1 ≤ n) (h4 : n ≤ 4) (q : Request) {s : State}
    (hf : (freeSlots s.slots).length < n) : slotRequest q n s =
      place (replyMsg q .slotRequest .denied (.freeCount (freeSlots s.slots).length)) s := by
  unfold slotRequest
  rw [if_neg (by omega)]
  split
  · rfl
  · exact if_neg (Nat.not_le.2 hf)

theorem slotRequest_granted {n : Nat} (h1 : 1 ≤ n) (h4 : n ≤ 4) (q : Request) {s : State}
    (hf : n ≤ (freeSlots s.slots).length) {i : Fin 16} {rest : List (Fin 16)}
    (hi : (freeSlots s.slots).take n = i :: rest) : slotRequest q n s =
      place (replyMsg q .slotRequest .granted
        (.granted (((freeSlots s.slots).take n).map slotNo) (slotNo i) ((freeSlots s.slots).length - n)))
        (setSlots (grantSlots ((freeSlots s.slots).take n) (slotNo i) q.origin) s) := by
  have hg : grantedEntries s.slots n = i :: rest := hi
  unfold slotRequest
  rw [if_neg (by omega), hg]
  exact (if_pos hf).trans (by rw [hi]; rfl)

theorem takes_master {s : State} {m : Message} {f : Bool} {b : CmdBody} (hm : m.content = .command f b)
    (hb : (∃ n, b = .slotRequest n) ∨ ∃ l, b = .slotRelease l) (hmas : s.rif.master = true)
    (hd : m.dest = 253 ∨ Named s m.dest) : takes s m = true := by
  rw [takes_slotCommand hm hb, hmas, if_pos rfl, Bool.or_eq_true, isMasterDest_iff, reaches_iff_named]
  exact hd.imp_left fun hd => ⟨hd, hmas⟩

/-- Settles O22. -/
theorem slotRequestSettled : Obligations.SlotRequestSettled := by
  intro s m f n hm h q free
  have hh : ∀ v, handTo m v = withAnswer (fun v => if v.rif.master then slotRequest (requestOf m f) n v
      else answer (requestOf m f) .slotRequest .notMaster .none v) v := by
    intro v
    unfold handTo
    rw [hm]
  refine ⟨fun hmas hd hr => ?_, h.slotNotSettled hm (.inl ⟨n, rfl⟩) hh⟩
  have hk := takes_master hm (.inl ⟨n, rfl⟩) hmas hd
  have leaves : ∀ u : State, slotRequest q n (takeHead s) = takeHead u → u.rif.addr = s.rif.addr →
      exec (.ringMessageComplete m) s = .next (sentAlong (withTaken m) u) := by
    intro u hu ha
    refine h.answered hk hh hr ?_ ha
    rw [← hu]
    exact if_pos hmas
  refine ⟨fun hn => leaves _ (slotRequest_badCount hn q _) rfl,
    fun h1 h4 hf => leaves _ (slotRequest_denied h1 h4 q hf) rfl, fun i rest h1 h4 hf hi => ?_⟩
  have he := leaves (place (replyMsg q .slotRequest .granted (.granted ((free.take n).map fun j => 16 + j.val)
      (16 + i.val) (free.length - n))) (setSlots (grantSlots (free.take n) (slotNo i) q.origin) s))
    (slotRequest_granted (s := takeHead s) h1 h4 q hf hi) rfl
  refine ⟨_, he, ?_, fun j => ?_⟩
  · rw [sentAlong_slots]
    rfl
  · rw [sentAlong_slots]
    have : (grantSlots (free.take n) (slotNo i) q.origin s.slots).entries[j] =
        if (free.take n).contains j then heldSlot (slotNo i) q.origin else s.slots.entries[j] := by
      simp [grantSlots]
    refine this.trans ?_
    simp only [List.contains_iff_mem]
    rfl

theorem heldUnder_iff (l : Nat) (d : DynSlot) : heldUnder l d = true ↔ ∃ h, d.held = some (l, h) := by
  unfold heldUnder
  split
  next h e =>
    rw [beq_iff_eq, e]
    exact ⟨fun e' => ⟨h.2, congrArg some (Prod.ext e' rfl)⟩, fun ⟨_, e'⟩ => congrArg Prod.fst (Option.some.inj e')⟩
  next e => simp [e]

theorem heldBy_iff (l o : Nat) (d : DynSlot) : heldBy l o d = true ↔ d.held = some (l, o) := beq_iff_eq

theorem any_slot_iff (p : DynSlot → Bool) (v : Vector DynSlot 16) :
    v.toList.any p = true ↔ ∃ i : Fin 16, p v[i] = true := by
  rw [List.any_eq_true]
  constructor
  · rintro ⟨d, hd, hp⟩
    obtain ⟨i, hi, rfl⟩ := List.mem_iff_getElem.1 hd
    exact ⟨⟨i, by simpa using hi⟩, by simpa using hp⟩
  · rintro ⟨i, hp⟩
    exact ⟨v[i], by simp, hp⟩

theorem all_slot_iff (p : DynSlot → Bool) (v : Vector DynSlot 16) :
    v.toList.all p = true ↔ ∀ i : Fin 16, p v[i] = true := by
  rw [List.all_eq_true]
  constructor
  · intro h i
    exact h _ (by simp)
  · intro h d hd
    obtain ⟨i, hi, rfl⟩ := List.mem_iff_getElem.1 hd
    simpa using h ⟨i, by simpa using hi⟩

/-- Settles O23. -/
theorem slotReleaseSettled : Obligations.SlotReleaseSettled := by
  intro s m f l hm h q under
  have hh : ∀ v, handTo m v = withAnswer (fun v => if v.rif.master then slotReleased (requestOf m f) l v
      else answer (requestOf m f) .slotRelease .notMaster .none v) v := by
    intro v
    unfold handTo
    rw [hm]
  refine ⟨fun hmas hd hr => ?_, h.slotNotSettled hm (.inr ⟨l, rfl⟩) hh⟩
  have hk := takes_master hm (.inr ⟨l, rfl⟩) hmas hd
  have leaves : ∀ u : State, slotReleased q l (takeHead s) = takeHead u → u.rif.addr = s.rif.addr →
      exec (.ringMessageComplete m) s = .next (sentAlong (withTaken m) u) := by
    intro u hu ha
    refine h.answered hk hh hr ?_ ha
    rw [← hu]
    exact if_pos hmas
  have hany : s.slots.entries.toList.any (heldUnder l) = true ↔ ∃ i, under i :=
    (any_slot_iff _ _).trans (exists_congr fun i => heldUnder_iff l _)
  have hall : (s.slots.entries.toList.all fun d => !heldUnder l d || heldBy l q.origin d) = true ↔
      ∀ i, under i → s.slots.entries[i].held = some (l, m.origin) := by
    rw [all_slot_iff]
    refine forall_congr' fun i => ?_
    rw [Bool.or_eq_true, Bool.not_eq_true', heldBy_iff, ← Bool.not_eq_true, heldUnder_iff]
    exact ⟨fun hi hu => hi.elim (absurd hu) id, fun hi => or_iff_not_imp_left.2 fun hu => hi (not_not.1 hu)⟩
  refine ⟨fun he ho => ?_, fun ⟨i, o, hi, hne⟩ => leaves _ ?_ rfl, fun hno => leaves _ ?_ rfl⟩
  · have hrel : slotReleased q l (takeHead s) =
        takeHead (place (replyMsg q .slotRelease .done .none) (setSlots (releaseLabel l) s)) := by
      unfold slotReleased
      exact (if_pos (hany.2 he)).trans ((if_pos (hall.2 ho)).trans rfl)
    refine ⟨_, leaves _ hrel rfl, ?_, fun i => ?_⟩
    · rw [sentAlong_slots]
      rfl
    · rw [sentAlong_slots]
      have hi : (releaseLabel l s.slots).entries[i] =
          if heldUnder l s.slots.entries[i] then releasedSlot else s.slots.entries[i] := by
        unfold releaseLabel
        exact updAll_get s.slots.entries (fun d => if heldUnder l d then releasedSlot else d) i
      refine ⟨fun hu => ?_, fun hu => ?_⟩
      · have e := hi.trans (if_pos ((heldUnder_iff l _).2 hu))
        exact ⟨congrArg DynSlot.held e, congrArg DynSlot.announced e, congrArg DynSlot.absence e⟩
      · exact hi.trans (if_neg fun hb => hu ((heldUnder_iff l _).1 hb))
  · unfold slotReleased
    have hn : ¬(s.slots.entries.toList.all fun d => !heldUnder l d || heldBy l q.origin d) = true := by
      rw [hall]
      intro ha
      have := (ha i ⟨o, hi⟩).symm.trans hi
      injection this with this
      injection this with _ this
      exact hne this.symm
    exact (if_pos (hany.2 ⟨i, o, hi⟩)).trans ((if_neg hn).trans rfl)
  · unfold slotReleased
    exact (if_neg fun ha => (hany.1 ha).elim hno).trans rfl

end Sys2Proof.Machine

namespace Sys2Proof.Machine

/-! ## Messages to no effect, and the answers to a SLOT REQUEST (O25, O52) -/

theorem sentAlong_own {m : Message} {s : State} (h : m.origin = s.rif.addr) (a : Ack) :
    sentAlong (addAck a m) s = { s with rif := { s.rif with
      arrived := s.rif.arrived.tail, returns := s.rif.returns.eraseP fun x => x.tag == m.tag } } := by
  have : (addAck a m).origin = s.rif.addr := (addAck_origin a m).trans h
  unfold sentAlong
  rw [if_pos this, addAck_tag]

theorem takes_report {s : State} {m : Message}
    (hm : (∃ r, m.content = .report r) ∨ ∃ n, m.content = .foreignReport n) : takes s m = false := by
  unfold takes
  obtain ⟨r, e⟩ | ⟨n, e⟩ := hm <;> rw [e]

theorem eraseP_at {α : Type} {p : α → Bool} {a b : List α} {x : α} (ha : ∀ y ∈ a, p y = false)
    (hx : p x = true) : (a ++ x :: b).eraseP p = a ++ b := by
  rw [List.eraseP_append_right _ fun y hy => by simp [ha y hy], List.eraseP_cons_of_pos hx]

/-- Settles O25. -/
theorem returnRecordsSettled : Obligations.ReturnRecordsSettled := by
  refine ⟨fun s m r hm h ho => ?_, fun s m h => ⟨fun hm => h.untaken (takes_report hm), fun hm hn => h.untaken ?_,
    fun hm ho => ?_, fun c hm hn => h.untaken ?_, fun n hm hn => ?_⟩, fun s a b x hp hr ha hx => ?_⟩
  · rw [h.untaken (takes_report (.inl ⟨r, hm⟩))]
    exact congrArg _ (sentAlong_own (s := s) ho .none)
  · rw [takes_reply hm]
    exact Bool.eq_false_iff.2 fun e => hn ((isOwn_iff s m.dest).1 e)
  · have hk : takes s m = true := by
      rw [takes_reply (hm.imp_left fun ⟨r, e, _⟩ => ⟨r, e⟩)]
      exact (isOwn_iff s m.dest).2 ho
    refine h.handed hk (a := .taken) (u := s) ?_ rfl
    unfold handTo
    obtain ⟨r, e, hr⟩ | ⟨n, e⟩ := hm
    · rw [e]
      dsimp only
      rw [replyTaken_noAnswer hr]
    · rw [e]
  · have : takes s m = reaches s m.dest := by unfold takes; rw [hm]
    rw [this]
    exact Bool.eq_false_iff.2 fun e => hn ((reaches_iff_named s m.dest).1 e)
  · refine h.handed (takes_notice hm hn) (a := .taken) (u := s) ?_ rfl
    unfold handTo
    rw [hm]
  · have hx' : returnExpired s.now x = true := decide_eq_true hx
    have ha' : ∀ y ∈ a, returnExpired s.now y = false := fun y hy => decide_eq_false (Nat.not_le.2 (ha y hy))
    have hc : (s.running && s.rif.returns.any (returnExpired s.now)) = true := by
      simp [State.running, hp, hr, hx']
    refine (whenever_of hc (setRif fun r =>
      { r with returns := r.returns.eraseP (returnExpired s.now), lost := min 255 (r.lost + 1) }) s).trans ?_
    unfold setRif
    dsimp only
    rw [hr, eraseP_at ha' hx']

theorem sendRelease_takeHead (l : Nat) (s : State) : sendRelease l (takeHead s) = takeHead (sendRelease l s) := by
  unfold sendRelease
  have : (takeHead s).room = s.room := rfl
  rw [this]
  split <;> rfl

theorem sendRelease_addr (l : Nat) (s : State) : (sendRelease l s).rif.addr = s.rif.addr := by
  unfold sendRelease
  split <;> rfl

/-- Settles O52. -/
theorem answerDeadlinePasses : Obligations.AnswerDeadlinePasses := by
  refine ⟨fun s d hp hd => ?_, fun s m r hm hc h ha hdest => ?_⟩
  · have due : (s.warden.slot = .requested d ∨ s.warden.slot = .cancelled d) →
        exec .slotAnswerDeadline s = .next (match s.warden.slot with
          | .requested _ => report (.wardenLocalOnly .noAnswer) (setSlot .none s)
          | _ => setSlot .none s) := by
      intro hs
      have : (s.running && answerDue s) = true := by
        unfold answerDue
        rcases hs with hs | hs <;> rw [hs] <;> simp [State.running, hp, hd]
      exact whenever_of this (fun s => match s.warden.slot with
        | .requested _ => report (.wardenLocalOnly .noAnswer) (setSlot .none s)
        | _ => setSlot .none s) s
    exact ⟨fun hs => (due (.inl hs)).trans (by rw [hs]; rfl), fun hs => (due (.inr hs)).trans (by rw [hs]; rfl)⟩
  intro leaves record given
  have hk : takes s m = true := by
    rw [takes_reply (.inl ⟨r, hm⟩)]
    exact (isOwn_iff s m.dest).2 ⟨ha, hdest⟩
  have done : ∀ u : State, replyTaken r (takeHead s) = takeHead u → u.rif.addr = s.rif.addr → leaves u := by
    intro u hu ha
    refine h.handed hk (a := .taken) ?_ ha
    unfold handTo
    rw [hm, ← hu]
  have gives : ∀ l u, s.room = u.room → u.rif.addr = s.rif.addr →
      replyTaken r (takeHead s) = sendRelease l (takeHead u) → leaves (given l u) := by
    intro l u hr ha hu
    have hg : given l u = sendRelease l u := by
      unfold sendRelease
      rw [← hr]
    rw [hg]
    exact done _ (hu.trans (sendRelease_takeHead l u)) ((sendRelease_addr l u).trans ha)
  refine ⟨fun n ns l free hr hd => ?_, fun free hr hd => ?_⟩
  · have ht : ∀ v, replyTaken r v = slotGranted n l v := by
      intro v
      unfold replyTaken
      rw [hc, hr, hd]
    have hslot : (takeHead s).warden.slot = s.warden.slot := rfl
    refine ⟨fun d hs => done _ ?_ (by rw [report_rif]), fun d hs => gives _ _ rfl rfl ?_,
      fun hs => gives _ _ rfl rfl ?_, fun k l' hs => ⟨fun e => done _ ?_ rfl, fun e => gives _ _ rfl rfl ?_⟩⟩
    · rw [ht, ← report_takeHead]
      unfold slotGranted
      rw [hslot, hs]
      rfl
    · rw [ht]
      unfold slotGranted
      rw [hslot, hs]
      rfl
    · rw [ht]
      unfold slotGranted
      rw [hslot, hs]
    · rw [ht]
      unfold slotGranted
      rw [hslot, hs]
      exact if_pos e
    · rw [ht]
      unfold slotGranted
      rw [hslot, hs]
      exact if_neg e
  · have ht : ∀ v, replyTaken r v = slotDenied free v := by
      intro v
      unfold replyTaken
      rw [hc, hr, hd]
    have hslot : (takeHead s).warden.slot = s.warden.slot := rfl
    refine ⟨fun d hs => done _ ?_ (by rw [report_rif]), fun d hs => done _ ?_ rfl, fun hs => done _ ?_ rfl⟩
    · rw [ht, ← report_takeHead]
      unfold slotDenied
      rw [hslot, hs]
      rfl
    · rw [ht]
      unfold slotDenied
      rw [hslot, hs]
      rfl
    · rw [ht]
      unfold slotDenied
      obtain hs | ⟨k, l, hs⟩ := hs <;> rw [hslot, hs]

/-- Settles O26. -/
theorem sendingBegins : Obligations.SendingBegins := by
  intro s hp hl htx hpass
  have hfree : ringOutFree s = true := by simp [ringOutFree, htx, hpass]
  have hrun : s.running = true := by simp [State.running, hp]
  refine ⟨fun m rest hf => ?_, fun hf hr => ?_⟩
  · have hc : (s.running && s.locked && ringOutFree s) = true := by
      rw [hrun, locked_of hl, hfree]
      rfl
    refine whenever_leaves (o := execForwardHoldSend s) rfl hc ?_
    rw [hf]
    rfl
  · have hmay : mayInsert s = true := by
      unfold mayInsert
      rw [hrun, locked_of hl, hfree, hf, decide_eq_true (show s.rif.returns.length < Config.returnMax from hr)]
      rfl
    refine ⟨fun o rest ho => whenever_leaves (o := execInsertionBegin s) rfl hmay ?_, fun r rest ho hrep =>
      whenever_leaves (o := execInsertionBegin s) rfl hmay ?_⟩
    · rw [ho]
      rfl
    · rw [ho, hrep]
      rfl

end Sys2Proof.Machine

namespace Sys2Proof.Machine

/-! ## Pulses, health inputs and CLEAR FAULTS (O53, O55) -/

theorem lines_set_self (s : State) (z : Zone) : { s with lines := s.lines.set z s.lines[z] } = s := by
  have : s.lines.set z s.lines[z] = s.lines := by simp
  rw [this]

/-- A measured line counts a pulse; a line that is SHORT counts none (R161). -/
theorem monPulse_measured {m : LineMon} (h : m.state ≠ .short) :
    monPulse m = { m with pulses := min 65535 (m.pulses + 1) } :=
  if_pos (by simpa [measured] using h)

theorem monPulse_short {m : LineMon} (h : m.state = .short) : monPulse m = m :=
  if_neg (by simp [measured, h])

theorem exec_pilotPulse_a {s : State} {z : Zone} (hp : s.phase = .running)
    (hu : s.work.spk[z].inUse = true) : exec (.pilotPulse z .a) s =
      .next { s with lines := s.lines.set z { s.lines[z] with a := monPulse s.lines[z].a } } :=
  whenever_leaves (o := execPilotPulse z .a s) rfl (by
    rw [zoneInUse, spk, hu, State.running, hp]; rfl) rfl

theorem exec_pilotPulse_b {s : State} {z : Zone} (hp : s.phase = .running)
    (hu : s.work.spk[z].inUse = true) : exec (.pilotPulse z .b) s =
      .next { s with lines := s.lines.set z { s.lines[z] with b := s.lines[z].b.map monPulse } } :=
  whenever_leaves (o := execPilotPulse z .b s) rfl (by
    rw [zoneInUse, spk, hu, State.running, hp]; rfl) rfl

/-- Settles O53. -/
theorem lineAndHealthInputs : Obligations.LineAndHealthInputs := by
  refine ⟨fun s z hp hu => ⟨fun h => ?_, fun h => ?_, fun b hb h => ?_, fun h => ?_⟩, fun s z l hu => ?_,
    fun s z active => rfl, fun s k active => rfl⟩
  · rw [exec_pilotPulse_a hp hu, monPulse_measured h]
  · rw [exec_pilotPulse_a hp hu, monPulse_short h]
    exact congrArg _ (lines_set_self s z)
  · rw [exec_pilotPulse_b hp hu, hb, Option.map_some, monPulse_measured h]
  · have : s.lines[z].b.map monPulse = s.lines[z].b := by
      obtain e | ⟨b, e, hs⟩ := h
      · rw [e]; rfl
      · rw [e, Option.map_some, monPulse_short hs]
    rw [exec_pilotPulse_b hp hu, this]
    exact congrArg _ (lines_set_self s z)
  · exact whenever_not (by rw [zoneInUse, spk, hu, Bool.and_false]) (fun s => { s with lines := upd s.lines z fun m =>
      match l with
      | .a => { m with a := monPulse m.a }
      | .b => { m with b := m.b.map monPulse } }) s

/-- An admitted command leaves what its act makes of the state in hand, its reply placed last. -/
theorem commandWith_leaves {s v : State} {q : Request} {b : CmdBody} {r : Result} {d : ReplyData}
    {act : State → State} {extra own : State → Nat} (h : Admitted s q b (extra s + own s))
    (ha : act (inHand (own s) s) = reply ⟨q, b⟩ r d v) :
    commandWith ⟨q, b⟩ extra own act s =
      .next { v with reserved := 0, outbound := v.outbound ++ replyMsgs q (codeOf b) r d } := by
  rw [commandWith_of h]
  exact congrArg (fun u : State => Host.Outcome.next { u with reserved := 0 }) ha

/-- An admitted command that replies leaves what its act makes of the state in hand, its reply placed last. -/
theorem commandWith_replies {s v : State} {q : Request} {b : CmdBody} {r : Result} {d : ReplyData}
    {f : State → State} {extra own : State → Nat} (h : Admitted s q b (extra s + own s))
    (hf : f (inHand (own s) s) = v) :
    commandWith ⟨q, b⟩ extra own (fun s => reply ⟨q, b⟩ r d (f s)) s =
      .next { v with reserved := 0, outbound := v.outbound ++ replyMsgs q (codeOf b) r d } :=
  commandWith_leaves h (congrArg (reply ⟨q, b⟩ r d) hf)

theorem monEmptied_eq (m : LineMon) :
    monEmptied m = if m.state = .short then m else { m with candidate := none, run := 0 } := by
  unfold monEmptied measured
  by_cases h : m.state = .short
  · rw [if_pos h, h]; rfl
  · rw [if_neg h]
    exact if_pos (by simpa using h)

/-- Settles O55. -/
theorem faultsCleared : Obligations.FaultsCleared := by
  refine ⟨fun s q h => ?_, fun s q z e e' h => h.leaves ?_, fun s q ms ms' h => h.leaves ?_⟩
  · have hc : ∀ u : State, clearFaults u = { u with
        lines := u.lines.map fun l => { a := freshMon true, b := l.b.map fun _ => freshMon true, lost := false }
        amps := u.amps.map fun h => { h with candidate := none, run := 0, dropped := !h.active, whole := true }
        standbyAmps := u.standbyAmps.map fun h =>
          { h with candidate := none, run := 0, dropped := !h.active, whole := true }
        phraseMissing := false, windowEnd := some (u.now + u.work.window) } := by
      intro u
      have h1 : updAll (updAll u.lines freshLines) (fun l =>
          { l with a := monRestart l.a, b := l.b.map monRestart }) =
          u.lines.map fun l => { a := freshMon true, b := l.b.map fun _ => freshMon true, lost := false } := by
        rw [updAll_map, updAll_map, Vector.map_map]
        refine congrArg (fun f => u.lines.map f) (funext fun l => ?_)
        simp only [Function.comp, freshLines, Option.map_map]
        rfl
      have h2 : ∀ {n : Nat} (v : Vector Health n), updAll (updAll v healthCleared) healthRestart =
          v.map fun h => { h with candidate := none, run := 0, dropped := !h.active, whole := true } := by
        intro n v
        rw [updAll_map, updAll_map, Vector.map_map]
        rfl
      unfold clearFaults windowRestart
      dsimp only
      rw [h1, h2, h2]
    exact (commandWith_replies (extra := noExtra) (own := oneReply) h (hc (inHand 1 s))).trans rfl
  · unfold writeEffects
    dsimp only
    rw [atIndex_fin]
    unfold limitsWritten
    dsimp only
    have hl : upd (inWriting z.val (.limits e') s).lines z (fun l =>
        { l with a := monEmptied l.a, b := l.b.map monEmptied }) = s.lines.set z (
        { s.lines[z] with
          a := if s.lines[z].a.state = .short then s.lines[z].a
            else { s.lines[z].a with candidate := none, run := 0 }
          b := s.lines[z].b.map fun m => if m.state = .short then m
            else { m with candidate := none, run := 0 } }) := by
      have : monEmptied = fun m => if m.state = .short then m else { m with candidate := none, run := 0 } :=
        funext monEmptied_eq
      rw [this]
      rfl
    rw [hl]
    rfl
  · unfold writeEffects
    dsimp only
    unfold windowRestart
    rw [updAll_map, updAll_map, updAll_map]
    rfl

end Sys2Proof.Machine

namespace Sys2Proof.Machine

/-! ## What the RIF holds after a frame (R176–R182) -/

theorem noteFrame_valid {s : State} {f : Frame} (h : s.rif.ring ≠ .locked) (hv : frameOk f = true)
    (gap : Bool) : noteFrame f gap s = { s with rif := { s.rif with
      run := if gap = true then 1 else min 32 (s.rif.run + 1)
      runStart := some (if gap = true then s.now else s.rif.runStart.getD s.now)
      lastOk := s.now, lossAt := s.now + 4, heard := silentSlots } } := by
  unfold noteFrame setRif
  rw [hv, not_locked_of h]
  simp only [Bool.true_and, Bool.false_and, Bool.or_false, if_true]
  rfl

theorem noteFrame_invalid {s : State} {f : Frame} (hv : frameOk f = false) (gap : Bool) :
    noteFrame f gap s = { s with rif := { s.rif with run := 0, runStart := none, heard := silentSlots } } := by
  unfold noteFrame setRif
  rw [hv]
  simp only [Bool.false_and, Bool.or_false]
  rfl

theorem receiveControl_unlocked {s : State} (h : s.rif.ring ≠ .locked) (f : Frame) :
    receiveControl f s = s := if_neg (by rw [not_locked_of h]; exact Bool.false_ne_true)

/-- What a LOCKED node holds of messages received after a frame. -/
theorem receiveControl_rif {s : State} (h : s.rif.ring = .locked) (f : Frame) (gap : Bool) :
    (receiveControl f (frameSampled f gap s)).rif =
      takePart (if stillPassing f s.rif.passing then none else receivePart f s.rif.rx)
        { (noteFrame f gap s).rif with passing := stillPassing f s.rif.passing } := by
  have hl : (frameSampled f gap s).locked = true := by
    rw [State.locked, frameSampled_rif]
    exact locked_of (s := s) h
  unfold receiveControl
  rw [if_pos hl, setRif_rif, frameSampled_rif]
  rfl

theorem takePart_frame (p : Option (List Byte)) (r : Rif) :
    takePart p r = { r with rx := (takePart p r).rx, arrived := (takePart p r).arrived } := by
  obtain e | ⟨bs, -, e | e⟩ := takePart_cases p r <;> rw [e]

/-- What goes on in the last part of a frame's reception is decided before it. -/
theorem handOn_node {s : State} (h : s.rif.master = false) (f : Frame) (mic : Sample) :
    handOn f mic s = forwardFrame f mic s := if_neg (by rw [h]; exact Bool.false_ne_true)

theorem handOn_master {s : State} (h : s.rif.master = true) (f : Frame) (mic : Sample) :
    handOn f mic s = if frameOk f then masterReceive f s else s := if_pos h

theorem markerOk_iff (f : Frame) : markerOk f = true ↔ f.marker = marker := beq_iff_eq

theorem forwardFrame_valid {f : Frame} (h : frameOk f = true) (mic : Sample) (s : State) :
    forwardFrame f mic s =
      advanceTx (setRif (fun r => { r with ringOut := some (forwarded s mic f) }) s) := by
  have hm : markerOk f = true := (markerOk_iff f).2 ((frameOk_iff f).1 h).1
  unfold forwardFrame
  rw [if_pos hm]
  exact if_pos h

theorem forwardFrame_void {f : Frame} (hm : f.marker = marker) (h : frameOk f = false) (mic : Sample)
    (s : State) : forwardFrame f mic s =
      setRif (fun r => { r with ringOut := some (voidFrame f) }) s := by
  have hf : forwarded s mic f = voidFrame f := if_neg (by rw [h]; exact Bool.false_ne_true)
  unfold forwardFrame
  rw [if_pos ((markerOk_iff f).2 hm), hf]
  exact if_neg (by rw [h]; exact Bool.false_ne_true)

theorem forwardFrame_unmarked {f : Frame} (hm : f.marker ≠ marker) (mic : Sample) (s : State) :
    forwardFrame f mic s = s := if_neg fun h => hm ((markerOk_iff f).1 h)

theorem advanceTx_none {s : State} (h : s.rif.tx = none) : advanceTx s = s := by
  unfold advanceTx
  rw [h]

/-- A frame takes four bytes of the message being sent; the last of them creates the return record of an own
one (R182, R188). -/
theorem advanceTx_some {s : State} {x : Tx} (h : s.rif.tx = some x) :
    (advanceTx s).rif.tx = (if x.rest.length ≤ 4 then none
      else some { x with rest := x.rest.drop 4, fresh := false }) ∧
    (advanceTx s).rif.returns = (if x.rest.length ≤ 4 ∧ x.own = true
      then s.rif.returns ++ [⟨x.tag, s.now + 50⟩] else s.rif.returns) := by
  have he : (x.rest.drop 4).isEmpty = true ↔ x.rest.length ≤ 4 := by
    rw [List.isEmpty_iff, List.drop_eq_nil_iff]
  unfold advanceTx
  rw [h]
  dsimp only
  by_cases hl : x.rest.length ≤ 4
  · rw [if_pos (he.2 hl), if_pos hl]
    refine ⟨rfl, ?_⟩
    by_cases ho : x.own = true
    · rw [if_pos ⟨hl, ho⟩]
      exact if_pos ho
    · rw [if_neg fun e => ho e.2]
      exact if_neg ho
  · rw [if_neg fun e => hl (he.1 e), if_neg hl, if_neg fun e => hl e.1]
    exact ⟨rfl, rfl⟩

theorem sealFrame_sealed {f : Frame} (h : f.check = crc16 (frameBody f)) : sealFrame f = f := by
  unfold sealFrame
  rw [← h]

/-- Outside LOCKED a valid frame goes on as received (R177). -/
theorem forwardFrame_unlocked {s : State} {f : Frame} (hl : s.rif.ring ≠ .locked) (htx : s.rif.tx = none)
    (hok : frameOk f = true) (mic : Sample) :
    forwardFrame f mic s = { s with rif := { s.rif with ringOut := some f } } := by
  have hf : forwarded s mic f = f := by
    unfold forwarded
    rw [if_pos hok, not_locked_of hl]
    exact sealFrame_sealed ((frameOk_iff f).1 hok).2
  rw [forwardFrame_valid hok, hf]
  exact advanceTx_none htx

/-- Settles O17. -/
theorem unlockedNodeForwards : Obligations.UnlockedNodeForwards := by
  refine ⟨fun f gap mic s hp hb => whenever_leaves (o := execRingFrameReceived f gap mic s) rfl
    (by simpa using hp) (if_pos hb), fun f gap mic s hp hb hl hm htx => ?_⟩
  have hrun : ∀ u : State, noteFrame f gap s = u → u.rif.ring = s.rif.ring → u.rif.master = false →
      exec (.ringFrameReceived f gap mic) s = .next (forwardFrame f mic u) := by
    intro u hu hr hm
    rw [exec_ringFrameReceived hp hb, frameSampled_unlocked hl, hu, receiveControl_unlocked (by rw [hr]; exact hl),
      handOn_node hm]
  refine ⟨fun hmk hc => ?_, fun hmk hc => ⟨voidFrame f, ?_, rfl, rfl, rfl, rfl, rfl, rfl, rfl, rfl⟩, fun hmk => ?_⟩
  · have hok := frameOk_of hmk hc
    rw [hrun _ (noteFrame_valid hl hok gap) rfl hm]
    exact congrArg Host.Outcome.next (forwardFrame_unlocked (s := { s with rif := { s.rif with
      run := if gap = true then 1 else min 32 (s.rif.run + 1)
      runStart := some (if gap = true then s.now else s.rif.runStart.getD s.now)
      lastOk := s.now, lossAt := s.now + 4, heard := silentSlots } }) hl htx hok mic)
  · have hok : frameOk f = false := not_frameOk fun h => hc h.2
    rw [hrun _ (noteFrame_invalid hok gap) rfl hm, forwardFrame_void hmk hok]
    rfl
  · have hok : frameOk f = false := not_frameOk fun h => hmk h.1
    rw [hrun _ (noteFrame_invalid hok gap) rfl hm, forwardFrame_unmarked hmk]

end Sys2Proof.Machine

namespace Sys2Proof.Machine

/-! ## Insertion (R154, R178) -/

theorem bit_of_one {n m : Nat} (hm : m < 32) : (1#32 <<< n).getLsbD m = decide (m = n) := by
  rw [BitVec.getLsbD_shiftLeft, BitVec.getLsbD_one]
  by_cases h : m = n
  · simp [h, hm]
    omega
  · simp [h, hm]
    omega

theorem insertSlot_self {n : Nat} (hn : n < 32) (mic : Sample) (f : Frame) :
    (insertSlot n mic f).slots[n]? = some mic ∧ (insertSlot n mic f).presence.getLsbD n = true ∧
      (insertSlot n mic f).relay.getLsbD n = false := by
  refine ⟨?_, ?_, ?_⟩
  · simp [insertSlot, hn]
  · rw [insertSlot, BitVec.getLsbD_or, bit_of_one hn]
    simp
  · rw [insertSlot, BitVec.getLsbD_and, BitVec.getLsbD_not, bit_of_one hn]
    simp

theorem insertSlot_other {n m : Nat} (hm : m < 32) (h : m ≠ n) (mic : Sample) (f : Frame) :
    (insertSlot n mic f).slots[m]? = f.slots[m]? ∧
      (insertSlot n mic f).presence.getLsbD m = f.presence.getLsbD m ∧
      (insertSlot n mic f).relay.getLsbD m = f.relay.getLsbD m := by
  refine ⟨?_, ?_, ?_⟩
  · simp [insertSlot, Ne.symm h]
  · rw [insertSlot, BitVec.getLsbD_or, bit_of_one hm]
    simp [h]
  · rw [insertSlot, BitVec.getLsbD_and, BitVec.getLsbD_not, bit_of_one hm]
    simp [h, hm]

theorem withInsertion_holding {s : State} {n label : Nat} (h : s.warden.slot = .holding n label)
    (hl : s.rif.ring = .locked) (mic : Sample) (f : Frame) :
    withInsertion s mic f = insertSlot n mic f := by
  unfold withInsertion insertionSlot
  rw [h]
  exact if_pos (locked_of hl)

theorem withInsertion_none {s : State} (h : ∀ n label, s.warden.slot ≠ .holding n label) (mic : Sample)
    (f : Frame) : withInsertion s mic f = f := by
  unfold withInsertion insertionSlot
  cases hs : s.warden.slot with
  | holding n label => exact absurd hs (h n label)
  | _ => rfl

/-- The insertion leaves what the frame shows of a slot that the warden does not hold. -/
theorem withInsertion_other {s : State} {m : Nat} (hm : m < 32)
    (h : ∀ label, s.warden.slot ≠ .holding m label) (mic : Sample) (f : Frame) :
    (withInsertion s mic f).slots[m]? = f.slots[m]? ∧
      (withInsertion s mic f).presence.getLsbD m = f.presence.getLsbD m ∧
      (withInsertion s mic f).relay.getLsbD m = f.relay.getLsbD m := by
  by_cases hh : ∃ n label, s.warden.slot = .holding n label
  · obtain ⟨n, label, hs⟩ := hh
    by_cases hl : s.rif.ring = .locked
    · rw [withInsertion_holding hs hl]
      exact insertSlot_other hm (fun e => h label (by rw [e]; exact hs)) mic f
    · have : withInsertion s mic f = f := by
        unfold withInsertion insertionSlot
        rw [hs]
        exact if_neg (by rw [not_locked_of hl]; exact Bool.false_ne_true)
      rw [this]
      exact ⟨rfl, rfl, rfl⟩
  · rw [withInsertion_none fun n label e => hh ⟨n, label, e⟩]
    exact ⟨rfl, rfl, rfl⟩

/-- The frame that a LOCKED node sends for a valid one. -/
theorem forwarded_locked {s : State} {f : Frame} (hl : s.rif.ring = .locked) (hok : frameOk f = true)
    (mic : Sample) : forwarded s mic f = sealFrame { withInsertion s mic f with
      control := (sentControl s f.control f.ctl).1, ctl := (sentControl s f.control f.ctl).2 } := by
  unfold forwarded
  rw [if_pos hok, if_pos (locked_of hl)]

theorem sentControl_passing {s : State} (h : s.rif.passing = true) (c : Control) (v : Vector Byte 4) :
    sentControl s c v = (c, v) := if_pos h

theorem sentControl_sending {s : State} {x : Tx} (h : s.rif.passing = false) (hx : s.rif.tx = some x)
    (c : Control) (v : Vector Byte 4) :
    sentControl s c v = (if x.fresh = true then .start else .continue, chunk x.rest) := by
  unfold sentControl
  rw [if_neg (by rw [h]; exact Bool.false_ne_true), hx]

theorem sentControl_idle {s : State} (h : s.rif.passing = false) (hx : s.rif.tx = none) (c : Control)
    (v : Vector Byte 4) : sentControl s c v = (if c = .void then .void else .idle, idleFill) := by
  unfold sentControl
  rw [if_neg (by rw [h]; exact Bool.false_ne_true), hx]

theorem withInsertion_marker (s : State) (mic : Sample) (f : Frame) :
    (withInsertion s mic f).marker = f.marker ∧ (withInsertion s mic f).count = f.count := by
  unfold withInsertion
  split
  · split <;> exact ⟨rfl, rfl⟩
  · exact ⟨rfl, rfl⟩

/-- A state in which a frame's last part comes about: its RIF, warden and moment are those of `s` but for what
reception has noted. -/
structure KeptByReception (s u : State) : Prop where
  ring    : u.rif.ring = s.rif.ring
  master  : u.rif.master = s.rif.master
  warden  : u.warden = s.warden
  now     : u.now = s.now
  slots   : u.slots = s.slots
  tx      : u.rif.tx = s.rif.tx
  returns : u.rif.returns = s.rif.returns
  out     : u.rif.ringOut = s.rif.ringOut
  carry   : u.rif.carry = s.rif.carry

theorem frameReceived (f : Frame) (gap : Bool) (s : State) :
    KeptByReception s (receiveControl f (frameSampled f gap s)) := by
  have hn : KeptByReception s (noteFrame f gap s) := ⟨rfl, rfl, rfl, rfl, rfl, rfl, rfl, rfl, rfl⟩
  by_cases hl : s.rif.ring = .locked
  · rw [receiveControl_frame, frameSampled_frame hl]
    exact ⟨rfl, rfl, rfl, rfl, rfl, rfl, rfl, rfl, rfl⟩
  · rwa [frameSampled_unlocked hl, receiveControl_unlocked (s := noteFrame f gap s) hl]

/-- What a valid frame holds after reception at a LOCKED node: a message in passage goes on in passage until a
frame whose control state is IDLE or START (R180). -/
theorem frame_passing {s : State} (h : s.rif.ring = .locked) (f : Frame) (gap : Bool) :
    (receiveControl f (frameSampled f gap s)).rif.passing = stillPassing f s.rif.passing := by
  rw [receiveControl_rif h, takePart_frame]

theorem stillPassing_valid {f : Frame} (h : frameOk f = true) (p : Bool) :
    stillPassing f p = true ↔ p = true ∧ f.control ≠ .idle ∧ f.control ≠ .start := by
  simp [stillPassing, h]

theorem stillPassing_invalid {f : Frame} (h : frameOk f = false) (p : Bool) : stillPassing f p = p := by
  simp [stillPassing, h]

/-- The frame that goes on for a valid one at a LOCKED node that is not the master, and what is left to send
(R177, R178, R182, R188). -/
theorem lockedFrame_sent {s u : State} {f : Frame} (hl : s.rif.ring = .locked) (hok : frameOk f = true)
    (hu : KeptByReception s u) (hp : u.rif.passing = stillPassing f s.rif.passing) (mic : Sample) :
    let t := forwardFrame f mic u
    ∃ g : Frame, t.rif.ringOut = some g ∧ g.marker = f.marker ∧ g.count = f.count ∧
      g.check = crc16 (frameBody g) ∧
      (∀ n label, s.warden.slot = .holding n label → n < 32 →
        g.slots[n]? = some mic ∧ g.presence.getLsbD n = true ∧ g.relay.getLsbD n = false ∧
        ∀ m < 32, m ≠ n → g.slots[m]? = f.slots[m]? ∧
          g.presence.getLsbD m = f.presence.getLsbD m ∧ g.relay.getLsbD m = f.relay.getLsbD m) ∧
      ((∀ n label, s.warden.slot ≠ .holding n label) →
        g.slots = f.slots ∧ g.presence = f.presence ∧ g.relay = f.relay) ∧
      (s.rif.passing = true → f.control ≠ .idle → f.control ≠ .start →
        g.control = f.control ∧ g.ctl = f.ctl) ∧
      ((s.rif.passing = false ∨ f.control = .idle ∨ f.control = .start) →
        (∀ x, s.rif.tx = some x →
          g.control = (if x.fresh = true then .start else .continue) ∧ g.ctl = chunk x.rest ∧
          t.rif.tx = (if x.rest.length ≤ 4 then none
            else some { x with rest := x.rest.drop 4, fresh := false }) ∧
          t.rif.returns = (if x.rest.length ≤ 4 ∧ x.own = true
            then s.rif.returns ++ [⟨x.tag, s.now + 50⟩] else s.rif.returns)) ∧
        (s.rif.tx = none →
          g.control = (if f.control = .void then .void else .idle) ∧ g.ctl = idleFill ∧
          t.rif.returns = s.rif.returns)) := by
  have hul : u.rif.ring = .locked := hu.ring.trans hl
  have hg := forwarded_locked hul hok mic
  obtain ⟨hmk, hct⟩ := withInsertion_marker u mic f
  intro t
  have ht : t = advanceTx (setRif (fun r => { r with ringOut := some (forwarded u mic f) }) u) :=
    forwardFrame_valid hok mic u
  have hpass : (s.rif.passing = false ∨ f.control = .idle ∨ f.control = .start) → u.rif.passing = false := by
    intro h
    rw [hp, ← Bool.not_eq_true, stillPassing_valid hok]
    rintro ⟨h1, h2, h3⟩
    rcases h with h | h | h
    · rw [h] at h1; cases h1
    · exact h2 h
    · exact h3 h
  refine ⟨forwarded u mic f, by rw [ht, advanceTx_frame]; rfl, by rw [hg]; exact hmk, by rw [hg]; exact hct,
    by rw [hg]; rfl, fun n label hs hn => ?_, fun hs => ?_, fun h1 h2 h3 => ?_, fun h => ⟨fun x hx => ?_, fun hx => ?_⟩⟩
  · rw [hg, withInsertion_holding (hu.warden ▸ hs) hul]
    obtain ⟨a, b, c⟩ := insertSlot_self hn mic f
    exact ⟨a, b, c, fun m hm hne => insertSlot_other hm hne mic f⟩
  · rw [hg, withInsertion_none (hu.warden ▸ hs)]
    exact ⟨rfl, rfl, rfl⟩
  · have hup : u.rif.passing = true := hp.trans ((stillPassing_valid hok _).2 ⟨h1, h2, h3⟩)
    rw [hg, sentControl_passing hup]
    exact ⟨rfl, rfl⟩
  · have hux : u.rif.tx = some x := hu.tx.trans hx
    obtain ⟨a, b⟩ := advanceTx_some
      (s := setRif (fun r => { r with ringOut := some (forwarded u mic f) }) u) hux
    rw [ht, a, b, hg, sentControl_sending (hpass h) hux, setRif_rif, hu.returns, setRif_now, hu.now]
    exact ⟨rfl, rfl, rfl, rfl⟩
  · have hux : u.rif.tx = none := hu.tx.trans hx
    rw [ht, advanceTx_none (s := setRif (fun r => { r with ringOut := some (forwarded u mic f) }) u) hux, hg,
      sentControl_idle (hpass h) hux]
    exact ⟨rfl, rfl, hu.returns⟩

/-- What is received so far of a message, and the complete ones, after a frame at a LOCKED node (R176, R180,
R181). -/
theorem frame_part {s : State} (hl : s.rif.ring = .locked) (f : Frame) (gap : Bool) :
    let r := (receiveControl f (frameSampled f gap s)).rif
    let noPart : Prop := r.rx = none ∧ r.arrived = s.rif.arrived
    (frameOk f = false → noPart) ∧
    (frameOk f = true →
      ((f.control = .idle ∨ f.control = .void ∨
        (f.control = .continue ∧ (s.rif.rx = none ∨ s.rif.passing = true))) → noPart) ∧
      (f.control = .start → r.rx = some f.ctl.toList ∧ r.arrived = s.rif.arrived) ∧
      ∀ (p : List Byte) (b : Byte), f.control = .continue → s.rif.passing = false →
        s.rif.rx = some p → (p ++ f.ctl.toList)[4]? = some b →
        (32 < b.toNat → noPart) ∧
        (b.toNat ≤ 32 → p.length + 4 < 10 + b.toNat →
          r.rx = some (p ++ f.ctl.toList) ∧ r.arrived = s.rif.arrived) ∧
        (b.toNat ≤ 32 → 10 + b.toNat ≤ p.length + 4 →
          r.rx = none ∧ r.arrived = s.rif.arrived ++ [p ++ f.ctl.toList])) := by
  intro r noPart
  have hr : r = takePart (if stillPassing f s.rif.passing then none else receivePart f s.rif.rx)
      { (noteFrame f gap s).rif with passing := stillPassing f s.rif.passing } := receiveControl_rif hl f gap
  have none_of : (if stillPassing f s.rif.passing then none else receivePart f s.rif.rx) = none → noPart := by
    intro h
    have hr' : r = takePart none { (noteFrame f gap s).rif with passing := stillPassing f s.rif.passing } := by
      rw [hr, h]
    exact ⟨congrArg Rif.rx hr', (congrArg Rif.arrived hr').trans rfl⟩
  have some_of : ∀ bs, stillPassing f s.rif.passing = false → receivePart f s.rif.rx = some bs →
      r = takePart (some bs) { (noteFrame f gap s).rif with passing := false } := by
    intro bs hp hb
    rw [hr, hp, hb]
    rfl
  refine ⟨fun hv => none_of ?_, fun hv => ⟨fun h => none_of ?_, fun h => ?_, fun p b hc hp hx hb => ?_⟩⟩
  · have : receivePart f s.rif.rx = none := if_neg (by rw [hv]; exact Bool.false_ne_true)
    rw [this, ite_self]
  · by_cases hp : stillPassing f s.rif.passing = true
    · exact if_pos hp
    · rw [if_neg hp]
      unfold receivePart
      rw [if_pos hv]
      rcases h with h | h | ⟨h, hx⟩
      · rw [h]
      · rw [h]
      · have hx : s.rif.rx = none := hx.resolve_right fun h' =>
          hp ((stillPassing_valid hv _).2 ⟨h', by rw [h]; exact fun e => (nomatch e), by rw [h]; exact fun e => (nomatch e)⟩)
        rw [h, hx]
  · have hp : stillPassing f s.rif.passing = false :=
      Bool.eq_false_iff.2 fun e => ((stillPassing_valid hv _).1 e).2.2 h
    have hb : receivePart f s.rif.rx = some f.ctl.toList := by
      unfold receivePart
      rw [if_pos hv, h]
    have h4 : f.ctl.toList[4]? = none := List.getElem?_eq_none (by simp)
    rw [some_of _ hp hb]
    unfold takePart
    dsimp only
    rw [h4]
    exact ⟨rfl, rfl⟩
  · have hp' : stillPassing f s.rif.passing = false :=
      Bool.eq_false_iff.2 fun e => Bool.false_ne_true (hp.symm.trans ((stillPassing_valid hv _).1 e).1)
    have hb' : receivePart f s.rif.rx = some (p ++ f.ctl.toList) := by
      unfold receivePart
      rw [if_pos hv, hc, hx]
    have hlen : (p ++ f.ctl.toList).length = p.length + 4 := by simp
    have e := some_of _ hp' hb'
    unfold takePart at e
    dsimp only at e
    rw [hb] at e
    dsimp only at e
    refine ⟨fun h1 => ?_, fun h1 h2 => ?_, fun h1 h2 => ?_⟩
    · rw [if_pos h1] at e
      exact ⟨congrArg Rif.rx e, (congrArg Rif.arrived e).trans rfl⟩
    · rw [if_neg (Nat.not_lt.2 h1), if_neg (by omega)] at e
      exact ⟨congrArg Rif.rx e, (congrArg Rif.arrived e).trans rfl⟩
    · rw [if_neg (Nat.not_lt.2 h1), if_pos (by omega)] at e
      exact ⟨congrArg Rif.rx e, (congrArg Rif.arrived e).trans rfl⟩

/-- Settles O18. -/
theorem heldSlotInserted : Obligations.HeldSlotInserted := by
  have hb : ∀ s : State, s.rif.ring = .locked → s.rif.ring ≠ .bypass := fun s h => by
    rw [h]; exact fun e => nomatch e
  refine ⟨fun f gap mic s hp hl hm hmk hc => ?_, fun f gap mic s hp hl hm hmk hc => ?_, fun f gap mic s hp hl => ?_⟩
  · have hk := frameReceived f gap s
    obtain ⟨g, hg⟩ := lockedFrame_sent hl (frameOk_of hmk hc) hk (frame_passing hl f gap) mic
    refine ⟨_, g, ?_, hg⟩
    rw [exec_ringFrameReceived hp (hb s hl), handOn_node (hk.master.trans hm)]
  · have hk := frameReceived f gap s
    have hok : frameOk f = false := not_frameOk fun h => hc h.2
    obtain ⟨hnone, -⟩ := frame_part hl f gap
    obtain ⟨hrx, harr⟩ := hnone hok
    have he : exec (.ringFrameReceived f gap mic) s = .next
        (setRif (fun r => { r with ringOut := some (voidFrame f) }) (receiveControl f (frameSampled f gap s))) := by
      rw [exec_ringFrameReceived hp (hb s hl), handOn_node (hk.master.trans hm), forwardFrame_void hmk hok]
    exact ⟨_, voidFrame f, he, rfl, rfl, rfl, rfl, rfl, rfl, rfl, rfl, rfl, hk.tx, hrx, harr, hk.returns⟩
  · refine ⟨_, exec_ringFrameReceived hp (hb s hl) f gap mic, ?_⟩
    rw [handOn_frame]
    obtain ⟨hnone, hpart⟩ := frame_part hl f gap
    have hpass := frame_passing hl f gap
    refine ⟨fun h => ⟨hnone (not_frameOk h), ?_⟩, fun ⟨hmk, hc⟩ => ⟨fun h => ?_, fun h => ?_, hpart (frameOk_of hmk hc)⟩⟩
    · exact hpass.trans (stillPassing_invalid (not_frameOk h) _)
    · refine hpass.trans (Bool.eq_false_iff.2 fun e => ?_)
      obtain ⟨-, h1, h2⟩ := (stillPassing_valid (frameOk_of hmk hc) _).1 e
      exact h.elim h1 h2
    · refine hpass.trans (Bool.eq_iff_iff.2 ((stillPassing_valid (frameOk_of hmk hc) _).trans ?_))
      refine and_iff_left ?_
      rcases h with h | h <;> rw [h] <;> exact ⟨fun e => (nomatch e), fun e => (nomatch e)⟩

end Sys2Proof.Machine

namespace Sys2Proof.Machine

/-! ## The capture's sample and the channels (O19) -/

theorem captureSample_none {s : State} (h : s.capture = none) (v : Vector (Option Sample) 32) :
    captureSample v s = s := by
  unfold captureSample
  rw [h]

/-- A capture that has met no limit takes the sample heard in its slot, or silence (R140). -/
theorem captureSample_takes {s : State} {c : Capture} {p : Phrase} (hc : s.capture = some c)
    (hp : s.work.phrases[c.phrase]? = some p) (h1 : c.recorded < p.capacity) (h2 : c.recorded < c.maxSamples)
    (v : Vector (Option Sample) 32) : captureSample v s = { s with
      store := storeWrite s.store (p.start + c.recorded) (match v[c.slot]? with
        | some (some x) => x
        | _ => 0#16)
      capture := some { c with recorded := c.recorded + 1 } } := by
  have hl : c.recorded < captureLimit s c := by
    unfold captureLimit
    rw [hp]
    exact lt_min h1 h2
  unfold captureSample
  rw [hc]
  dsimp only
  rw [hp]
  exact if_pos hl

/-- The sample of a slot as a frame has it: silence where its presence flag is clear (R105). -/
theorem heardSlots_sample (f : Frame) {n : Nat} (hn : n < 32) :
    (match (heardSlots f)[n]? with
      | some (some x) => x
      | _ => 0#16) = if f.presence.getLsbD n = true then f.slots.toList.getD n 0#16 else 0#16 := by
  have hs : f.slots.toList.getD n 0#16 = f.slots[n] := by
    rw [List.getD_eq_getElem?_getD, Vector.getElem?_toList, Vector.getElem?_eq_getElem hn]
    rfl
  rw [heardSlots, Vector.getElem?_eq_getElem hn, Vector.getElem_ofFn, hs]
  dsimp only
  by_cases hp : f.presence.getLsbD n = true
  · simp [hp]
  · simp [hp]

theorem silentSlots_sample (n : Nat) : (match silentSlots[n]? with
      | some (some x) => x
      | _ => 0#16) = (0#16 : Sample) := by
  by_cases hn : n < 32
  · rw [silentSlots, Vector.getElem?_eq_getElem hn, Vector.getElem_replicate]
  · rw [silentSlots, Vector.getElem?_eq_none (Nat.le_of_not_lt hn)]

/-- One sample time of a running channel (R129–R131). -/
theorem chanSamples_one {c : ChanRun} (h : c.state = .running) :
    (c.kind = .phrase → c.due = false →
      (1 < c.remaining → chanSamples 1 c = { c with addr := c.addr + 1, remaining := c.remaining - 1 }) ∧
      (c.remaining = 1 → chanSamples 1 c = { c with due := true })) ∧
    (c.kind = .phrase → c.due = true → chanSamples 1 c = { c with owed := c.owed + 1 }) ∧
    (c.kind ≠ .phrase → 0 < c.remaining → chanSamples 1 c = c) ∧
    (c.kind ≠ .phrase → c.remaining = 0 → 0 < c.late →
      chanSamples 1 c = { c with late := c.late - 1 }) := by
  have hphrase : c.kind = .phrase → chanSamples 1 c = phraseGive 1 c := by
    intro hk
    unfold chanSamples
    rw [if_pos h, hk]
  have hsilent : c.kind ≠ .phrase → chanSamples 1 c =
      if c.remaining = 0 then { c with late := c.late - 1, owed := c.owed + (1 - c.late) } else c := by
    intro hk
    unfold chanSamples
    rw [if_pos h]
    cases hc : c.kind with
    | phrase => exact absurd hc hk
    | gap => rfl
    | missing => rfl
  refine ⟨fun hk hd => ⟨fun hr => ?_, fun hr => ?_⟩, fun hk hd => ?_, fun hk hr => ?_, fun hk hr hl => ?_⟩
  · rw [hphrase hk, phraseGive, hd]
    exact (if_neg Bool.false_ne_true).trans (if_pos hr)
  · rw [hphrase hk, phraseGive, hd]
    refine (if_neg Bool.false_ne_true).trans ((if_neg (by omega)).trans ?_)
    rw [hr]
    simp only [Nat.sub_self, Nat.add_zero]
  · rw [hphrase hk, phraseGive, hd]
    rfl
  · rw [hsilent hk]
    exact if_neg (by omega)
  · rw [hsilent hk, if_pos hr]
    have : c.owed + (1 - c.late) = c.owed := by omega
    rw [this]

/-- Settles O19. -/
theorem captureTakesSample : Obligations.CaptureTakesSample := by
  intro f gap mic s hp hl hst
  refine ⟨_, exec_ringFrameReceived hp (by rw [hl]; exact fun e => nomatch e) f gap mic, ?_⟩
  have hh := noteFrame_heard hl f gap
  rw [handOn_frame, receiveControl_frame]
  refine ⟨by rw [frameSampled_frame hl], fun hc => ?_, fun c p hc hph hs h1 h2 => ?_, fun n hn => ?_⟩
  · rw [frameSampled_locked hl]
    have hn := captureSample_none (s := { noteFrame f gap s with
      chans := updAll s.chans (chanSamples 1), sampleTimes := s.sampleTimes + 1 }) hc (noteFrame f gap s).rif.heard
    rw [hn]
    exact ⟨rfl, hc⟩
  · rw [frameSampled_locked hl]
    have ht := captureSample_takes (s := { noteFrame f gap s with
      chans := updAll s.chans (chanSamples 1), sampleTimes := s.sampleTimes + 1 }) hc hph h1 h2
      (noteFrame f gap s).rif.heard
    rw [ht]
    have hself : ∀ v, storeRead (storeWrite s.store (p.start + c.recorded) v) (p.start + c.recorded) = v :=
      storeRead_write_self s.store hst _
    refine ⟨rfl, fun hmk hck => (hself _).trans ?_, fun hn => (hself _).trans ?_, fun a ha => ?_⟩
    · rw [hh, frameOk_of hmk hck, if_pos rfl]
      exact heardSlots_sample f hs
    · rw [hh, not_frameOk hn, if_neg Bool.false_ne_true]
      exact silentSlots_sample _
    · exact storeRead_write_other s.store _ _ ha.symm _ hst
  · have hch : (frameSampled f gap s).chans[n] = chanSamples 1 s.chans[n] := by
      rw [frameSampled_frame hl]
      exact updAll_get s.chans (chanSamples 1) n
    rw [hch]
    exact chanSamples_one hn

/-! ## The master's frames (O20) -/

/-- The frame that the master carries round again: the latest one kept, or an empty one (R178). -/
def carriedFrame (c : Option Frame) : Frame :=
  match c with
  | some g => carried g
  | none => emptyFrame

theorem originated_eq (s : State) (mic : Sample) : originated s mic =
    let f := carriedFrame s.rif.carry
    let c := if s.locked then sentControl s f.control f.ctl else (Control.idle, idleFill)
    sealFrame { withInsertion s mic f with
      marker := marker, count := s.rif.count
      control := if c.1 = .void then .idle else c.1, ctl := c.2 } := rfl

theorem carried_bits (f : Frame) {m : Nat} (hm : m < 32) :
    (carried f).presence.getLsbD m = (f.presence.getLsbD m && !f.relay.getLsbD m) ∧
      (carried f).relay.getLsbD m = (f.presence.getLsbD m && !f.relay.getLsbD m) ∧
      (carried f).slots[m]? = if (f.presence.getLsbD m && !f.relay.getLsbD m) then f.slots[m]? else some 0#16 := by
  have hb : (f.presence &&& ~~~f.relay).getLsbD m = (f.presence.getLsbD m && !f.relay.getLsbD m) := by
    rw [BitVec.getLsbD_and, BitVec.getLsbD_not]
    simp [hm]
  refine ⟨hb, hb, ?_⟩
  unfold carried
  dsimp only
  rw [Vector.getElem?_eq_getElem hm, Vector.getElem_ofFn]
  dsimp only
  rw [hb, Vector.getElem?_eq_getElem hm]
  split <;> rfl

/-- A slot that is carried shows its sample with the relay mark set; every other is cleared (R178). -/
theorem carriedFrame_slot (c : Option Frame) {m : Nat} (hm : m < 32) :
    (∀ f, c = some f → f.presence.getLsbD m = true → f.relay.getLsbD m = false →
      (carriedFrame c).slots[m]? = f.slots[m]? ∧ (carriedFrame c).presence.getLsbD m = true ∧
        (carriedFrame c).relay.getLsbD m = true) ∧
    ((∀ f, c = some f → f.presence.getLsbD m = false ∨ f.relay.getLsbD m = true) →
      (carriedFrame c).slots[m]? = some 0#16 ∧ (carriedFrame c).presence.getLsbD m = false ∧
        (carriedFrame c).relay.getLsbD m = false) := by
  refine ⟨fun f hf hp hr => ?_, fun h => ?_⟩
  · obtain ⟨a, b, e⟩ := carried_bits f hm
    rw [hp, hr] at a b e
    subst hf
    exact ⟨e, a, b⟩
  · cases c with
    | none =>
      have hs : (Vector.replicate 32 0#16)[m]? = some 0#16 := by
        rw [Vector.getElem?_eq_getElem hm, Vector.getElem_replicate]
      exact ⟨hs, BitVec.getLsbD_zero, BitVec.getLsbD_zero⟩
    | some f =>
      obtain ⟨a, b, e⟩ := carried_bits f hm
      have hlive : (f.presence.getLsbD m && !f.relay.getLsbD m) = false := by
        rcases h f rfl with h | h <;> rw [h]
        · rfl
        · exact Bool.and_false _
      rw [hlive] at a b e
      exact ⟨e, a, b⟩

theorem masterReceive_slot (f : Frame) (s : State) (i : Fin 16) :
    (masterReceive f s).slots.entries[i] =
      if s.slots.entries[i].held.isSome = true ∧ f.presence.getLsbD (16 + i.val) = true ∧
          f.relay.getLsbD (16 + i.val) = false
      then { s.slots.entries[i] with absence := 0 } else s.slots.entries[i] := by
  have h : (masterReceive f s).slots.entries[i] = freshPresence f i s.slots.entries[i] := by
    simp [masterReceive]
  rw [h, freshPresence]
  simp only [Bool.and_eq_true, Bool.not_eq_true', and_assoc]

/-- Settles O20. -/
theorem masterCarriesSlots : Obligations.MasterCarriesSlots := by
  refine ⟨fun f gap mic s hp hm hb => ?_, fun mic s hp hm hb => ?_⟩
  · have hk := frameReceived f gap s
    refine ⟨_, exec_ringFrameReceived hp hb f gap mic, ?_⟩
    rw [handOn_master (hk.master.trans hm)]
    by_cases hv : frameOk f = true
    · rw [if_pos hv]
      refine ⟨hk.out, ?_, fun _ _ => ⟨rfl, fun i => ?_⟩, fun hn => absurd ((frameOk_iff f).1 hv) hn⟩
      · rw [← hk.slots]
        rfl
      · rw [masterReceive_slot, hk.slots]
    · rw [if_neg hv, hk.slots]
      exact ⟨hk.out, rfl, fun hmk hc => absurd (frameOk_of hmk hc) hv, fun _ => ⟨hk.carry, rfl⟩⟩
  · have hc : (s.running && s.rif.master && s.rif.ring != .bypass) = true := by
      simp [State.running, hp, hm, hb]
    let u := setRif (fun r =>
      { r with ringOut := some (originated s mic), carry := none, count := r.count + 1#4 }) s
    have he : exec (.masterFrameOriginate mic) s = .next (advanceTx u) :=
      whenever_leaves (o := execMasterFrameOriginate mic s) rfl hc rfl
    have hg := originated_eq s mic
    refine ⟨_, originated s mic, he, by rw [advanceTx_frame]; rfl, by rw [hg]; rfl, by rw [hg]; rfl, by rw [hg]; rfl,
      by rw [advanceTx_frame]; rfl, by rw [advanceTx_frame]; rfl, by rw [advanceTx_frame]; rfl, fun m hm hs => ?_,
      fun x hl hpass hx => ?_, fun hx => ?_, fun h => ?_, fun n label hs hn hl => ?_⟩
    · obtain ⟨a, b, c⟩ := withInsertion_other hm hs mic (carriedFrame s.rif.carry)
      rw [hg]
      dsimp only [sealFrame]
      rw [a, b, c]
      exact carriedFrame_slot _ hm
    · obtain ⟨a, b⟩ := advanceTx_some (s := u) hx
      rw [a, b, hg]
      dsimp only [sealFrame]
      rw [if_pos (locked_of hl), sentControl_sending hpass hx]
      refine ⟨?_, rfl, rfl, rfl⟩
      dsimp only
      cases x.fresh <;> rfl
    · rw [advanceTx_none (s := u) hx]
      rfl
    · have : (if s.locked then sentControl s (carriedFrame s.rif.carry).control (carriedFrame s.rif.carry).ctl
          else (Control.idle, idleFill)).1 ∈ [Control.idle, .void] ∧
          (if s.locked then sentControl s (carriedFrame s.rif.carry).control (carriedFrame s.rif.carry).ctl
          else (Control.idle, idleFill)).2 = idleFill := by
        rcases h with h | ⟨h1, h2⟩
        · rw [if_neg (by rw [not_locked_of h]; exact Bool.false_ne_true)]
          exact ⟨by simp, rfl⟩
        · split
          · rw [sentControl_idle h1 h2]
            refine ⟨?_, rfl⟩
            dsimp only
            split <;> simp
          · exact ⟨by simp, rfl⟩
      obtain ⟨h1, h2⟩ := this
      rw [hg]
      refine ⟨?_, h2⟩
      simp only [List.mem_cons, List.not_mem_nil, or_false] at h1
      refine (ite_eq_left_iff (x := Control.idle)).2 fun hv => (h1.resolve_right hv)
    · rw [hg]
      dsimp only [sealFrame]
      rw [withInsertion_holding hs hl]
      exact insertSlot_self hn mic _

end Sys2Proof.Machine

namespace Sys2Proof.Machine

/-! ## Changes of ring state at the outputs (R104, R109, R110) -/

theorem ringToZone_serving (z : Zone) (s : State) : (ringToZone z s).serving = s.serving := by
  unfold ringToZone
  dsimp only
  split
  · exact (listenerChange_sounds _ _ _).serving
  · rfl

theorem ringToOutputs_serving (s : State) : (ringToOutputs s).serving = s.serving := by
  have h : ∀ (l : List Zone) (u : State), (l.foldl (fun t z => ringToZone z t) u).serving = u.serving := by
    intro l
    induction l with
    | nil => exact fun _ => rfl
    | cons z l ih => exact fun u => (ih _).trans (ringToZone_serving z u)
  exact h allZones s

/-- What a change of ring state changes at the zones: outputs and what sounds. -/
theorem ringToOutputs_frame (s : State) : ringToOutputs s = { s with
    outs := (ringToOutputs s).outs, cads := (ringToOutputs s).cads, chans := (ringToOutputs s).chans
    phraseMissing := (ringToOutputs s).phraseMissing, reports := (ringToOutputs s).reports
    reportOverflow := (ringToOutputs s).reportOverflow } := by
  have h := ringToOutputs_hands s
  unfold HandsOnly at h
  rw [ringToOutputs_serving] at h
  exact h

theorem settleSource_settled (ring : RingState) (o : ZoneOut) : settleSource ring o = { o with
    effective := (settleSource ring o).effective, substituted := (settleSource ring o).substituted
    current := if (settleSource ring o).effective = o.effective then o.current else 120 } := rfl

/-- A change of ring state leaves every output as R104 and R109 have it. -/
theorem ringToOutputs_settled {s u : State} (ho : u.outs = s.outs) (hw : u.work = s.work) (z : Zone) :
    RingSettled s (ringToOutputs u) z := by
  have h := ringToOutputs_outs z u
  rw [zoneInUse, spk, hw, ho] at h
  refine ⟨fun hu => ?_, fun hu => ?_⟩
  · rw [h, hu]
    rfl
  · rw [if_pos hu] at h
    rw [h]
    exact settleSource_settled _ _

theorem RingSettled.of {s t u : State} {z : Zone} (h : RingSettled s t z) (e : u.outs = t.outs) :
    RingSettled s u z := by
  unfold RingSettled at *
  rwa [e]

/-- The effective source of a zone in use after a change of ring state. -/
theorem ringToOutputs_effective {s u : State} (ho : u.outs = s.outs) (hw : u.work = s.work) {z : Zone}
    (hu : s.work.spk[z].inUse = true) :
    ((ringToOutputs u).outs[z].effective, (ringToOutputs u).outs[z].substituted) =
      effectiveOf u.rif.ring s.outs[z].source s.outs[z].fallback := by
  have h := ringToOutputs_outs z u
  rw [zoneInUse, spk, hw, ho, if_pos hu] at h
  rw [h]
  rfl

theorem effectiveOf_own {ring : RingState} (h : ring ≠ .isolated) (src : Source) (fb : Option Fallback) :
    effectiveOf ring src fb = (src, false) := by
  unfold effectiveOf
  split
  · exact absurd rfl h
  · rfl

theorem effectiveOf_noRing {src : Source} (h : ∀ n, src ≠ .ring n) (ring : RingState) (fb : Option Fallback) :
    effectiveOf ring src fb = (src, false) := by
  unfold effectiveOf
  split
  · exact absurd rfl (h _)
  · rfl

theorem listenerChange_same (a : Source) (s : State) : listenerChange a a s = s := if_pos rfl

/-- Outputs that stand as the ring state has them stay, with everything else, at a change that calls for the
same. -/
theorem ringToOutputs_same {s : State} (h : ∀ z : Zone, zoneInUse s z = true →
    settleSource s.rif.ring s.outs[z] = s.outs[z]) : ringToOutputs s = s := by
  have hz : ∀ z : Zone, ringToZone z s = s := by
    intro z
    unfold ringToZone
    dsimp only
    split
    next hu =>
      have hs : setOut z s.outs[z] s = s := by
        unfold setOut
        have : s.outs.set z s.outs[z] = s.outs := by simp
        rw [this]
      rw [h z hu, listenerChange_same, hs]
    · rfl
  have hf : ∀ l : List Zone, l.foldl (fun t z => ringToZone z t) s = s := by
    intro l
    induction l with
    | nil => rfl
    | cons z l ih => rw [List.foldl_cons, hz, ih]
  exact hf allZones

/-- Outputs that follow the claims outside ISOLATED are as they are in every other state but ISOLATED. -/
theorem OutputsFollow.settled {s : State} (h : OutputsFollow s) (hr : s.rif.ring ≠ .isolated) {ring : RingState}
    (hn : ring ≠ .isolated) {z : Zone} (hu : zoneInUse s z = true) :
    settleSource ring s.outs[z] = s.outs[z] := by
  obtain ⟨-, -, -, -, -, he⟩ := h.outOk hu
  rw [effectiveOf_own hr] at he
  obtain ⟨e1, e2⟩ := Prod.mk.injEq _ _ _ _ ▸ he
  unfold settleSource
  dsimp only
  rw [effectiveOf_own hn]
  dsimp only
  rw [if_pos e1.symm]
  exact congrArg₂ (fun a b => { s.outs[z] with effective := a, substituted := b }) e1.symm e2.symm

/-! ## RING_LOSS and RING_ISOLATION (O28, O29) -/

theorem abortCapture_none {s : State} (h : s.capture = none) : abortCapture s = s := by
  unfold abortCapture
  rw [h]

/-- A capture aborted answers its requester where there is room and none waits before it, and later otherwise
(R142, R197). -/
theorem abortCapture_some {s : State} {c : Capture} (h : s.capture = some c) :
    (s.deferred = [] → 0 < s.room →
      (abortCapture s).outbound = s.outbound ++ [replyMsg c.requester .capture .aborted .none] ∧
      (abortCapture s).deferred = []) ∧
    ((s.deferred ≠ [] ∨ s.room = 0) → (abortCapture s).outbound = s.outbound ∧
      (abortCapture s).deferred = s.deferred ++ [replyMsg c.requester .capture .aborted .none]) := by
  have ha : abortCapture s =
      placeOrDefer (replyMsg c.requester .capture .aborted .none) { s with capture := none } := by
    unfold abortCapture
    rw [h]
  have hroom : State.room { s with capture := none } = s.room := rfl
  refine ⟨fun hd hr => ?_, fun hn => ?_⟩
  · rw [ha, placeOrDefer, if_pos (by rw [hroom]; simp [hd, hr])]
    exact ⟨rfl, hd⟩
  · rw [ha, placeOrDefer, if_neg]
    · exact ⟨rfl, rfl⟩
    · rw [hroom]
      rcases hn with hn | hn <;> simp [hn]

/-- Settles O28. -/
theorem ringLost : Obligations.RingLost := by
  intro s hp hl hd
  have hc : (s.running && s.locked && decide (s.rif.lossAt ≤ s.now)) = true := by
    simp [State.running, hp, locked_of hl, hd]
  let u := setRing .lost (leaveLocked s)
  refine ⟨abortCapture (ringToOutputs u), whenever_leaves (o := execRingLoss s) rfl hc rfl, ?_⟩
  have hf := ringToOutputs_frame u
  have hcap : (ringToOutputs u).capture = s.capture := by rw [hf]; rfl
  have hdef : (ringToOutputs u).deferred = s.deferred := by rw [hf]; rfl
  have hout : (ringToOutputs u).outbound = s.outbound := by rw [hf]; rfl
  have hroom : (ringToOutputs u).room = s.room := by unfold State.room; rw [hf]; rfl
  refine ⟨by rw [abortCapture_frame, hf]; rfl, by rw [abortCapture_frame, hf]; rfl, abortCapture_capture _,
    by rw [abortCapture_frame, hf]; rfl, fun z => ?_, fun h => ?_, fun c hs h1 h2 => ?_, fun c hs h1 => ?_,
    fun hs => ?_, ?_⟩
  · exact (ringToOutputs_settled (s := s) (u := u) rfl rfl z).of (by rw [abortCapture_frame])
  · have hsame : ringToOutputs u = u := ringToOutputs_same fun z hu =>
      h.settled (ring := .lost) (by rw [hl]; exact fun e => RingState.noConfusion e)
        (fun e => RingState.noConfusion e) hu
    rw [hsame, abortCapture_frame]
    exact ⟨rfl, rfl, rfl, rfl, rfl, rfl⟩
  · obtain ⟨a, b⟩ := (abortCapture_some (hcap.trans hs)).1 (hdef.trans h1) (by rw [hroom]; exact h2)
    exact ⟨by rw [a, hout], b⟩
  · obtain ⟨a, b⟩ := (abortCapture_some (hcap.trans hs)).2 (by rw [hdef, hroom]; exact h1)
    exact ⟨by rw [a, hout], by rw [b, hdef]⟩
  · rw [abortCapture_none (hcap.trans hs)]
    exact ⟨hout, hdef⟩
  · have ha := abortCapture_frame (ringToOutputs u)
    rw [abortCapture_capture] at ha
    generalize abortCapture (ringToOutputs u) = a at ha
    generalize ringToOutputs u = r at ha hf
    rw [ha, hf]
    rfl

theorem report_room {b : ReportBody} {s : State} (h : s.reports.length < 16) :
    report b s = { s with reports := s.reports ++ [⟨b, s.now⟩] } := if_pos h

/-- Settles O29. -/
theorem ringIsolates : Obligations.RingIsolates := by
  intro s hp hl hd hr hrep
  have hc : (s.running && s.rif.ring == .lost && decide (s.rif.since + Config.isolationMs ≤ s.now) &&
      decide (s.rif.run < Config.lockFrames)) = true := by
    have h1 : s.rif.since + Config.isolationMs ≤ s.now := hd
    have h2 : s.rif.run < Config.lockFrames := hr
    simp [State.running, hp, hl, h1, h2]
  let u : State := { s with
    reports := s.reports ++ [⟨.isolationEntered, s.now⟩]
    isoTimer := isolationTimer s.work.node.isoDelay
    rif := { s.rif with ring := .isolated, since := s.now, run := 0, runStart := none } }
  have hu : setRing .isolated (report .isolationEntered
      { setRif (fun r => { r with run := 0, runStart := none }) s with
        isoTimer := isolationTimer s.work.node.isoDelay }) = u := by
    rw [report_room (s := { setRif (fun r => { r with run := 0, runStart := none }) s with
      isoTimer := isolationTimer s.work.node.isoDelay }) hrep]
    rfl
  have he : exec .ringIsolation s = .next (ringToOutputs u) :=
    whenever_leaves (o := execRingIsolation s) rfl hc (congrArg ringToOutputs hu)
  refine ⟨_, he, (ringToOutputs_later u).reports, fun z n hu hs => ?_,
    fun z => ⟨ringToOutputs_settled (s := s) (u := u) rfl rfl z, fun hu hs => ?_⟩, ?_⟩
  · have hz := ringToOutputs_effective (s := s) (u := u) rfl rfl hu
    rw [hs] at hz
    refine ⟨fun k hk => ?_, fun k hk => ?_, fun hk => ?_⟩ <;> rw [hk] at hz <;> exact Prod.mk.inj hz
  · have hz := ringToOutputs_effective (s := s) (u := u) rfl rfl hu
    rw [effectiveOf_noRing hs] at hz
    exact Prod.mk.inj hz
  · have hf := ringToOutputs_frame u
    generalize ringToOutputs u = r at hf
    rw [hf]
    rfl

end Sys2Proof.Machine

namespace Sys2Proof.Machine

/-! ## RING_LOCK and ISOLATED_RELOCK (O27) -/

/-- What the announcement of a press changes: the slot record, its message, and the report of its want of
room. -/
theorem announce_frame (s : State) : announce s = { s with
    warden := (announce s).warden, outbound := (announce s).outbound
    reports := (announce s).reports, reportOverflow := (announce s).reportOverflow } := by
  unfold announce
  split
  · split
    · unfold sendRequest
      split
      · rfl
      · obtain ⟨-, e⟩ | ⟨-, e⟩ := report_cases (.wardenLocalOnly .noRoom) s <;> rw [e]
    · rfl
    · rfl
  · rfl

theorem announce_later (s : State) : Later s (announce s) := by
  unfold announce
  split
  · split
    · unfold sendRequest
      split
      · exact .same rfl rfl
      · exact report_later _ _
    · exact .same rfl rfl
    · exact .refl s
  · exact .refl s

theorem announce_lists (s : State) : (announce s).lists = s.lists := by rw [announce_frame]
theorem announce_alarmLock (s : State) : (announce s).alarmLock = s.alarmLock := by rw [announce_frame]
theorem announce_capture (s : State) : (announce s).capture = s.capture := by rw [announce_frame]
theorem announce_outs (s : State) : (announce s).outs = s.outs := by rw [announce_frame]

theorem mayRequest_iff (s : State) : mayRequest s = true ↔
    s.warden.key = .pressed ∧ s.warden.talk ≠ none ∧ s.work.warden.enabled = true ∧
      s.work.warden.announce = true ∧ s.warden.cleared = false ∧ s.rif.ring = .locked := by
  simp [mayRequest, State.locked, Option.isSome_iff_ne_none, and_assoc]

/-- A press that may have its slot requested sends its request, or reports the want of room (R152). -/
theorem announce_requests {s : State} (h : mayRequest s = true) (hs : s.warden.slot = .none) :
    (0 < s.room → (announce s).warden.slot = .requested (s.now + 100) ∧
      (announce s).outbound = s.outbound ++ [{ dest := 253, content := .command true (.slotRequest 1) }]) ∧
    (s.room = 0 → (announce s).warden = s.warden ∧ (announce s).outbound = s.outbound ∧
      ToldLast (.wardenLocalOnly .noRoom) (announce s)) := by
  have ha : announce s = sendRequest s := by
    unfold announce
    rw [if_pos h, hs]
  refine ⟨fun hr => ?_, fun hr => ?_⟩
  · rw [ha, sendRequest, if_pos hr]
    exact ⟨rfl, rfl⟩
  · rw [ha, sendRequest, if_neg (by omega)]
    exact ⟨by rw [report_warden], by rw [(report_sounds _ _).hands.outbound], report_toldLast _ _⟩

theorem announce_not {s : State} (h : mayRequest s = false) : announce s = s :=
  if_neg (by rw [h]; exact Bool.false_ne_true)

/-- A node that locks from `u`, which agrees with `s` in what zones and warden see: every zone plays its own
source, and the press in progress is announced (R104, R152, R155, R180). -/
theorem locks_of {s u : State} (hring : u.rif.ring = .locked) (ho : u.outs = s.outs) (hw : u.work = s.work)
    (hlists : u.lists = s.lists) (hlock : u.alarmLock = s.alarmLock) (hcap : u.capture = s.capture)
    (hnow : u.now = s.now) (hout : u.outbound = s.outbound) (hres : u.reserved = s.reserved)
    (hwar : s.warden.slot = .none → u.warden = s.warden) :
    ∀ t : State, t = announce (ringToOutputs u) → t.lists = s.lists ∧ t.alarmLock = s.alarmLock ∧ t.capture = s.capture ∧
    (∀ z : Zone, s.work.spk[z].inUse = true →
      t.outs[z].effective = s.outs[z].source ∧ t.outs[z].substituted = false) ∧
    (∀ z : Zone, RingSettled s t z) ∧
    (s.warden.slot = .none → s.warden.key = .pressed → s.warden.talk ≠ none →
      s.work.warden.enabled = true → s.work.warden.announce = true → s.warden.cleared = false →
      (0 < s.room → t.warden.slot = .requested (s.now + 100) ∧
        t.outbound = s.outbound ++ [{ dest := 253, content := .command true (.slotRequest 1) }]) ∧
      (s.room = 0 → t.warden = s.warden ∧ t.outbound = s.outbound ∧
        ToldLast (.wardenLocalOnly .noRoom) t)) ∧
    (s.warden.slot = .none →
      (s.warden.key ≠ .pressed ∨ s.warden.talk = none ∨ s.work.warden.enabled = false ∨
        s.work.warden.announce = false ∨ s.warden.cleared = true) →
      t.warden = s.warden ∧ t.outbound = s.outbound) := by
  intro t ht
  have hv := ringToOutputs_hands u
  have htouts := announce_outs (ringToOutputs u)
  have hroom : (ringToOutputs u).room = s.room := by
    unfold State.room
    rw [hv.outbound, hv.reserved, hout, hres]
  have hmay : s.warden.slot = .none → (mayRequest (ringToOutputs u) = true ↔
      s.warden.key = .pressed ∧ s.warden.talk ≠ none ∧ s.work.warden.enabled = true ∧
      s.work.warden.announce = true ∧ s.warden.cleared = false) := by
    intro hs
    rw [mayRequest_iff, hv.warden, hv.work, hv.rif, hring, hw, hwar hs]
    simp
  rw [ht]
  refine ⟨(announce_lists _).trans (hv.lists.trans hlists), (announce_alarmLock _).trans (hv.alarmLock.trans hlock),
    (announce_capture _).trans (hv.capture.trans hcap), fun z hu => ?_,
    fun z => (ringToOutputs_settled ho hw z).of htouts, fun hs h1 h2 h3 h4 h5 => ?_, fun hs hn => ?_⟩
  · rw [htouts]
    have hz := ringToOutputs_effective ho hw hu
    rw [hring, effectiveOf_own (fun e => RingState.noConfusion e)] at hz
    exact Prod.mk.inj hz
  · have hv' : (ringToOutputs u).warden = s.warden := hv.warden.trans (hwar hs)
    obtain ⟨ha, hb⟩ := announce_requests ((hmay hs).2 ⟨h1, h2, h3, h4, h5⟩) (by rw [hv']; exact hs)
    refine ⟨fun hr => ?_, fun hr => ?_⟩
    · obtain ⟨e1, e2⟩ := ha (Nat.lt_of_lt_of_eq hr hroom.symm)
      rw [hv.now, hnow] at e1
      rw [hv.outbound, hout] at e2
      exact ⟨e1, e2⟩
    · obtain ⟨e1, e2, e3⟩ := hb (hroom.trans hr)
      exact ⟨e1.trans hv', e2.trans (hv.outbound.trans hout), e3⟩
  · have hno : mayRequest (ringToOutputs u) = false := by
      rw [← Bool.not_eq_true, hmay hs]
      rintro ⟨h1, h2, h3, h4, h5⟩
      rcases hn with h | h | h | h | h
      · exact h h1
      · exact h2 h
      · rw [h] at h3; cases h3
      · rw [h] at h4; cases h4
      · rw [h] at h5; cases h5
    have ht : announce (ringToOutputs u) = ringToOutputs u := announce_not hno
    exact ⟨(congrArg State.warden ht).trans (hv.warden.trans (hwar hs)),
      (congrArg State.outbound ht).trans (hv.outbound.trans hout)⟩

theorem announced_onlyWarden {s u : State} (h : OnlyWarden s u) :
    OnlyWarden s (announce (ringToOutputs u)) :=
  (h.trans (ringToOutputs_onlyZones u).onlyWarden).trans (announce_onlyWarden _)

theorem dropInsertion_warden (s : State) : dropInsertion s = { s with warden := (dropInsertion s).warden } ∧
    (s.warden.slot = .none → (dropInsertion s).warden = s.warden) := by
  unfold dropInsertion
  split
  next h => exact ⟨rfl, fun e => by rw [h] at e; cases e⟩
  · exact ⟨rfl, fun _ => rfl⟩

theorem dropInsertion_onlyWarden (s : State) : OnlyWarden s (dropInsertion s) := by
  unfold dropInsertion
  split
  · exact setWarden_onlyWarden _ s
  · exact .refl s

/-- Settles O27. -/
theorem ringLocks : Obligations.RingLocks := by
  refine ⟨fun s hp hr hn => ?_, fun s r hp hl hs h1 h2 hrep => ?_⟩
  · have hc : (s.running && (s.rif.ring == .seeking || s.rif.ring == .lost) &&
        decide (Config.lockFrames ≤ s.rif.run)) = true := by
      have h : Config.lockFrames ≤ s.rif.run := hn
      simp [State.running, hp, hr, h]
    let d := if s.rif.ring = .lost then dropInsertion s else s
    obtain ⟨hd, hdw, hdo⟩ : d = { s with warden := d.warden } ∧ (s.warden.slot = .none → d.warden = s.warden) ∧
        OnlyWarden s d := by
      by_cases hlost : s.rif.ring = .lost
      · have : d = dropInsertion s := if_pos hlost
        rw [this]
        exact ⟨(dropInsertion_warden s).1, (dropInsertion_warden s).2, dropInsertion_onlyWarden s⟩
      · have : d = s := if_neg hlost
        rw [this]
        exact ⟨rfl, fun _ => rfl, .refl s⟩
    have he : exec .ringLock s = .next (enterLocked d) := whenever_leaves (o := execRingLock s) rfl hc rfl
    generalize d = e at hd hdw hdo he
    let u : State := { s with
      warden := e.warden
      rif := { s.rif with ring := .locked, since := s.now, passing := true, rx := none, arrived := [] } }
    have hu : enterLocked e = announce (ringToOutputs u) := by rw [hd]; rfl
    refine ⟨_, he, ?_, ?_⟩
    · rw [hu]
      exact locks_of (s := s) (u := u) rfl rfl rfl rfl rfl rfl rfl rfl rfl hdw _ rfl
    · rw [hu]
      exact announced_onlyWarden (.of rfl rfl)
  · have hc : (s.running && s.rif.ring == .isolated && relockDue s) = true := by
      have hdue : relockDue s = true := by
        have h1' : r + Config.relockMs ≤ s.now := h1
        unfold relockDue
        rw [hs]
        simp [h1', h2]
      simp [State.running, hp, hl, hdue]
    obtain ⟨hd, hdw⟩ := dropInsertion_warden s
    have he : exec .isolatedRelock s = .next
        (enterLocked (report (.isolationLeft (s.now - s.rif.since)) (endIsolation (dropInsertion s)))) :=
      whenever_leaves (o := execIsolatedRelock s) rfl hc rfl
    generalize dropInsertion s = e at hd hdw he
    let u : State := { s with
      warden := e.warden, isoTimer := none, isoEscalated := false
      reports := s.reports ++ [⟨.isolationLeft (s.now - s.rif.since), s.now⟩]
      rif := { s.rif with ring := .locked, since := s.now, passing := true, rx := none, arrived := [] } }
    have hu : enterLocked (report (.isolationLeft (s.now - s.rif.since)) (endIsolation e)) =
        announce (ringToOutputs u) := by
      rw [hd, report_room (s := endIsolation { s with warden := e.warden }) hrep]
      rfl
    refine ⟨_, he, ?_, ?_, ?_⟩
    · rw [hu]
      exact locks_of (s := s) (u := u) rfl rfl rfl rfl rfl rfl rfl rfl rfl hdw _ rfl
    · rw [hu]
      exact announced_onlyWarden (.of rfl rfl)
    · rw [hu]
      exact (ringToOutputs_later u).reports.trans (announce_later _).reports

end Sys2Proof.Machine

namespace Sys2Proof.Machine

/-! ## Slots taken from their labels and announced (O30, O31) -/

theorem reclaimLabel_entry (l : Nat) (t : SlotTable) (j : Fin 16) : (reclaimLabel l t).entries[j] =
    if heldUnder l t.entries[j] then reclaimed l t.entries[j] else t.entries[j] :=
  updAll_get t.entries (fun d => if heldUnder l d then reclaimed l d else d) j

theorem mem_joinPending (l : Nat) (ls : List Nat) :
    ∃ ls', joinPending l (.labels ls) = .labels ls' ∧ ∀ x, x ∈ ls' ↔ x = l ∨ x ∈ ls := by
  refine ⟨_, rfl, fun x => ?_⟩
  by_cases h : ls.contains l = true
  · rw [if_pos h]
    exact ⟨.inr, fun hx => hx.elim (fun e => e ▸ List.contains_iff_mem.1 h) id⟩
  · rw [if_neg h]
    simp [or_comm]

/-- A notice names the FREE slots taken from its labels, and every FREE slot under ALL (log entry 28). -/
theorem namedBy_iff (c : Cleared) (d : DynSlot) : namedBy c d = true ↔ d.held = none ∧
    (c = .all ∨ ∃ ls l, c = .labels ls ∧ d.freedFrom = some l ∧ l ∈ ls) := by
  unfold namedBy
  rw [Bool.and_eq_true, Option.isNone_iff_eq_none]
  refine and_congr_right fun _ => ?_
  cases c with
  | all => simp
  | labels ls => cases d.freedFrom <;> simp

theorem mem_namedSlots (t : SlotTable) (j : Fin 16) (l : Option Nat) :
    (j, l) ∈ namedSlots t ↔ namedBy t.pending t.entries[j] = true ∧ l = t.entries[j].freedFrom := by
  unfold namedSlots
  simp only [List.mem_map, List.mem_filter, List.mem_finRange, true_and, Prod.mk.injEq]
  constructor
  · rintro ⟨i, h, rfl, rfl⟩
    exact ⟨h, rfl⟩
  · rintro ⟨h, rfl⟩
    exact ⟨j, h, rfl, rfl⟩

theorem announceNamed_entry (t : SlotTable) (j : Fin 16) : (announceNamed t).entries[j] =
    if namedBy t.pending t.entries[j] then announced t.entries[j] else t.entries[j] :=
  updAll_get t.entries (fun d => if namedBy t.pending d then announced d else d) j

theorem pendingAny_iff (c : Cleared) : pendingAny c = true ↔ c ≠ .labels [] := by
  cases c with
  | all => simp [pendingAny]
  | labels ls => simp [pendingAny]

/-- Settles O30. -/
theorem slotsReclaimedAndAnnounced : Obligations.SlotsReclaimedAndAnnounced := by
  refine ⟨fun s l i h hp hm hi ha => ?_, fun s hp hm hl hr hd hpend => ?_, fun s m rest hp hd hr => ?_⟩
  · have hst : stale l s = true := by
      refine (any_slot_iff _ _).2 ⟨i, ?_⟩
      have hu : heldUnder l s.slots.entries[i] = true := (heldUnder_iff l _).2 ⟨h, hi⟩
      rw [hu, Bool.true_and]
      exact decide_eq_true ha
    have hc : (s.running && s.rif.master && stale l s) = true := by simp [State.running, hp, hm, hst]
    refine ⟨_, whenever_leaves (o := execStaleReclaim l s) rfl hc rfl, rfl, fun j => ⟨fun hj => ?_, fun hj => ?_⟩,
      fun ha => ?_, fun ls hls => ?_⟩
    · have e := (reclaimLabel_entry l s.slots j).trans (if_pos ((heldUnder_iff l _).2 hj))
      rw [setSlots_slots, e]
      exact ⟨rfl, rfl, rfl⟩
    · exact (reclaimLabel_entry l s.slots j).trans (if_neg fun e => hj ((heldUnder_iff l _).1 e))
    · exact congrArg (joinPending l) ha
    · obtain ⟨ls', e, hmem⟩ := mem_joinPending l ls
      exact ⟨ls', (congrArg (joinPending l) hls).trans e, hmem⟩
  · intro names
    have hc : (s.running && noticeReady s && decide (0 < s.room) && s.deferred.isEmpty) = true := by
      simp [State.running, hp, noticeReady, hm, locked_of hl, (pendingAny_iff _).2 hpend, hr, hd]
    refine ⟨_, namedSlots s.slots, whenever_leaves (o := execSlotsClearedNotice s) rfl hc rfl, rfl, rfl,
      fun j l => (mem_namedSlots s.slots j l).trans (and_congr_left' (namedBy_iff _ _)), fun j => ⟨fun h => ?_, fun h => ?_⟩⟩
    · exact (announceNamed_entry s.slots j).trans (if_pos ((namedBy_iff _ _).2 h))
    · exact (announceNamed_entry s.slots j).trans (if_neg fun e => h ((namedBy_iff _ _).1 e))
  · have hc : (s.running && decide (0 < s.room)) = true := by simp [State.running, hp, hr]
    refine whenever_leaves (o := execDeferredReplyPlace s) rfl hc ?_
    rw [hd]
    rfl

/-! ### Every HELD slot taken -/

/-- Labels taken one after the other. -/
def reclaimLabels (ls : List Nat) (t : SlotTable) : SlotTable := ls.foldl (fun t l => reclaimLabel l t) t

theorem reclaimLabels_cons (k : Nat) (ls : List Nat) (t : SlotTable) :
    reclaimLabels (k :: ls) t = reclaimLabels ls (reclaimLabel k t) := rfl

theorem heldUnder_reclaimed (l k : Nat) (d : DynSlot) : heldUnder k (reclaimed l d) = false := rfl

/-- A slot HELD under one of the labels becomes FREE and not announced; every other stays (R193). -/
theorem reclaimLabels_entry (ls : List Nat) (t : SlotTable) (j : Fin 16) :
    ((∀ l ∈ ls, heldUnder l t.entries[j] = false) → (reclaimLabels ls t).entries[j] = t.entries[j]) ∧
    (∀ l ∈ ls, heldUnder l t.entries[j] = true → (reclaimLabels ls t).entries[j] = reclaimed l t.entries[j]) := by
  induction ls generalizing t with
  | nil => exact ⟨fun _ => rfl, fun l hl => absurd hl (List.not_mem_nil)⟩
  | cons k ls ih =>
    obtain ⟨ih1, ih2⟩ := ih (reclaimLabel k t)
    rw [reclaimLabels_cons]
    by_cases hku : heldUnder k t.entries[j] = true
    · have hk : (reclaimLabel k t).entries[j] = reclaimed k t.entries[j] :=
        (reclaimLabel_entry k t j).trans (if_pos hku)
      rw [hk] at ih1
      refine ⟨fun h => absurd (h k List.mem_cons_self) (by rw [hku]; exact Bool.noConfusion), fun l _ hu => ?_⟩
      obtain ⟨a, ha⟩ := (heldUnder_iff k _).1 hku
      obtain ⟨b, hb⟩ := (heldUnder_iff l _).1 hu
      obtain rfl : k = l := congrArg Prod.fst (Option.some.inj (ha.symm.trans hb))
      exact ih1 fun x _ => heldUnder_reclaimed k x _
    · have hk : (reclaimLabel k t).entries[j] = t.entries[j] :=
        (reclaimLabel_entry k t j).trans (if_neg hku)
      rw [hk] at ih1 ih2
      refine ⟨fun h => ih1 fun l hl => h l (List.mem_cons_of_mem _ hl), fun l hl hu => ih2 l ?_ hu⟩
      exact (List.mem_cons.1 hl).resolve_left fun e => hku (e ▸ hu)

theorem reclaimLabels_pending (ls : List Nat) (t : SlotTable) :
    (t.pending = .all → (reclaimLabels ls t).pending = .all) ∧
    ∀ ms, t.pending = .labels ms → ∃ ms', (reclaimLabels ls t).pending = .labels ms' ∧
      ∀ l, l ∈ ms' ↔ l ∈ ms ∨ l ∈ ls := by
  induction ls generalizing t with
  | nil => exact ⟨id, fun ms h => ⟨ms, h, fun l => by simp⟩⟩
  | cons k ls ih =>
    obtain ⟨ih1, ih2⟩ := ih (reclaimLabel k t)
    rw [reclaimLabels_cons]
    refine ⟨fun h => ih1 (congrArg (joinPending k) h), fun ms h => ?_⟩
    obtain ⟨ms1, e1, hm1⟩ := mem_joinPending k ms
    obtain ⟨ms2, e2, hm2⟩ := ih2 ms1 ((congrArg (joinPending k) h).trans e1)
    refine ⟨ms2, e2, fun l => ?_⟩
    rw [hm2, hm1, List.mem_cons]
    exact or_assoc.trans or_left_comm

theorem mem_heldLabels (t : SlotTable) (l : Nat) :
    l ∈ heldLabels t ↔ ∃ (i : Fin 16) (h : Nat), t.entries[i].held = some (l, h) := by
  unfold heldLabels
  rw [List.mem_filterMap]
  constructor
  · rintro ⟨d, hd, hl⟩
    obtain ⟨i, hi, rfl⟩ := List.mem_iff_getElem.1 hd
    obtain ⟨⟨a, b⟩, hab, rfl⟩ := Option.map_eq_some_iff.1 hl
    exact ⟨⟨i, by simpa using hi⟩, b, by simpa using hab⟩
  · rintro ⟨i, h, hi⟩
    exact ⟨t.entries[i], by simp, by rw [hi]; rfl⟩

theorem clearAllSlots_entry (t : SlotTable) (j : Fin 16) :
    (t.entries[j].held = none → (clearAllSlots t).entries[j] = t.entries[j]) ∧
    ∀ h, t.entries[j].held = some h → (clearAllSlots t).entries[j] = reclaimed h.1 t.entries[j] := by
  obtain ⟨h1, h2⟩ := reclaimLabels_entry (heldLabels t) t j
  refine ⟨fun hn => h1 fun l _ => ?_, fun h hh => h2 h.1 ?_ ((heldUnder_iff _ _).2 ⟨h.2, hh⟩)⟩
  · unfold heldUnder
    rw [hn]
  · exact (mem_heldLabels t h.1).2 ⟨j, h.2, hh⟩

/-- What the labels of an entry say of it once every HELD slot is taken: that it was HELD under one, or FREE and
taken from one (log entry 28). -/
theorem clearAllSlots_freed (t : SlotTable) (j : Fin 16) : (clearAllSlots t).entries[j].held = none ∧
    (clearAllSlots t).entries[j].freedFrom = (match t.entries[j].held with
      | some h => some h.1
      | none => t.entries[j].freedFrom) := by
  obtain ⟨h1, h2⟩ := clearAllSlots_entry t j
  cases hh : t.entries[j].held with
  | none =>
    rw [h1 hh]
    exact ⟨hh, rfl⟩
  | some h =>
    rw [h2 h hh]
    exact ⟨rfl, rfl⟩

/-- A command that may begin at a LOCKED master finds nothing pending to be announced (R187). -/
theorem mayBegin_noPending {s : State} {n : Nat} (h : mayBegin s n = true) (hn : n ≠ 0)
    (hm : s.rif.master = true) (hl : s.rif.ring = .locked) : s.slots.pending = .labels [] := by
  have hnot : noticeReady s = false := by
    simp only [mayBegin, Bool.and_eq_true, Bool.or_eq_true, decide_eq_true_eq, Bool.not_eq_true'] at h
    exact h.2.resolve_left hn
  by_contra hp
  have : noticeReady s = true := by simp [noticeReady, hm, locked_of hl, (pendingAny_iff _).2 hp]
  rw [hnot] at this
  cases this

theorem exec_slotClearAll_master {s : State} {q : Request} (hm : s.rif.master = true)
    (h : Admitted s q .slotClearAll 2) : exec (.slotClearAll q) s =
      .next { slotClearAll (inHand 1 s) with
        reserved := 0
        outbound := (slotClearAll (inHand 1 s)).outbound ++ [replyMsg q .slotClearAll .done .none] } := by
  have hn : slotClearExtra s + oneReply s = 2 := by rw [slotClearExtra, hm]; rfl
  have he := commandWith_leaves (s := s) (extra := slotClearExtra) (own := oneReply) (hn ▸ h)
    (act := fun s => if s.rif.master then replyDone ⟨q, .slotClearAll⟩ (slotClearAll s)
      else reply ⟨q, .slotClearAll⟩ .notMaster .none s) (if_pos (c := (inHand 1 s).rif.master = true) hm)
  rw [replyMsgs_one _ _ _ rfl] at he
  exact he

/-- SLOT CLEAR ALL outside LOCKED, or where nothing is to be announced: no notice is placed (R193). -/
theorem slotClearAll_quiet {s : State} (h : s.rif.ring ≠ .locked ∨ (clearAllSlots s.slots).pending = .labels []) :
    slotClearAll s = { s with slots := clearAllSlots s.slots } := by
  refine if_neg ?_
  rw [Bool.and_eq_true, pendingAny_iff]
  rintro ⟨h1, h2⟩
  rcases h with h | h
  · exact absurd (not_locked_of h) (by rw [show s.locked = true from h1]; exact Bool.noConfusion)
  · exact h2 h

theorem slotClearAll_notice {s : State} (hl : s.rif.ring = .locked)
    (hp : (clearAllSlots s.slots).pending ≠ .labels []) :
    slotClearAll s = { s with
      slots := announceNamed (clearAllSlots s.slots)
      outbound := s.outbound ++ [⟨255, .notice (.slotsCleared (clearAllSlots s.slots).pending),
        namedSlots (clearAllSlots s.slots)⟩] } := by
  have hc : ((setSlots clearAllSlots s).locked && pendingAny (setSlots clearAllSlots s).slots.pending) = true := by
    rw [Bool.and_eq_true]
    exact ⟨locked_of (s := setSlots clearAllSlots s) hl, (pendingAny_iff _).2 hp⟩
  exact if_pos hc

theorem slotClearAll_frame (s : State) : slotClearAll s = { s with
    slots := (slotClearAll s).slots, outbound := (slotClearAll s).outbound } := by
  unfold slotClearAll
  dsimp only
  split <;> rfl

/-- Settles O31. -/
theorem slotClearAllActs : Obligations.SlotClearAllActs := by
  refine ⟨fun s q hm h => ?_, fun s q hm h => ?_⟩
  · have hn : slotClearExtra s + oneReply s = 1 := by rw [slotClearExtra, hm]; rfl
    exact commandWith_leaves (extra := slotClearExtra) (own := oneReply) (hn ▸ h)
      (act := fun s => if s.rif.master then replyDone ⟨q, .slotClearAll⟩ (slotClearAll s)
        else reply ⟨q, .slotClearAll⟩ .notMaster .none s)
      (if_neg (c := (inHand 1 s).rif.master = true) (fun e => Bool.false_ne_true (hm.symm.trans e)))
  · intro former
    have hpend := fun hl => mayBegin_noPending h.room (by decide) hm hl
    obtain ⟨hall, hlabels⟩ := reclaimLabels_pending (heldLabels s.slots) s.slots
    have hcleared : ∀ i : Fin 16, (clearAllSlots s.slots).entries[i].held = none ∧
        (clearAllSlots s.slots).entries[i].freedFrom = former i := clearAllSlots_freed s.slots
    refine ⟨_, exec_slotClearAll_master hm h, fun i => ?_, fun hl => ?_, fun hl hno => ?_, fun hl ⟨i0, h0, hi0⟩ => ?_, ?_⟩
    · by_cases hc : s.rif.ring ≠ .locked ∨ (clearAllSlots s.slots).pending = .labels []
      · rw [slotClearAll_quiet (s := inHand 1 s) hc]
        exact (hcleared i).1
      · rw [not_or, not_not] at hc
        rw [slotClearAll_notice (s := inHand 1 s) hc.1 hc.2]
        have e := announceNamed_entry (clearAllSlots s.slots) i
        refine (congrArg DynSlot.held e).trans ?_
        split
        · exact (hcleared i).1
        · exact (hcleared i).1
    · rw [slotClearAll_quiet (s := inHand 1 s) (.inl hl)]
      refine ⟨rfl, fun i => clearAllSlots_entry s.slots i, hall, fun ls hls => ?_⟩
      obtain ⟨ls', e, hmem⟩ := hlabels ls hls
      exact ⟨ls', e, fun l => (hmem l).trans (or_congr_right (mem_heldLabels s.slots l))⟩
    · have hnone : heldLabels s.slots = [] := by
        refine List.eq_nil_iff_forall_not_mem.2 fun l hl => ?_
        obtain ⟨i, k, hi⟩ := (mem_heldLabels s.slots l).1 hl
        rw [hno i] at hi
        cases hi
      have hsame : clearAllSlots s.slots = s.slots := by
        unfold clearAllSlots
        rw [hnone]
        rfl
      rw [slotClearAll_quiet (s := inHand 1 s) (.inr (by
        rw [show (inHand 1 s).slots = s.slots from rfl, hsame]
        exact hpend hl))]
      exact ⟨hsame, rfl⟩
    · obtain ⟨ls, hls, hmem⟩ := hlabels [] (hpend hl)
      have hmem' : ∀ l, l ∈ ls ↔ ∃ (i : Fin 16) (h : Nat), s.slots.entries[i].held = some (l, h) := by
        intro l
        rw [hmem, mem_heldLabels]
        simp
      have hne : (clearAllSlots s.slots).pending ≠ .labels [] := by
        rw [show (clearAllSlots s.slots).pending = .labels ls from hls]
        intro e
        injection e with e
        have : h0.1 ∈ ls := (hmem' h0.1).2 ⟨i0, h0.2, hi0⟩
        rw [e] at this
        cases this
      have hnamed : ∀ j : Fin 16, namedBy (clearAllSlots s.slots).pending (clearAllSlots s.slots).entries[j] = true ↔
          ∃ l ∈ ls, former j = some l := by
        intro j
        rw [namedBy_iff, show (clearAllSlots s.slots).pending = .labels ls from hls, (hcleared j).1, (hcleared j).2]
        constructor
        · rintro ⟨-, e | ⟨ls', l, e, hf, hl⟩⟩
          · cases e
          · injection e with e
            exact ⟨l, e ▸ hl, hf⟩
        · rintro ⟨l, hl, hf⟩
          exact ⟨rfl, .inr ⟨ls, l, rfl, hf, hl⟩⟩
      rw [slotClearAll_notice (s := inHand 1 s) hl hne]
      refine ⟨rfl, ls, namedSlots (clearAllSlots s.slots), ?_, hmem', fun j l => ?_, fun j => ⟨fun hj => ?_, fun hj => ?_⟩⟩
      · rw [← show (clearAllSlots s.slots).pending = .labels ls from hls]
        exact List.append_assoc _ _ _
      · rw [mem_namedSlots, hnamed, (hcleared j).2]
      · have e := (announceNamed_entry (clearAllSlots s.slots) j).trans (if_pos ((hnamed j).2 hj))
        refine e.trans ?_
        obtain ⟨c1, c2⟩ := clearAllSlots_entry s.slots j
        cases hh : s.slots.entries[j].held with
        | none => rw [c1 hh, announced, hh]
        | some x => rw [c2 x hh]; rfl
      · have e := (announceNamed_entry (clearAllSlots s.slots) j).trans (if_neg fun e => hj ((hnamed j).1 e))
        refine e.trans ((clearAllSlots_entry s.slots j).1 ?_)
        cases hh : s.slots.entries[j].held with
        | none => rfl
        | some x =>
          exact absurd ⟨x.1, (hmem' x.1).2 ⟨j, x.2, hh⟩, by simp only [former, hh]⟩ hj
    · rw [slotClearAll_frame]
      rfl

end Sys2Proof.Machine

namespace Sys2Proof.Machine

/-! ## The start-up load (O15) -/

/-- Tables taken from their sources, one after the other (R203). -/
def takeTables (src : Fin 12 → Tables) (l : List (Fin 12)) (t : Tables) : Tables :=
  l.foldl (fun t k => copyTable k.val (src k) t) t

theorem loadTables_eq (s : State) : loadTables s =
    takeTables (fun k => if s.nvOk[k] then s.nv else Config.factory) (List.finRange 12) s.work := rfl

theorem copyTable_unseen {j k : Nat} (h : j ≠ k) (a t b : Tables) :
    copyTable k (copyTable j a t) b = copyTable k t b := by
  unfold copyTable
  split <;> first | rfl | (split <;> first | rfl | exact absurd rfl h)

theorem takeTables_other (src : Fin 12 → Tables) {k : Fin 12} (l : List (Fin 12)) (hk : k ∉ l) (t b : Tables) :
    copyTable k.val (takeTables src l t) b = copyTable k.val t b := by
  induction l generalizing t with
  | nil => rfl
  | cons j l ih =>
    rw [List.mem_cons, not_or] at hk
    exact (ih hk.2 _).trans (copyTable_unseen (fun e => hk.1 (Fin.ext e.symm)) _ _ _)

/-- Each table taken is as in its source. -/
theorem tableEq_takeTables (src : Fin 12 → Tables) (l : List (Fin 12)) (hl : l.Nodup) {k : Fin 12} (hk : k ∈ l)
    (t : Tables) : tableEq k.val (takeTables src l t) (src k) = true := by
  rw [tableEq_iff]
  induction l generalizing t with
  | nil => exact absurd hk List.not_mem_nil
  | cons j l ih =>
    rw [List.nodup_cons] at hl
    by_cases h : k ∈ l
    · exact ih hl.2 h _
    · obtain rfl : k = j := (List.mem_cons.1 hk).resolve_right h
      exact (takeTables_other src l h _ _).trans
        ((copyTable_twice _ _ _ _).trans (copyTable_self _ _))

/-- Local inputs observed where they are in use (R14). -/
def observeInputs (l : List (Fin 8)) (s : State) : State :=
  l.foldl (fun t n => if t.work.inputs[n].inUse then observeInput n t else t) s

theorem startInputs_eq (s : State) : startInputs s = observeInputs (List.finRange 8) s := rfl

theorem observeInputs_frame (l : List (Fin 8)) (s : State) :
    observeInputs l s = { s with inputs := (observeInputs l s).inputs } := by
  induction l generalizing s with
  | nil => rfl
  | cons n l ih =>
    have hc : observeInputs (n :: l) s =
        observeInputs l (if s.work.inputs[n].inUse then observeInput n s else s) := rfl
    rw [hc]
    split
    · exact (ih (observeInput n s)).trans rfl
    · exact ih s

theorem observeInputs_get (l : List (Fin 8)) (hl : l.Nodup) (m : Fin 8) (s : State) :
    (observeInputs l s).inputs[m] = if m ∈ l ∧ s.work.inputs[m].inUse = true
      then debounce s.now (inputActive s m) s.inputs[m] else s.inputs[m] := by
  induction l generalizing s with
  | nil => rw [if_neg fun h => List.not_mem_nil h.1]; rfl
  | cons n l ih =>
    rw [List.nodup_cons] at hl
    have hc : observeInputs (n :: l) s =
        observeInputs l (if s.work.inputs[n].inUse then observeInput n s else s) := rfl
    rw [hc]
    split
    next hu =>
      rw [ih hl.2 (observeInput n s)]
      by_cases hm : m = n
      · subst hm
        rw [if_neg fun h => hl.1 h.1, if_pos ⟨List.mem_cons_self, hu⟩]
        exact upd_self s.inputs m _
      · have hi : (observeInput n s).inputs[m] = s.inputs[m] := upd_other hm s.inputs _
        have hmem : m ∈ n :: l ↔ m ∈ l := by simp [hm]
        simp only [hi, hmem]
        rfl
    next hu =>
      rw [ih hl.2]
      by_cases hm : m = n
      · subst hm
        rw [if_neg fun h => hu h.2, if_neg fun h => hu h.2]
      · have hmem : m ∈ n :: l ↔ m ∈ l := by simp [hm]
        simp only [hmem]

theorem startInputs_frame (s : State) : startInputs s = { s with inputs := (startInputs s).inputs } :=
  observeInputs_frame _ s

theorem windowRestart_rif (s : State) : (windowRestart s).rif = s.rif := by
  unfold windowRestart
  rfl

theorem settleSource_muted {ring : RingState} (h : ring ≠ .isolated) : settleSource ring mutedOut = mutedOut := by
  unfold settleSource
  rw [effectiveOf_own h]
  rfl

theorem identityOf_invalid (e : NodeIdentity) (b : BitVec 8) :
    identityOf false e b = (strapAddress b, decide (b.toNat = 239)) := rfl

theorem identityOf_own {e : NodeIdentity} (h : e.addr ≠ 0) (b : BitVec 8) :
    identityOf true e b = (e.addr, e.master) := by
  unfold identityOf
  rw [if_pos rfl, if_neg h]

theorem identityOf_straps {e : NodeIdentity} (h : e.addr = 0) (b : BitVec 8) :
    identityOf true e b = (strapAddress b, e.master && decide (strapAddress b ≠ 0)) := by
  unfold identityOf
  rw [if_pos rfl, if_pos h]

/-- The state as the load leaves it before what the inputs, the key and the window clock begin (R203). -/
def loadedState (s : State) : State := setRing .seeking (load s)

/-- What the load makes of the state of a router whose outputs are muted. -/
theorem exec_startUpLoadComplete {s : State} (hp : s.phase = .loading)
    (ho : ∀ z : Zone, s.outs[z] = mutedOut) :
    exec .startUpLoadComplete s = .next
      (report (.coldStart (failingTables s) (loadedState s).rif.addr)
        (windowRestart (observeKey (startInputs (loadedState s))))) := by
  have hsame : enterRing .seeking (load s) = loadedState s := by
    refine ringToOutputs_same (s := loadedState s) fun z _ => ?_
    have hz : (loadedState s).outs[z] = mutedOut := ho z
    rw [hz]
    exact settleSource_muted fun e => RingState.noConfusion e
  have hrif : (windowRestart (observeKey (startInputs (loadedState s)))).rif = (loadedState s).rif := by
    rw [windowRestart_rif, observeKey, setWarden_rif, startInputs_frame]
  have hc : (s.phase == .loading) = true := by simp [hp]
  have he := whenever_leaves (o := execStartUpLoadComplete s) rfl hc rfl
  dsimp only at he
  rw [hsame, hrif] at he
  exact he

/-- The address and role that the load fixes (R183). -/
def loadedIdentity (s : State) : Nat × Bool :=
  identityOf s.nvOk[(0 : Fin 12)] (loadTables s).node s.pins.straps

/-- The state that the start-up load leaves, field by field (R203). -/
def loadCompleted (s : State) : State :=
  { s with
    phase := .running, work := loadTables s, invalid := updAll s.nvOk fun ok => !ok
    defaultMode := ceEmpty (loadTables s)
    rif := { s.rif with ring := .seeking, since := s.now
                        addr := (loadedIdentity s).1, master := (loadedIdentity s).2 }
    inputs := (startInputs (loadedState s)).inputs
    warden := { coldWarden with due := if s.pins.keyClosed = true then some (s.now + 50) else none }
    windowEnd := some (s.now + (loadTables s).window)
    cads := Vector.ofFn fun i => cadStop (loadTables s).cad[i].on s.cads[i]
    lines := updAll (startLines (loadTables s)) fun l => { l with a := monRestart l.a, b := l.b.map monRestart }
    amps := updAll s.amps healthRestart, standbyAmps := updAll s.standbyAmps healthRestart
    reports := s.reports ++ [⟨.coldStart (failingTables s) (loadedIdentity s).1, s.now⟩] }

theorem observeKey_cold {s : State} (h : s.warden = coldWarden) : observeKey s = { s with
    warden := { coldWarden with due := if s.pins.keyClosed = true then some (s.now + 50) else none } } := by
  unfold observeKey setWarden
  rw [h]
  cases s.pins.keyClosed <;> rfl

theorem exec_startUpLoadComplete_eq {s : State} (hp : s.phase = .loading)
    (ho : ∀ z : Zone, s.outs[z] = mutedOut) (hw : s.warden = coldWarden) (hr : s.reports.length < 16) :
    exec .startUpLoadComplete s = .next (loadCompleted s) := by
  have hi := startInputs_frame (loadedState s)
  rw [exec_startUpLoadComplete hp ho]
  generalize hj : (startInputs (loadedState s)).inputs = j at hi
  have hk := observeKey_cold (s := { loadedState s with inputs := j }) hw
  rw [hi, hk, report_room]
  · unfold loadCompleted
    rw [hj]
    rfl
  · exact hr

theorem debounce_idle {now : Nat} {active : Bool} :
    debounce now active { active := false, due := none } =
      { active := false, due := if active = true then some (now + 200) else none } := by
  cases active <;> rfl

/-- Each table of the load is as in its source (R203). -/
theorem loadTables_source (s : State) (k : Fin 12) :
    tableEq k.val (loadTables s) (if s.nvOk[k] then s.nv else Config.factory) = true := by
  rw [loadTables_eq]
  exact tableEq_takeTables (fun k => if s.nvOk[k] then s.nv else Config.factory) _ (List.nodup_finRange 12)
    (List.mem_finRange k) s.work

/-- The address and the role that the load fixes are those of R183. -/
theorem loadedIdentity_cases (s : State) :
    (s.nvOk[(0 : Fin 12)] = true → (loadTables s).node.addr ≠ 0 →
      loadedIdentity s = ((loadTables s).node.addr, (loadTables s).node.master)) ∧
    (s.nvOk[(0 : Fin 12)] = true → (loadTables s).node.addr = 0 →
      1 ≤ s.pins.straps.toNat → s.pins.straps.toNat ≤ 239 →
      loadedIdentity s = (s.pins.straps.toNat, (loadTables s).node.master)) ∧
    (s.nvOk[(0 : Fin 12)] = true → (loadTables s).node.addr = 0 →
      (s.pins.straps.toNat = 0 ∨ 239 < s.pins.straps.toNat) → loadedIdentity s = (0, false)) ∧
    (s.nvOk[(0 : Fin 12)] = false →
      loadedIdentity s = (if 1 ≤ s.pins.straps.toNat ∧ s.pins.straps.toNat ≤ 239
        then s.pins.straps.toNat else 0, decide (s.pins.straps.toNat = 239))) := by
  unfold loadedIdentity
  refine ⟨fun hv ha => ?_, fun hv ha h1 h2 => ?_, fun hv ha h => ?_, fun hv => ?_⟩
  · rw [hv, identityOf_own ha]
  · have hs : strapAddress s.pins.straps = s.pins.straps.toNat := if_pos ⟨h1, h2⟩
    rw [hv, identityOf_straps ha, hs, decide_eq_true (Nat.ne_of_gt h1), Bool.and_true]
  · have hs : strapAddress s.pins.straps = 0 := if_neg (by omega)
    rw [hv, identityOf_straps ha, hs, decide_eq_false (not_not.2 rfl), Bool.and_false]
  · rw [hv, identityOf_invalid]
    rfl

/-- Every input in use that is active has its change pending from the load on (R14). -/
theorem loadCompleted_input {s : State} (hi : ∀ n : Fin 8, s.inputs[n] = { active := false, due := none })
    (n : Fin 8) : (loadCompleted s).inputs[n] =
      { active := false
        due := if (loadTables s).inputs[n].inUse = true ∧
            s.pins.inputHigh[n] = (loadTables s).inputs[n].activeHigh then some (s.now + 200) else none } := by
  have h := observeInputs_get (List.finRange 8) (List.nodup_finRange 8) n (loadedState s)
  have hin : (loadedState s).inputs[n] = { active := false, due := none } := hi n
  have hact : inputActive (loadedState s) n = true ↔ s.pins.inputHigh[n] = (loadTables s).inputs[n].activeHigh :=
    beq_iff_eq
  have hu : (loadedState s).work.inputs[n] = (loadTables s).inputs[n] := rfl
  have hn : (loadedState s).now = s.now := rfl
  unfold loadCompleted
  dsimp only
  rw [startInputs_eq, h, hin, debounce_idle, hu, hn]
  by_cases h1 : (loadTables s).inputs[n].inUse = true
  · rw [if_pos ⟨List.mem_finRange n, h1⟩]
    simp only [h1, true_and, hact]
  · rw [if_neg fun h => h1 h.2, if_neg fun h => h1 h.1]

/-- Every line of the zones in use is UNTESTED from the load on (R174). -/
theorem loadCompleted_line (s : State) (z : Zone) : (loadCompleted s).lines[z] =
    { a := freshMon true
      b := if (loadTables s).spk[z].inUse = true ∧ (loadTables s).spk[z].lineCfg = .aAndB
        then some (freshMon true) else none
      lost := false } := by
  have hs : (startLines (loadTables s))[z] =
      { a := freshMon true
        b := if (loadTables s).spk[z].inUse = true then lineBFor (loadTables s).spk[z] true else none
        lost := false } := updAll_get _ _ _
  unfold loadCompleted
  dsimp only
  rw [updAll_get, hs]
  by_cases h1 : (loadTables s).spk[z].inUse = true
  · simp only [h1, if_true, true_and]
    unfold lineBFor
    cases (loadTables s).spk[z].lineCfg <;> rfl
  · rw [if_neg h1, if_neg fun h => h1 h.1]
    rfl

theorem loadCompleted_cad (s : State) (n : Fin 4) :
    (loadCompleted s).cads[n] = cadStop (loadTables s).cad[n].on s.cads[n] := by
  unfold loadCompleted
  exact Vector.getElem_ofFn n.isLt

theorem loadCompleted_frame (s : State) : loadCompleted s = { s with
    phase := .running, work := (loadCompleted s).work, invalid := (loadCompleted s).invalid
    defaultMode := (loadCompleted s).defaultMode, rif := (loadCompleted s).rif
    inputs := (loadCompleted s).inputs, warden := (loadCompleted s).warden
    windowEnd := (loadCompleted s).windowEnd, cads := (loadCompleted s).cads
    lines := (loadCompleted s).lines, amps := (loadCompleted s).amps
    standbyAmps := (loadCompleted s).standbyAmps, reports := (loadCompleted s).reports } := by
  unfold loadCompleted
  dsimp only

/-- Settles O15. -/
theorem loadCompletes : Obligations.LoadCompletes := by
  intro s hp hz hw hi hr
  obtain ⟨own, straps, outside, invalid⟩ := loadedIdentity_cases s
  refine ⟨loadCompleted s, exec_startUpLoadComplete_eq hp (fun z => (hz z).2) hw hr, ?_⟩
  refine ⟨rfl, fun k => ⟨loadTables_source s k, updAll_get s.nvOk (fun ok => !ok) k⟩, rfl,
    fun hv ha => Prod.mk.inj (own hv ha), fun hv ha h1 h2 => Prod.mk.inj (straps hv ha h1 h2), ?_⟩
  refine ⟨fun hv ha h => Prod.mk.inj (outside hv ha h), fun hv => Prod.mk.inj (invalid hv), rfl,
    loadCompleted_input hi, rfl, rfl, ?_⟩
  refine ⟨loadCompleted_line s, updAll_map s.amps healthRestart,
    updAll_map s.standbyAmps healthRestart, ?_⟩
  exact ⟨loadCompleted_cad s, rfl, loadCompleted_frame s⟩

end Sys2Proof.Machine

namespace Sys2Proof.Machine

/-! ## One millisecond (O16) -/

/-- What a millisecond makes of the stage timers of the records (R59). -/
def tickedActs (s : State) : List ActRecord := if s.hold then s.acts else s.acts.map tickRecord

/-- What a millisecond makes of the Warden Unit (R150). -/
def tickedWarden (s : State) : Warden :=
  if talkCounts s then { s.warden with talk := s.warden.talk.map fun t => t + 1 } else s.warden

/-- What a millisecond makes of the slot entries (R192). -/
def tickedSlots (s : State) : SlotTable :=
  if s.rif.master then { s.slots with entries := updAll s.slots.entries tickSlot } else s.slots

/-- A millisecond, field by field (R59, R176). -/
theorem tick_eq (s : State) : tick s = { s with
    now := s.now + 1, sampleTimes := 0, acts := tickedActs s, isoTimer := s.isoTimer.map fun t => t - 1
    warden := tickedWarden s, slots := tickedSlots s, chans := updAll s.chans (tickChan s.locked)
    cads := Vector.ofFn fun i => tickCad s.work.cad[i].inUse s.cads[i]
    outs := updAll s.outs tickOut } := by
  have h1 : tickStages { s with now := s.now + 1, sampleTimes := 0 } =
      { s with now := s.now + 1, sampleTimes := 0, acts := tickedActs s } := by
    unfold tickStages tickedActs
    dsimp only
    split <;> rfl
  have h2 : ∀ u : State, tickTalk u = { u with warden := tickedWarden u } := by
    intro u
    unfold tickTalk tickedWarden
    split <;> rfl
  have h3 : ∀ u : State, tickSlots u = { u with slots := tickedSlots u } := by
    intro u
    unfold tickSlots tickedSlots
    split <;> rfl
  unfold tick
  rw [h1, h2, h3]
  rfl

theorem rampStep_eq (target current : Nat) : rampStep target current =
    if target + 2 ≤ current then current - 2
    else if current + 2 ≤ target then current + 2 else target := by
  unfold rampStep
  split <;> split <;> first | omega | (split <;> omega)

theorem tickChan_cases (locked : Bool) (c : ChanRun) :
    (c.state ≠ .running → tickChan locked c = c) ∧
    (c.state = .running → c.kind ≠ .phrase → 0 < c.remaining →
      tickChan locked c = { c with remaining := c.remaining - 1 }) ∧
    (c.state = .running → (c.kind = .phrase ∨ c.remaining = 0) → locked = true → tickChan locked c = c) ∧
    (c.state = .running → c.kind = .phrase → locked = false →
      (c.due = false → 16 < c.remaining →
        tickChan locked c = { c with addr := c.addr + 16, remaining := c.remaining - 16 }) ∧
      (c.due = false → 0 < c.remaining → c.remaining ≤ 16 →
        tickChan locked c = { c with addr := c.addr + (c.remaining - 1), remaining := 1, due := true
                                     owed := c.owed + (16 - c.remaining) }) ∧
      (c.due = true → tickChan locked c = { c with owed := c.owed + 16 })) ∧
    (c.state = .running → c.kind ≠ .phrase → locked = false → c.remaining = 0 →
      tickChan locked c = { c with late := c.late - 16, owed := c.owed + (16 - c.late) }) := by
  have counts : ¬(c.state = .running ∧ c.kind ≠ .phrase ∧ 0 < c.remaining) →
      tickChan locked c = if locked then c else chanSamples 16 c := fun h => if_neg h
  refine ⟨fun h => ?_, fun h1 h2 h3 => if_pos ⟨h1, h2, h3⟩, fun h1 h2 h3 => ?_, fun h1 h2 h3 => ?_,
    fun h1 h2 h3 h4 => ?_⟩
  · have hs : chanSamples 16 c = c := if_neg h
    rw [counts fun e => h e.1, hs, ite_self]
  · rw [counts fun e => h2.elim e.2.1 fun e' => Nat.ne_of_gt e.2.2 e', h3]
    rfl
  · have hs : tickChan locked c = phraseGive 16 c := by
      rw [counts fun e => e.2.1 h2, h3]
      unfold chanSamples
      rw [if_neg Bool.false_ne_true, if_pos h1, h2]
    rw [hs, phraseGive]
    refine ⟨fun hd hr => ?_, fun hd _ hr => ?_, fun hd => if_pos hd⟩
    · rw [hd]
      exact if_pos hr
    · rw [hd]
      exact if_neg (Nat.not_lt.2 hr)
  · rw [counts fun e => Nat.ne_of_gt e.2.2 h4, h3]
    unfold chanSamples
    rw [if_neg Bool.false_ne_true, if_pos h1]
    cases hk : c.kind with
    | phrase => exact absurd hk h2
    | gap => exact if_pos h4
    | missing => exact if_pos h4

theorem tickRecord_eq : tickRecord = fun r => { r with refs := r.refs.map fun f =>
    match f.timer with
    | none => f
    | some k => if k ≤ 1 then { f with due := true } else { f with timer := some (k - 1) } } := by
  funext r
  unfold tickRecord
  refine congrArg (fun l => { r with refs := l }) (List.map_congr_left fun f _ => ?_)
  unfold tickRef
  rfl

/-- The fields of a millisecond are as O16 says. -/
theorem tick_counts (s : State) : ∀ t : State, t = tick s →
    t.acts = (if s.hold = true then s.acts else
        s.acts.map fun r => { r with refs := r.refs.map fun f =>
          match f.timer with
          | none => f
          | some k => if k ≤ 1 then { f with due := true } else { f with timer := some (k - 1) } }) ∧
    t.warden = (if (s.warden.key = .pressed ∧ s.work.warden.enabled = true) ∨ s.warden.fresh.isSome = true
      then { s.warden with talk := s.warden.talk.map fun k => k + 1 } else s.warden) ∧
    (∀ i : Fin 16, t.slots.entries[i] =
      if s.rif.master = true ∧ s.slots.entries[i].held.isSome = true
      then { s.slots.entries[i] with absence := s.slots.entries[i].absence + 1 }
      else s.slots.entries[i]) ∧
    (∀ n : Fin 4, t.chans[n] = tickChan s.locked s.chans[n]) ∧
    (∀ n : Fin 4, t.cads[n] =
      if s.cads[n].running = true ∧ s.work.cad[n].inUse = true
      then { s.cads[n] with remaining := s.cads[n].remaining - 1 } else s.cads[n]) ∧
    (∀ z : Zone, t.outs[z] = { s.outs[z] with
      current :=
        if s.outs[z].target + 2 ≤ s.outs[z].current then s.outs[z].current - 2
        else if s.outs[z].current + 2 ≤ s.outs[z].target then s.outs[z].current + 2
        else s.outs[z].target }) ∧
    t.slots = { s.slots with entries := t.slots.entries } := by
  intro t ht
  rw [ht, tick_eq]
  dsimp only
  refine ⟨?_, ?_, fun i => ?_, fun n => updAll_get _ _ n, fun n => ?_, fun z => ?_, ?_⟩
  · rw [tickedActs, tickRecord_eq]
  · unfold tickedWarden talkCounts
    simp only [Bool.or_eq_true, Bool.and_eq_true, beq_iff_eq]
  · unfold tickedSlots
    cases s.rif.master with
    | false => rw [if_neg Bool.false_ne_true, if_neg fun h => Bool.false_ne_true h.1]
    | true =>
      simp only [if_true, true_and]
      rw [updAll_get]
      rfl
  · have h : (Vector.ofFn fun i => tickCad s.work.cad[i].inUse s.cads[i])[n] =
        tickCad s.work.cad[n].inUse s.cads[n] := Vector.getElem_ofFn n.isLt
    rw [h, tickCad]
    simp only [Bool.and_eq_true]
  · rw [updAll_get, tickOut, rampStep_eq]
  · unfold tickedSlots
    split <;> rfl

/-- Whether a frame's millisecond is still due once this one has been completed (R176, log entry 20). -/
def stillDue (o : MsOrigin) (s : State) : Bool :=
  match o with
  | .frame => false
  | .oscillator => s.msDue

/-- Settles O16. -/
theorem millisecondCounts : Obligations.MillisecondCounts := by
  intro o s hp ho hdue
  have hmay : msMayComplete o s = true := by
    have hp' : (s.phase != .off) = true := by simpa using hp
    unfold msMayComplete
    rw [hp']
    cases o with
    | frame => simp [locked_of ho.1, ho.2]
    | oscillator =>
      have hn : s.rif.ring ≠ .locked ∨ s.msDue = false := by
        rw [← Bool.not_eq_true]
        exact not_and_or.1 ho
      simpa [State.locked] using hn
  let u : State := { s with msDue := stillDue o s }
  have he : exec (.timebaseMillisecond o) s = .next (tick u) := by
    refine whenever_leaves (o := execTimebaseMillisecond o s) rfl hmay ?_
    rw [expireDue_none hdue]
    cases o <;> rfl
  obtain ⟨h1, h2, h3, h4, h5, h6, h7⟩ := tick_counts u _ rfl
  refine ⟨tick u, he, by rw [tick_eq], h1, by rw [tick_eq], h2, h3, fun n => ?_, h5, h6, ?_, h7⟩
  · obtain ⟨c1, c2, c3, c4, c5⟩ := tickChan_cases s.locked s.chans[n]
    rw [h4]
    exact ⟨c1, c2, fun a b d => c3 a b (locked_of d), fun a b d => c4 a b (not_locked_of d),
      fun a b d => c5 a b (not_locked_of d)⟩
  · rw [tick_eq]
    cases o <;> rfl

end Sys2Proof.Machine

namespace Sys2Proof.Machine

/-! ## Matching, reach and merge (O33) -/

/-- What the reference of an effect holds (R43). -/
theorem eq_refOf_iff (f : Ref) (i k : Nat) (x : Effect) : f = refOf i k x ↔
    f.entry = i ∧ f.effect = k ∧ f.due = false ∧
      (x.first = .named .alert → f.stage = .alert ∧
        f.timer = if x.delay = 0 then none else some (x.delay * 1000)) ∧
      (x.first ≠ .named .alert → f.stage = .evacuate ∧ f.timer = none) := by
  obtain ⟨fi, fk, st, tm, due⟩ := f
  unfold refOf
  split
  next hf => simp [hf]; tauto
  next hf => simp [hf]; tauto

/-- A reference of a detection zone comes from an effect of a matching entry (R41). -/
theorem mem_allRefs (t : Tables) (dz : Nat) (f : Ref) : f ∈ allRefs t dz ↔
    ∃ (i : Fin 256) (k : Nat) (x : Effect), matchesDz t.ce[i] dz = true ∧
      t.ce[i].effects[k]? = some x ∧ f = refOf i.val k x := by
  unfold allRefs
  rw [List.mem_flatMap]
  constructor
  · rintro ⟨i, -, hf⟩
    split at hf
    next hm =>
      obtain ⟨⟨x, k⟩, hx, rfl⟩ := List.mem_map.1 hf
      exact ⟨i, k, x, hm, List.mem_zipIdx_iff_getElem?.1 hx, rfl⟩
    next => cases hf
  · rintro ⟨i, k, x, hm, hx, rfl⟩
    refine ⟨i, List.mem_finRange i, ?_⟩
    rw [if_pos hm]
    exact List.mem_map.2 ⟨(x, k), List.mem_zipIdx_iff_getElem?.2 hx, rfl⟩

theorem matchesDz_iff (e : CeEntry) (dz : Nat) :
    matchesDz e dz = true ↔ e.inUse = true ∧ e.dzLo ≤ dz ∧ dz ≤ e.dzHi := by
  simp [matchesDz, and_assoc]

/-- The references of a detection zone, through the table's entries (R41, R43). -/
theorem mem_allRefs_iff (t : Tables) (dz : Nat) (f : Ref) : f ∈ allRefs t dz ↔
    ∃ (e : CeEntry) (x : Effect), t.ce[f.entry]? = some e ∧ e.inUse = true ∧ e.dzLo ≤ dz ∧
      dz ≤ e.dzHi ∧ e.effects[f.effect]? = some x ∧ f.due = false ∧
      (x.first = .named .alert → f.stage = .alert ∧
        f.timer = if x.delay = 0 then none else some (x.delay * 1000)) ∧
      (x.first ≠ .named .alert → f.stage = .evacuate ∧ f.timer = none) := by
  rw [mem_allRefs]
  constructor
  · rintro ⟨i, k, x, hm, hx, hf⟩
    obtain ⟨hi, hk, hrest⟩ := (eq_refOf_iff f i.val k x).1 hf
    obtain ⟨huse, hlo, hhi⟩ := (matchesDz_iff _ dz).1 hm
    exact ⟨t.ce[i], x, by rw [hi]; exact vector_getElem?_fin t.ce i, huse, hlo, hhi, by rw [hk]; exact hx,
      hrest⟩
  · rintro ⟨e, x, he, huse, hlo, hhi, hx, hrest⟩
    obtain ⟨hi, rfl⟩ := Vector.getElem?_eq_some_iff.1 he
    exact ⟨⟨f.entry, hi⟩, f.effect, x, (matchesDz_iff _ dz).2 ⟨huse, hlo, hhi⟩, hx,
      (eq_refOf_iff f _ _ x).2 ⟨rfl, rfl, hrest⟩⟩

theorem refOf_entry (i k : Nat) (x : Effect) : (refOf i k x).entry = i :=
  ((eq_refOf_iff _ i k x).1 rfl).1

theorem refOf_effect (i k : Nat) (x : Effect) : (refOf i k x).effect = k :=
  ((eq_refOf_iff _ i k x).1 rfl).2.1

/-- The references of a detection zone stand in order of entry and effect (R41). -/
theorem allRefs_ordered (t : Tables) (dz : Nat) : (allRefs t dz).Pairwise fun a b =>
    a.entry < b.entry ∨ (a.entry = b.entry ∧ a.effect < b.effect) := by
  unfold allRefs
  rw [List.pairwise_flatMap]
  constructor
  · intro i _
    split
    next =>
      rw [List.pairwise_map, List.pairwise_iff_getElem]
      intro a b ha hb hab
      right
      simpa [refOf_entry, refOf_effect] using hab
    next => exact List.Pairwise.nil
  · refine (List.pairwise_lt_finRange 256).imp ?_
    intro i j hij a ha b hb
    left
    split at ha
    next =>
      split at hb
      next =>
        obtain ⟨p, -, rfl⟩ := List.mem_map.1 ha
        obtain ⟨p', -, rfl⟩ := List.mem_map.1 hb
        rw [refOf_entry, refOf_entry]
        exact hij
      next => cases hb
    next => cases ha

/-! ### The reach of an effect -/

theorem effectOf_some (t : Tables) (f : Ref) (x : Effect) : effectOf t f = some x ↔
    ∃ e, t.ce[f.entry]? = some e ∧ e.effects[f.effect]? = some x := by
  unfold effectOf
  split
  next e he => simp [he]
  next he => simp [he]

/-- The scope test (R46–R48). -/
theorem scopeTest_iff (x : Effect) (level : Level) (m : SpkZone) (z : Zone) :
    scopeTest x level m z = true ↔
      (∃ (lo hi : Int) (l a b : Nat), x.scope = .named (.relative lo hi) ∧ level = some l ∧
          m.levelLo = some a ∧ m.levelHi = some b ∧
          (a : Int) ≤ min 127 (max 0 (l + hi)) ∧ min 127 (max 0 (l + lo)) ≤ (b : Int)) ∨
        ∃ zs, x.scope = .named (.fixed zs) ∧ inSet zs z = true := by
  unfold scopeTest
  split
  next lo hi hx =>
    split
    next => simp [hx]
    next l =>
      unfold spanOverlaps
      split
      next a b ha hb =>
        have hup : (a ≤ bandEnd l hi) ↔ (a : Int) ≤ min 127 (max 0 (l + hi)) := by unfold bandEnd; omega
        have hdown : (bandEnd l lo ≤ b) ↔ min 127 (max 0 (l + lo)) ≤ (b : Int) := by unfold bandEnd; omega
        simp only [hx, ha, hb, Bool.and_eq_true, decide_eq_true_eq, hup, hdown]
        constructor
        · rintro ⟨h1, h2⟩
          exact .inl ⟨lo, hi, l, a, b, rfl, rfl, rfl, rfl, h1, h2⟩
        · rintro (⟨_, _, _, _, _, h1, h2, h3, h4, h5, h6⟩ | ⟨zs, h1, -⟩)
          · cases h1; cases h2; cases h3; cases h4
            exact ⟨h5, h6⟩
          · cases h1
      next hno =>
        simp only [hx, Bool.false_eq_true, false_iff]
        rintro (⟨_, _, _, a, b, -, -, h3, h4, -⟩ | ⟨zs, h1, -⟩)
        · exact hno a b h3 h4
        · cases h1
  next zs hx => simp [hx]
  next c hx => simp [hx]

/-- The kind test (R49). -/
theorem kindTest_iff (k : KindSet) (c : Coded Kind) : kindTest k c = true ↔
    (c = .named .floor ∧ k.floor = true) ∨ (c = .named .stair ∧ k.stair = true) ∨
      (c = .named .lift ∧ k.lift = true) ∨ (c = .named .refuge ∧ k.refuge = true) := by
  match c with
  | .named .floor | .named .stair | .named .lift | .named .refuge | .other n => simp [kindTest]

/-- The sector test (R2, R50). -/
theorem sectorTest_iff (x : Effect) (zs : Nat) (cause : Option Nat) : sectorTest x zs cause = true ↔
    x.sector = .named .any ∨ (x.sector = .named .same ∧ ∃ c, cause = some c ∧ (zs = 7 ∨ zs = c)) := by
  unfold sectorTest
  split
  next h => simp [h]
  next h => cases cause <;> simp [h, sameSector]
  next c h => simp [h]

/-- An effect reaches a zone in use that passes its four tests (R45). -/
theorem effectReaches_iff (t : Tables) (r : ActRecord) (x : Effect) (z : Zone) :
    effectReaches t r x z = true ↔ t.spk[z].inUse = true ∧ scopeTest x r.level t.spk[z] z = true ∧
      kindTest x.kinds t.spk[z].kind = true ∧ sectorTest x t.spk[z].sector r.sector = true ∧
      inSet t.orig[r.cls].reach z = true := by
  unfold effectReaches reachOf
  simp only [Bool.and_eq_true, and_assoc]

/-- A reference reaches a zone where its effect does. -/
theorem refReaches_iff (t : Tables) (r : ActRecord) (f : Ref) (z : Zone) :
    refReaches t r f z = true ↔ ∃ x, effectOf t f = some x ∧ effectReaches t r x z = true := by
  unfold refReaches
  split
  next x hx => simp [hx]
  next hx => simp [hx]

/-! ### The template of a stage, and the merge -/

theorem templateInUse_some (t : Tables) (n : Nat) (m : Template) :
    templateInUse t n = some m ↔ m.inUse = true ∧ t.templ[n]? = some m := by
  unfold templateInUse
  split
  next m' hm =>
    rw [hm]
    split
    next hu => exact ⟨fun h => by cases h; exact ⟨hu, rfl⟩, fun h => h.2⟩
    next hu => exact ⟨nofun, fun h => by obtain ⟨h1, h2⟩ := h; cases h2; exact absurd h1 hu⟩
  next hm => simp [hm]

/-- The current-stage template of a reference (R52). -/
theorem stageTemplate_some (t : Tables) (f : Ref) (m : Template) : stageTemplate t f = some m ↔
    ∃ x, effectOf t f = some x ∧ m.inUse = true ∧
      t.templ[if f.stage = .alert then x.alert else x.evacuate]? = some m := by
  unfold stageTemplate
  split
  next hx => simp [hx]
  next x hx =>
    rw [templateInUse_some, hx]
    cases hs : f.stage <;> simp

/-- One reference of the list meets the best found before it (R52). -/
def chooseStep (t : Tables) (r : ActRecord) (z : Zone) (best : Option (Ref × Template)) (f : Ref) :
    Option (Ref × Template) :=
  if refReaches t r f z then
    match stageTemplate t f, best with
    | none, _ => best
    | some m, none => some (f, m)
    | some m, some b => if b.2.prio < m.prio then some (f, m) else best
  else best

/-- The merge takes the references of the record one after the other. -/
theorem chooseRef_eq (t : Tables) (r : ActRecord) (z : Zone) :
    chooseRef t r z = r.refs.foldl (chooseStep t r z) none := rfl

/-- The reference at a place of the list competes for a zone with a template in use. -/
def Competes (t : Tables) (r : ActRecord) (z : Zone) (l : List Ref) (i : Nat) (f : Ref) (m : Template) :
    Prop :=
  l[i]? = some f ∧ refReaches t r f z = true ∧ stageTemplate t f = some m

/-- What a merge over a list of references has found: the first of the highest priority (R52). -/
def Chosen (t : Tables) (r : ActRecord) (z : Zone) (l : List Ref) : Option (Ref × Template) → Prop
  | none => ∀ i f m, ¬ Competes t r z l i f m
  | some b => ∃ i, Competes t r z l i b.1 b.2 ∧
      ∀ j f m, Competes t r z l j f m → m.prio ≤ b.2.prio ∧ (j < i → m.prio < b.2.prio)

/-- Who competes in a list with one more reference. -/
theorem competes_concat (t : Tables) (r : ActRecord) (z : Zone) (l : List Ref) (g : Ref) (i : Nat)
    (f : Ref) (m : Template) : Competes t r z (l ++ [g]) i f m ↔ Competes t r z l i f m ∨
      (i = l.length ∧ f = g ∧ refReaches t r g z = true ∧ stageTemplate t g = some m) := by
  unfold Competes
  rcases Nat.lt_trichotomy i l.length with h | h | h
  · rw [List.getElem?_append_left h]
    simp [Nat.ne_of_lt h]
  · subst h
    simp only [List.getElem?_concat_length, List.getElem?_eq_none (Nat.le_refl l.length), Option.some.injEq]
    constructor
    · rintro ⟨rfl, h1, h2⟩
      exact .inr ⟨trivial, rfl, h1, h2⟩
    · rintro (⟨h, -⟩ | ⟨-, rfl, h1, h2⟩)
      · cases h
      · exact ⟨rfl, h1, h2⟩
  · have h1 : (l ++ [g])[i]? = none := List.getElem?_eq_none (by simp; omega)
    have h2 : l[i]? = none := List.getElem?_eq_none (Nat.le_of_lt h)
    rw [h1, h2]
    simp [Nat.ne_of_gt h]

theorem Competes.lt {t : Tables} {r : ActRecord} {z : Zone} {l : List Ref} {i : Nat} {f : Ref}
    {m : Template} (h : Competes t r z l i f m) : i < l.length := (List.getElem?_eq_some_iff.1 h.1).1

/-- One more reference that does not compete leaves what was found. -/
theorem Chosen.skip {t : Tables} {r : ActRecord} {z : Zone} {l : List Ref} {b : Option (Ref × Template)}
    (h : Chosen t r z l b) (g : Ref)
    (hg : ∀ m, ¬ (refReaches t r g z = true ∧ stageTemplate t g = some m)) : Chosen t r z (l ++ [g]) b := by
  have same : ∀ i f m, Competes t r z (l ++ [g]) i f m ↔ Competes t r z l i f m := by
    intro i f m
    rw [competes_concat]
    exact ⟨fun h => h.resolve_right fun ⟨_, _, hc⟩ => hg m hc, .inl⟩
  cases b with
  | none => exact fun i f m hc => h i f m ((same i f m).1 hc)
  | some b =>
    obtain ⟨i, hi, hmax⟩ := h
    exact ⟨i, (same ..).2 hi, fun j f m hc => hmax j f m ((same ..).1 hc)⟩

/-- One more reference keeps the choice the first highest (R52). -/
theorem Chosen.step {t : Tables} {r : ActRecord} {z : Zone} {l : List Ref} {b : Option (Ref × Template)}
    (h : Chosen t r z l b) (g : Ref) : Chosen t r z (l ++ [g]) (chooseStep t r z b g) := by
  unfold chooseStep
  split
  next hr =>
    split
    next hn => exact h.skip g fun m hc => by rw [hn] at hc; cases hc.2
    next m hm =>
      refine ⟨l.length, (competes_concat ..).2 (.inr ⟨rfl, rfl, hr, hm⟩), ?_⟩
      intro j f m' hc
      rcases (competes_concat ..).1 hc with hc | ⟨rfl, -, -, hm'⟩
      · exact absurd hc (h j f m')
      · cases hm.symm.trans hm'
        exact ⟨Nat.le_refl _, fun hlt => absurd hlt (Nat.lt_irrefl _)⟩
    next m b hm =>
      obtain ⟨i, hi, hmax⟩ := h
      split
      next hlt =>
        refine ⟨l.length, (competes_concat ..).2 (.inr ⟨rfl, rfl, hr, hm⟩), ?_⟩
        intro j f m' hc
        rcases (competes_concat ..).1 hc with hc | ⟨rfl, -, -, hm'⟩
        · have hle := (hmax j f m' hc).1
          exact ⟨by dsimp only; omega, fun _ => by dsimp only; omega⟩
        · cases hm.symm.trans hm'
          exact ⟨Nat.le_refl _, fun hlt => absurd hlt (Nat.lt_irrefl _)⟩
      next hle =>
        refine ⟨i, (competes_concat ..).2 (.inl hi), ?_⟩
        intro j f m' hc
        rcases (competes_concat ..).1 hc with hc | ⟨rfl, -, -, hm'⟩
        · exact hmax j f m' hc
        · cases hm.symm.trans hm'
          exact ⟨Nat.le_of_not_lt hle, fun hji => absurd hi.lt (by omega)⟩
  next hr => exact h.skip g fun m hc => hr hc.1

/-- The merge finds the first reference of the highest priority (R52). -/
theorem chooseRef_chosen (t : Tables) (r : ActRecord) (z : Zone) :
    Chosen t r z r.refs (chooseRef t r z) := by
  rw [chooseRef_eq]
  have all : ∀ l : List Ref, Chosen t r z l (l.foldl (chooseStep t r z) none) := by
    intro l
    induction l using List.reverseRecOn with
    | nil => exact fun i f m hc => absurd hc.lt (Nat.not_lt_zero i)
    | append_singleton l g ih =>
      rw [List.foldl_append]
      exact ih.step g
  exact all r.refs

/-- Settles O33: matching and reach by their tests, the merge by the first highest reference. -/
theorem mergeTakesHighest : Obligations.MergeTakesHighest := by
  refine ⟨mem_allRefs_iff, fun t dz => ⟨rfl, allRefs_ordered t dz⟩, ?reach, ?template, ?merge⟩
  case reach =>
    intro t r f z
    simp only [refReaches_iff, effectOf_some, effectReaches_iff, scopeTest_iff, kindTest_iff, sectorTest_iff]
    constructor
    · rintro ⟨x, ⟨e, he, hx⟩, h⟩
      exact ⟨e, x, he, hx, h⟩
    · rintro ⟨e, x, he, hx, h⟩
      exact ⟨x, ⟨e, he, hx⟩, h⟩
  case template =>
    intro t f m
    simp only [stageTemplate_some, effectOf_some]
    constructor
    · rintro ⟨x, ⟨e, he, hx⟩, hu, hm⟩
      exact ⟨hu, e, x, he, hx, hm⟩
    · rintro ⟨hu, e, x, he, hx, hm⟩
      exact ⟨x, ⟨e, he, hx⟩, hu, hm⟩
  case merge =>
    intro t now r z
    have hch := chooseRef_chosen t r z
    unfold mergeClaim
    cases hb : chooseRef t r z with
    | none =>
      rw [hb] at hch
      refine ⟨(fun c hc => by cases hc), fun _ f hf hr => ?_⟩
      obtain ⟨i, hi⟩ := List.mem_iff_getElem?.1 hf
      cases hm : stageTemplate t f with
      | none => rfl
      | some m => exact absurd ⟨hi, hr, hm⟩ (hch i f m)
    | some b =>
      rw [hb] at hch
      obtain ⟨i, ⟨hi, hr, hm⟩, hmax⟩ := hch
      refine ⟨fun c hc => ?_, fun h => by cases h⟩
      exact ⟨i, b.1, b.2, hi, hr, hm, (Option.some.inj hc).symm,
        fun j f' m' hj hr' hm' => hmax j f' m' ⟨hj, hr', hm'⟩⟩

end Sys2Proof.Machine

namespace Sys2Proof.Machine

/-! ## The checks of the Command Engine (O3) -/

/-- A command of the control stream runs through the checks of R198. -/
theorem exec_commandWith {i : Instr} {e : Entry} (h : i.entry = some e) (s : State) :
    ∃ (extra own : State → Nat) (act : State → State), exec i s = commandWith e extra own act s := by
  cases i
  all_goals
    simp only [Instr.entry, Option.some.injEq, reduceCtorEq] at h
  all_goals
    subst h
    simp only [exec, execCauseOn, execCauseOff, execCauseReset, execCauseResetAll, execEscalateNow,
      execEscalateNowAll, execHoldStages, execReleaseStages, execZoneSet, execZoneClear, execSilence,
      execResound, execPlayStart, execPlayStop, execCapture, execCaptureStop, execClearFaults,
      execTableWrite, execCommit, execRestart, execSlotClearAll, execStatusRead, execZoneRead,
      execCauseRead, execTableRead, execUnknownCommandCode, command]
    exact ⟨_, _, _, rfl⟩

/-- A command that a check refuses is answered with the result of the check. -/
theorem exec_refused {i : Instr} {e : Entry} {s : State} {r : Result} (hi : i.entry = some e)
    (hh : s.cmdQueue.head? = some e) (hm : mayBegin s 1 = true) (hr : refusalOf s e = some r) :
    exec i s = .next (repliedWith s e.req e.body r .none) := by
  obtain ⟨extra, own, act, h⟩ := exec_commandWith hi s
  rw [h]
  exact commandWith_refused hh hr hm extra own act

/-- The only code of the control stream that the router does not know is that of an unknown command. -/
theorem unknownCode_entry {i : Instr} {e : Entry} (h : i.entry = some e) :
    unknownCode e.body = false ∨ ∃ n, e.body = .unknown n := by
  cases i
  all_goals
    simp only [Instr.entry, Option.some.injEq, reduceCtorEq] at h
  all_goals
    subst h
    simp [unknownCode]

theorem lockRefuses_iff (b : CmdBody) : lockRefuses b = true ↔
    (∃ t n c, b = .tableWrite t n c) ∨ b = .commit ∨ (∃ p n ms, b = .capture p n ms) ∨
      b = .slotClearAll := by
  cases b <;> simp [lockRefuses]

/-- Settles O3: the checks are the branches of the refusal, taken in order. -/
theorem checksInOrder : Obligations.ChecksInOrder := by
  constructor
  · intro q n s hh hm
    exact exec_refused (i := .unknownCommandCode q n) rfl hh hm rfl
  · intro i e s hi hh hm hknown
    have hu : unknownCode e.body = false :=
      (unknownCode_entry hi).resolve_right fun ⟨n, hn⟩ => hknown n hn
    refine ⟨fun hc => exec_refused hi hh hm ?_, fun h4 h5 => ⟨fun hp => exec_refused hi hh hm ?_,
      fun hp => ⟨fun hb => exec_refused hi hh hm ?_, fun hb hl hk => exec_refused hi hh hm ?_⟩⟩⟩
    · simp [refusalOf, hu, hc]
    · unfold refusalOf
      rw [hp]
      simp [hu, h4, h5]
    · unfold refusalOf
      rw [hp]
      simp [hu, h4, h5, hb]
    · unfold refusalOf
      rw [hp]
      simp [hu, h4, h5, hb, hl, (lockRefuses_iff _).2 hk]

/-! ## Every command goes on (O2) -/

theorem OnlyZones.pending {s t : State} (h : OnlyZones s t) : t.pending = s.pending := by rw [h.frame]

theorem HandsOnly.pending {s t : State} (h : HandsOnly s t) : t.pending = s.pending := by rw [h]

theorem SupervisionOnly.pending {s t : State} (h : SupervisionOnly s t) : t.pending = s.pending := by
  rw [h]

theorem abortCapture_pending (s : State) : (abortCapture s).pending = s.pending := by
  rw [abortCapture_frame]

theorem cutCommit_pending (s : State) : (cutCommit s).pending = s.pending := by rw [cutCommit_frame]

theorem spkWritten_pending (z : Zone) (a b : SpkZone) (s : State) :
    (spkWritten z a b s).pending = s.pending := by
  unfold spkWritten
  split
  · unfold zoneLeaves
    exact (updateLock_onlyZones _).pending.trans
      ((arbiter_onlyZones _).pending.trans (listenerChange_onlyZones _ _ _).pending)
  · rfl
  · have h1 : (trimChange z a b s).pending = s.pending := by
      unfold trimChange
      split <;> rfl
    exact (eligibleChange_pool _ _ _).hands.pending.trans
      ((lineCfgChange_supervision _ _ _ _).pending.trans h1)
  · rfl

theorem tick_pending (s : State) : (tick s).pending = s.pending := by rw [tick_eq]

theorem restartEffect_pending (b : Bool) (s : State) : (restartEffect b s).pending = s.pending := by
  have h1 : ∀ u : State, (supervisionRestart (wardenRestart (cadsRestart (outsRestart u)))).pending =
      u.pending := by
    intro u
    unfold supervisionRestart windowRestart wardenRestart cadsRestart outsRestart setWarden
    rfl
  have h2 : ∀ u : State, (ringRestart u).pending = u.pending := by
    intro u
    unfold ringRestart enterRing
    rw [(ringToOutputs_hands _).pending]
    rfl
  unfold restartEffect
  rw [h1, h2, (chansRestart_hands _).pending]
  exact (report_sounds _ _).hands.pending

/-- No move touches the queue of the commands that wait. -/
theorem Move.pending {c : Instr} {s t : State} (hm : Move c s t) : t.pending = s.pending := by
  cases hm with
  | aside ht => rw [ht]
  | report b s => exact (report_sounds b s).hands.pending
  | captureEnded s => rw [endCapture_frame]
  | captureSampled v s => rw [captureSample_frame]
  | recorded r s _ _ _ _ => exact (updateLock_onlyZones _).pending
  | recordGone dz b s => exact (updateLock_onlyZones _).pending
  | offer z x s _ => exact (offer_onlyZones z x s).pending
  | removal z p s => exact (removal_onlyZones z p s).pending
  | started n s _ _ => exact (startChan_onlyZones n s).pending
  | begun n k s _ _ _ => exact (beginStep_onlyZones n k s).pending
  | zoneWritten z e s _ => exact spkWritten_pending z _ e _
  | phraseWritten p e s _ _ => exact (phraseWritten_onlyZones p _).pending
  | programWritten n e e' s _ _ => exact (progWritten_onlyZones n e' _).pending
  | tableDone x s _ => rw [commitGoesOn_frame]
  | powerLost s => rw [cutCommit_frame]
  | windowJudged s => rw [windowVerdicts_supervision s]
  | ringEntered st s _ _ => exact (ringToOutputs_onlyZones (setRing st s)).pending
  | ringLost s _ =>
    rw [abortCapture_pending]
    exact (ringToOutputs_onlyZones (setRing .lost (leaveLocked s))).pending
  | loaded s _ =>
    refine (ringToOutputs_onlyZones (setRing .seeking (load s))).pending.trans ?_
    unfold load setRif
    rfl
  | restarted b s _ _ _ => exact restartEffect_pending b s
  | cold b s t _ ht => 
    cases ht
    exact cutCommit_pending s
  | ticked o s _ => exact tick_pending s
  | _ => rfl

theorem Moves.pending {c : Instr} {s t : State} (h : Moves c s t) : t.pending = s.pending := by
  induction h with
  | refl => rfl
  | tail _ hm ih => exact hm.pending.trans ih

theorem commandWith_next (e : Entry) (extra own : State → Nat) (act : State → State) (s : State) :
    ∃ t, commandWith e extra own act s = .next t := by
  unfold commandWith
  split <;> exact ⟨_, rfl⟩

/-- Every command has a state to go on with (log entries 1 and 3). -/
theorem exec_next (c : Instr) (s : State) : ∃ t, exec c s = .next t := by
  cases hc : c.entry with
  | some e =>
    obtain ⟨extra, own, act, h⟩ := exec_commandWith hc s
    rw [h]
    exact commandWith_next e extra own act s
  | none =>
    cases c
    all_goals
      simp only [Instr.entry, reduceCtorEq] at hc
    all_goals exact ⟨_, rfl⟩

/-- Settles O2: the table gives every row a next state, and no move touches the waiting commands. -/
theorem everyCommandGoesOn : Obligations.EveryCommandGoesOn := by
  intro c s
  obtain ⟨t, h⟩ := exec_next c s
  exact ⟨t, h, (exec_moves h).pending⟩

end Sys2Proof.Machine

namespace Sys2Proof.Machine

/-! ## Captures begin and end (O48, O49) -/

/-- An admitted command whose act places no reply of its own leaves what the act makes of the state in hand. -/
theorem commandWith_acts {s u : State} {q : Request} {b : CmdBody} {act : State → State}
    {extra own : State → Nat} (h : Admitted s q b (extra s + own s))
    (ha : act (inHand (own s) s) = u) :
    commandWith ⟨q, b⟩ extra own act s = .next { u with reserved := 0 } := by
  rw [commandWith_of h]
  exact congrArg (fun u : State => Host.Outcome.next { u with reserved := 0 }) ha

/-- A changed entry of a table, at an index the table has. -/
theorem updNat_some {α : Type} {n i : Nat} {v : Vector α n} {x : α} (h : v[i]? = some x) (f : α → α) :
    updNat v i f = v.setIfInBounds i (f x) := by
  obtain ⟨hi, hx⟩ := Vector.getElem?_eq_some_iff.1 h
  unfold updNat
  rw [dif_pos hi, hx]
  exact Vector.ext fun j hj => by simp [Vector.getElem_set, Vector.getElem_setIfInBounds]

theorem phraseInUse_iff (s : State) (p : Nat) : phraseInUse s p = true ↔
    ∃ n : Fin 4, s.work.progs[n].inUse = true ∧
      (s.chans[n].state = .running ∨ s.chans[n].state = .waiting) ∧
      .named (.phrase p) ∈ s.work.progs[n].steps := by
  unfold phraseInUse
  rw [List.any_eq_true]
  refine exists_congr fun n => ?_
  simp only [List.mem_finRange, true_and, Bool.and_eq_true, Bool.or_eq_true, beq_iff_eq, and_assoc,
    List.any_eq_true]
  simp

/-- A refused CAPTURE is answered with the result of the check. -/
theorem capture_refused {s : State} {q : Request} {p slot ms : Nat} {r : Result}
    (h : Admitted s q (.capture p slot ms) 1) (hr : captureRefusal s p slot ms = some r) :
    exec (.capture q p slot ms) s = .next (repliedWith s q (.capture p slot ms) r .none) := by
  refine (commandWith_leaves (s := s) (extra := noExtra) (own := oneReply) (v := inHand 1 s) (r := r)
    (d := .none) h ?_).trans rfl
  have : captureRefusal (inHand 1 s) p slot ms = some r := hr
  dsimp only [oneReply]
  rw [this]

/-- The state with a capture begun: its phrase is not valid, and the capture record holds the requester. -/
def begun (q : Request) (p slot ms : Nat) (ph : Phrase) (s : State) : State := { s with
  work := { s.work with phrases := s.work.phrases.setIfInBounds p { ph with valid := false } }
  capture := some { phrase := p, slot := slot, maxSamples := min ms 262144 * 16
                    recorded := 0, requester := q } }

theorem beginCapture_some {s : State} {p : Nat} {ph : Phrase} (hp : s.work.phrases[p]? = some ph)
    (q : Request) (slot ms : Nat) : beginCapture q p slot ms s = begun q p slot ms ph s := by
  unfold beginCapture mapPhrase
  rw [updNat_some hp]
  rfl

/-- Settles O48: the refusal's branches in order, the last of them the beginning of the capture. -/
theorem captureBegins : Obligations.CaptureBegins := by
  intro s q p slot ms h refused
  have hno : ∀ {r}, captureRefusal s p slot ms = some r → refused r := fun hr => capture_refused h hr
  refine ⟨fun hb => hno (if_pos hb), fun hp hs hm => ?_⟩
  have hfit : ¬(63 < p ∨ 31 < slot ∨ ms = 0) := by omega
  refine ⟨fun hc => hno ?_, ?_⟩
  · simp [captureRefusal, hfit, Option.isSome_iff_ne_none.2 hc]
  intro hc used
  refine ⟨fun hu => hno ?_, fun hu ph hph => ?_⟩
  · simp [captureRefusal, hfit, hc, (phraseInUse_iff s p).2 hu]
  · have hu : phraseInUse s p = false := by rw [Bool.eq_false_iff]; exact fun h => hu ((phraseInUse_iff s p).1 h)
    refine ⟨fun hcap => hno ?_, fun hcap hl => hno ?_, fun hcap hl => ?_⟩
    · simp [captureRefusal, hfit, hc, hu, hph, hcap]
    · simp [captureRefusal, hfit, hc, hu, hph, Nat.ne_of_gt hcap, State.locked, hl]
    · have hr : captureRefusal (inHand 1 s) p slot ms = none := by
        show captureRefusal s p slot ms = none
        simp [captureRefusal, hfit, hc, hu, hph, Nat.ne_of_gt hcap, State.locked, hl]
      refine (commandWith_acts (s := s) (extra := noExtra) (own := oneReply)
        (u := begun q p slot ms ph (inHand 1 s)) h ?_).trans rfl
      dsimp only [oneReply]
      rw [hr]
      exact beginCapture_some (s := inHand 1 s) hph q slot ms

/-- The state with a capture ended: its phrase is valid with the recorded length. -/
def recorded (c : Capture) (ph : Phrase) (s : State) : State := { s with
  work := { s.work with phrases := s.work.phrases.setIfInBounds c.phrase (
    { ph with length := c.recorded, valid := true }) }
  capture := none }

theorem endCapture_some {s : State} {c : Capture} {ph : Phrase} (hc : s.capture = some c)
    (hp : s.work.phrases[c.phrase]? = some ph) : endCapture s =
      placeOrDefer (replyMsg c.requester .capture .done (.captured c.recorded)) (recorded c ph s) := by
  unfold endCapture
  rw [hc]
  dsimp only
  unfold mapPhrase
  rw [updNat_some hp]
  rfl

theorem placeOrDefer_placed {m : OutMsg} {s : State} (hd : s.deferred = []) (hr : 0 < s.room) :
    placeOrDefer m s = place m s := if_pos (by simp [hd, hr])

theorem placeOrDefer_held {m : OutMsg} {s : State} (h : s.deferred ≠ [] ∨ s.room = 0) :
    placeOrDefer m s = { s with deferred := s.deferred ++ [m] } := by
  refine if_neg ?_
  rcases h with h | h <;> simp [h]

/-- A command may begin only where no deferred reply waits for room (R196, R197). -/
theorem mayBegin_deferred {s : State} {n : Nat} (h : mayBegin s n = true) (hr : 0 < s.room) :
    s.deferred = [] := by
  unfold mayBegin at h
  simp only [Bool.and_eq_true, Bool.or_eq_true, decide_eq_true_eq] at h
  obtain ⟨⟨-, h⟩, -⟩ := h
  rcases h with h | h
  · omega
  · exact List.isEmpty_iff.1 h

theorem mayBegin_need {s : State} {n : Nat} (h : mayBegin s n = true) : n ≤ s.room := by
  unfold mayBegin at h
  simp only [Bool.and_eq_true, decide_eq_true_eq] at h
  exact h.1.1.2

theorem captureDue_of {s : State} {c : Capture} {ph : Phrase} (hc : s.capture = some c)
    (hp : s.work.phrases[c.phrase]? = some ph)
    (hl : ph.capacity ≤ c.recorded ∨ c.maxSamples ≤ c.recorded) : captureDue s = true := by
  unfold captureDue
  rw [hc]
  dsimp only
  unfold captureLimit
  rw [hp]
  exact decide_eq_true (by dsimp only; omega)

/-- Settles O49: the capture's DONE is placed or held by the room that is left for it. -/
theorem captureEnds : Obligations.CaptureEnds := by
  constructor
  · intro s c ph hrun hc hp hl m s1
    have he : exec .captureLimit s = .next (placeOrDefer m s1) :=
      whenever_leaves (o := execCaptureLimit s) rfl
        (by rw [State.running, hrun, captureDue_of hc hp hl]; rfl) (endCapture_some hc hp)
    refine ⟨fun hd hr => ?_, fun h => ?_⟩
    · rw [he, placeOrDefer_placed (s := s1) hd hr]
    · rw [he, placeOrDefer_held (s := s1) h]
  · intro s q
    refine ⟨fun hc h => ?_, fun c ph hc hp h => ?_⟩
    · have hx : captureStopExtra s + oneReply s = 1 := by unfold captureStopExtra; rw [hc]; rfl
      refine (commandWith_replies (extra := captureStopExtra) (own := oneReply) (v := inHand 1 s)
        (hx ▸ h) ?_).trans rfl
      unfold endCapture
      rw [show oneReply s = 1 from rfl, show (inHand 1 s).capture = s.capture from rfl, hc]
    · have hx : captureStopExtra s + oneReply s = 2 := by unfold captureStopExtra; rw [hc]; rfl
      have hroom := mayBegin_need h.room
      have hd := mayBegin_deferred h.room (by omega)
      have hv : endCapture (inHand 1 s) = place
          (replyMsg c.requester .capture .done (.captured c.recorded)) (recorded c ph (inHand 1 s)) := by
        rw [endCapture_some (s := inHand 1 s) hc hp]
        refine placeOrDefer_placed hd ?_
        unfold State.room at hroom ⊢
        show 0 < Config.outMax - s.outbound.length - 1
        omega
      refine (commandWith_replies (extra := captureStopExtra) (own := oneReply) (hx ▸ h) hv).trans ?_
      rw [replyMsgs_one _ _ _ rfl]
      unfold place recorded inHand leftQueue
      dsimp only
      rw [List.append_assoc]
      rfl

/-! ## Edges (O38) -/

theorem execLocalInputEdge_eq (s : State) (n : Fin 8) (high : Bool) :
    exec (.localInputEdge n high) s = .next
      (if s.running && s.work.inputs[n].inUse then
        observeInput n { s with pins := { s.pins with inputHigh := s.pins.inputHigh.set n high } }
      else { s with pins := { s.pins with inputHigh := s.pins.inputHigh.set n high } }) := rfl

theorem execKeyEdge_eq (s : State) (closed : Bool) :
    exec (.keyEdge closed) s = .next (if s.running then
      (match s.warden.fresh with
        | some f => setWarden (fun w => { w with fresh := some { f with closed := f.closed && closed } })
            { s with pins := { s.pins with keyClosed := closed } }
        | none => observeKey { s with pins := { s.pins with keyClosed := closed } })
      else { s with pins := { s.pins with keyClosed := closed } }) := by
  rfl

/-- What an observation makes of an input's debounce record (R11). -/
theorem debounce_eq (now : Nat) (active : Bool) (d : Debounce) : debounce now active d =
    { d with due := if active = d.active then none else some (d.due.getD (now + 200)) } := by
  unfold debounce
  split <;> rfl

theorem upd_set_self {α : Type} {n : Nat} (v : Vector α n) (i : Fin n) (x : α) (f : α → α) :
    upd (v.set i x) i f = v.set i (f x) := by
  unfold upd
  rw [vector_set_self]
  simp

theorem inputWritten_get (n : Fin 8) (e : LocalIn) (s : State) (hw : s.work.inputs[n] = e) :
    inputWritten n e s = { s with inputs := s.inputs.set n (
      { active := false
        due := if e.inUse = true ∧ s.pins.inputHigh[n] = e.activeHigh then some (s.now + 200)
          else none }) } := by
  have hd : inputWritten n e s = { s with inputs := s.inputs.set n (if e.inUse then
      debounce s.now (inputActive s n) { active := false, due := none }
      else { active := false, due := none }) } := by
    unfold inputWritten observeInput
    dsimp only
    split
    · rw [upd_set_self]
      rfl
    · rfl
  have hv : (if e.inUse then debounce s.now (inputActive s n) { active := false, due := none }
      else { active := false, due := none }) =
      { active := false
        due := if e.inUse = true ∧ s.pins.inputHigh[n] = e.activeHigh then some (s.now + 200)
          else none } := by
    have ha : inputActive s n = true ↔ s.pins.inputHigh[n] = e.activeHigh := by
      unfold inputActive
      rw [hw]
      exact beq_iff_eq
    rw [debounce_idle]
    by_cases hu : e.inUse = true
    · simp only [hu, if_true, true_and, ha]
    · simp [hu]
  rw [hd, hv]

/-- Settles O38: the level is taken first, and what is observed is the level then. -/
theorem edgesObserved : Obligations.EdgesObserved := by
  refine ⟨fun s n high => ?inputs, fun s closed => ?key, fun s q n e e' h => h.leaves ?written⟩
  case inputs =>
    intro p
    rw [execLocalInputEdge_eq]
    refine ⟨fun h => ?_, fun hr hu => ?_⟩
    · have : (s.running && s.work.inputs[n].inUse) = false := by
        rcases h with h | h
        · simp [State.running, h]
        · rw [h, Bool.and_false]
      rw [this]
      rfl
    · rw [if_pos (by rw [hu]; simp [State.running, hr])]
      have ha : inputActive { s with pins := p } n = (high == s.work.inputs[n].activeHigh) := by
        unfold inputActive
        rw [show p.inputHigh[n] = high from vector_set_self _ _ _]
      have hd : observeInput n { s with pins := p } = { s with
          pins := p
          inputs := s.inputs.set n ({ s.inputs[n] with due :=
            (if (high == s.work.inputs[n].activeHigh) = s.inputs[n].active then none
            else some (s.inputs[n].due.getD (s.now + 200))) }) } := by
        unfold observeInput upd
        rw [ha]
        dsimp only
        rw [debounce_eq]
      exact congrArg _ hd
  case key =>
    intro p
    rw [execKeyEdge_eq]
    refine ⟨fun h => ?_, fun hr hf => ?_, fun f hr hf => ?_⟩
    · rw [if_neg (by simpa [State.running] using h)]
    · rw [if_pos (by simp [State.running, hr]), hf]
      refine congrArg _ ?_
      unfold observeKey setWarden
      dsimp only
      split <;> rfl
    · rw [if_pos (by simp [State.running, hr]), hf]
      rfl
  case written =>
    have hw : (inWriting n.val (.localIn e') s).work.inputs[n] = e' := by
      show (updNat s.work.inputs n.val fun _ => e')[n] = e'
      rw [updNat_fin, vector_set_self]
    unfold writeEffects
    dsimp only
    rw [atIndex_fin, inputWritten_get n e' _ hw]
    rfl

/-! ## CAUSE READ (O60) -/

/-- A record read at a position behind the removed one moves up by one. -/
theorem removed_earlier {a b : List ActRecord} {x r : ActRecord} {k : Nat}
    (hd : (a ++ x :: b).Pairwise fun p q => p.dz ≠ q.dz) (hk : (a ++ x :: b)[k]? = some r)
    (hlt : a.length < k) : ((a ++ x :: b).filter fun r => r.dz != x.dz)[k - 1]? = some r := by
  obtain ⟨-, hxb, hab⟩ := List.pairwise_append.1 hd
  obtain ⟨hx, -⟩ := List.pairwise_cons.1 hxb
  have ha : a.filter (fun r => r.dz != x.dz) = a := List.filter_eq_self.2 fun p hp => by
    simpa using hab p hp x (.head _)
  have hb : b.filter (fun r => r.dz != x.dz) = b := List.filter_eq_self.2 fun p hp => by
    simpa using (hx p hp).symm
  rw [List.filter_append, List.filter_cons_of_neg (by simp), ha, hb,
    List.getElem?_append_right (by omega)]
  rw [List.getElem?_append_right (by omega)] at hk
  obtain ⟨j, hj⟩ : ∃ j, k - a.length = j + 1 := ⟨k - a.length - 1, by omega⟩
  rw [hj, List.getElem?_cons_succ] at hk
  rwa [show k - 1 - a.length = j by omega]

theorem removeRecord_acts (dz : Nat) (s : State) :
    (removeRecord dz s).acts = s.acts.filter fun r => r.dz != dz := by
  unfold removeRecord
  dsimp only
  rw [(removalAll_onlyZones _ _).acts, updateLock_acts]

/-- The answer to a read whose argument names something. -/
theorem read_answers {s : State} {q : Request} {b : CmdBody} {d : ReplyData} {data : State → Option ReplyData}
    (hs : data (inHand (partsOf d) s) = data s) (hd : data s = some d) (h : Admitted s q b (partsOf d)) :
    command ⟨q, b⟩ (fun s => dataNeed (data s)) (fun s => replyRead ⟨q, b⟩ (data s) s) s =
      .next (repliedWith s q b .done d) := by
  have hn : dataNeed (data s) = partsOf d := by rw [hd]; rfl
  refine (commandWith_leaves (extra := noExtra) (own := fun s => dataNeed (data s))
    (v := inHand (partsOf d) s) ?_ ?_).trans rfl
  · show Admitted s q b (0 + dataNeed (data s))
    rwa [hn, Nat.zero_add]
  · rw [hn, hs, hd]
    rfl

/-- A read whose argument names nothing is refused. -/
theorem read_refused {s : State} {q : Request} {b : CmdBody} {data : State → Option ReplyData}
    (hs : data (inHand 1 s) = data s) (hd : data s = none) (h : Admitted s q b 1) :
    command ⟨q, b⟩ (fun s => dataNeed (data s)) (fun s => replyRead ⟨q, b⟩ (data s) s) s =
      .next (repliedWith s q b .badArgument .none) := by
  have hn : dataNeed (data s) = 1 := by rw [hd]; rfl
  refine (commandWith_leaves (extra := noExtra) (own := fun s => dataNeed (data s))
    (v := inHand 1 s) ?_ ?_).trans rfl
  · show Admitted s q b (0 + dataNeed (data s))
    rwa [hn, Nat.zero_add]
  · rw [hn, hs, hd]
    rfl

/-- Settles O60: a read of the record at its position, and a removal that moves those behind up by one. -/
theorem causeReadAnswers : Obligations.CauseReadAnswers := by
  refine ⟨fun s q i r hi hr h => ?_, fun s q i hi hl h => ?_, fun s q i hi h => ?_,
    fun s a b x r k hs hab hk hlt => ?_⟩
  · exact read_answers (data := fun s => causeData s i) rfl
      (by show causeData s i = _; rw [causeData, if_pos hi, hr]; rfl) h
  · exact read_answers (data := fun s => causeData s i) rfl
      (by show causeData s i = _; rw [causeData, if_pos hi, List.getElem?_eq_none hl]; rfl) h
  · exact read_refused (data := fun s => causeData s i) rfl (if_neg (Nat.not_le.2 hi)) h
  · rw [removeRecord_acts, hab]
    exact removed_earlier (hab ▸ hs.2.1) (hab ▸ hk) hlt

end Sys2Proof.Machine

namespace Sys2Proof.Machine

/-! ## The parts of a read (O59) -/

/-- The shares of a run of bytes, put together in order, are the bytes they cover. -/
theorem flatMap_shares (l : List Byte) (n : Nat) :
    ((List.range n).flatMap fun i => (l.drop (28 * i)).take 28) = l.take (28 * n) := by
  induction n with
  | zero => simp
  | succ n ih =>
    rw [List.range_succ, List.flatMap_append, ih, List.flatMap_singleton, Nat.mul_succ, List.take_add]

/-- A record that fits one body goes out whole (R197). -/
theorem replyMsgs_whole (q : Request) (r : Result) {c : CmdCode} {d : ReplyData} (h : recordCode d = some c)
    (hl : (dataBytes c d).length ≤ 30) : replyMsgs q c r d = [replyMsg q c r d] := by
  have hp : partsOf d = 1 := by
    unfold partsOf
    rw [h]
    exact if_neg (by omega)
  unfold replyMsgs partData
  rw [hp]
  rfl

/-- A record that does not fit one body goes out in its shares (R197). -/
theorem replyMsgs_shares (q : Request) (r : Result) {c : CmdCode} {d : ReplyData} (h : recordCode d = some c)
    (hl : 30 < (dataBytes c d).length) :
    replyMsgs q c r d = (List.range (((dataBytes c d).length + 27) / 28)).map fun i =>
      { dest := q.origin
        content := .reply
          { code := c, tag := q.tag, result := r
            data := .share (((dataBytes c d).drop (28 * i)).take 28), part := i
            parts := ((dataBytes c d).length + 27) / 28 } } := by
  have hp : partsOf d = ((dataBytes c d).length + 27) / 28 := by
    unfold partsOf
    rw [h]
    exact if_pos (by omega)
  unfold replyMsgs partData
  have hn : ¬((dataBytes c d).length + 27) / 28 ≤ 1 := by omega
  simp only [hp, if_neg hn]

/-! ## The fault summary and the indicator -/

theorem getLsbD_foldl_zones (p : Zone → Bool) (z : Zone) (l : List Zone) (acc : ZoneSet) :
    (l.foldl (fun acc z => if p z then acc ||| (1#24 <<< z.val) else acc) acc).getLsbD z =
      (acc.getLsbD z || (decide (z ∈ l) && p z)) := by
  induction l generalizing acc with
  | nil => simp
  | cons y l ih =>
    rw [List.foldl_cons, ih]
    have hb : ((1#24 <<< y.val).getLsbD z) = decide (z = y) := by
      rw [BitVec.getLsbD_shiftLeft]
      by_cases h : z = y
      · simp [h]
      · have : z.val ≠ y.val := fun e => h (Fin.ext e)
        simp [h, BitVec.getLsbD_one]
        omega
    by_cases hp : p y = true
    · rw [if_pos hp, BitVec.getLsbD_or, hb]
      by_cases h : z = y
      · subst h; simp [hp]
      · simp [h]
    · rw [if_neg hp]
      by_cases h : z = y
      · subst h; simp [hp]
      · simp [h]

/-- The zones of a set given by a test are those that pass it. -/
theorem inSet_zoneSetOf (p : Zone → Bool) (z : Zone) : inSet (zoneSetOf p) z = p z := by
  unfold inSet zoneSetOf
  rw [getLsbD_foldl_zones]
  simp [mem_allZones]

/-- The number of lines in a state, line A and line B counted apart (R173). -/
theorem lineCount_eq (st : LineState) (s : State) : lineCount st s =
    (allZones.filter fun z => s.work.spk[z].inUse && (s.lines[z].a.state == st)).length +
      (allZones.filter fun z =>
        s.work.spk[z].inUse && ((s.lines[z].b.map fun m => m.state) == some st)).length := by
  have one : ∀ z : Zone, linesIn st s z =
      (if (s.work.spk[z].inUse && (s.lines[z].a.state == st)) = true then 1 else 0) +
        if (s.work.spk[z].inUse && ((s.lines[z].b.map fun m => m.state) == some st)) = true then 1 else 0 := by
    intro z
    unfold linesIn zoneInUse spk
    cases hu : s.work.spk[z].inUse
    · simp
    · cases hb : s.lines[z].b with
      | none => simp
      | some m => simp
  unfold lineCount
  induction allZones with
  | nil => rfl
  | cons z l ih =>
    rw [List.map_cons, List.sum_cons, ih, one z, List.filter_cons, List.filter_cons]
    split <;> split <;> simp <;> omega

theorem lineCount_pos (st : LineState) (s : State) : 0 < lineCount st s ↔
    ∃ z : Zone, s.work.spk[z].inUse = true ∧
      (s.lines[z].a.state = st ∨ ∃ b, s.lines[z].b = some b ∧ b.state = st) := by
  rw [lineCount_eq]
  constructor
  · intro h
    rcases Nat.add_pos_iff_pos_or_pos.1 h with h | h
    · obtain ⟨z, hz⟩ := List.exists_mem_of_length_pos h
      have := (List.mem_filter.1 hz).2
      simp only [Bool.and_eq_true, beq_iff_eq] at this
      exact ⟨z, this.1, .inl this.2⟩
    · obtain ⟨z, hz⟩ := List.exists_mem_of_length_pos h
      have := (List.mem_filter.1 hz).2
      simp only [Bool.and_eq_true, beq_iff_eq, Option.map_eq_some_iff] at this
      exact ⟨z, this.1, .inr this.2⟩
  · rintro ⟨z, hu, h | ⟨b, hb, h⟩⟩
    · have : z ∈ allZones.filter fun z => s.work.spk[z].inUse && (s.lines[z].a.state == st) :=
        List.mem_filter.2 ⟨mem_allZones z, by rw [hu, h]; simp⟩
      have := List.length_pos_of_mem this
      omega
    · have : z ∈ allZones.filter fun z =>
          s.work.spk[z].inUse && ((s.lines[z].b.map fun m => m.state) == some st) :=
        List.mem_filter.2 ⟨mem_allZones z, by rw [hu, hb, Option.map_some, h]; simp⟩
      have := List.length_pos_of_mem this
      omega

/-- The conditions of the fault indicator (R172). -/
theorem faultIndicator_iff (s : State) : faultIndicator s = true ↔
    s.phase = .loading ∨ (s.phase = .running ∧
      ((∃ z : Zone, s.work.spk[z].inUse = true ∧
          ((s.lines[z].a.state = .opened ∨ s.lines[z].a.state = .short) ∨
            ∃ b, s.lines[z].b = some b ∧ (b.state = .opened ∨ b.state = .short))) ∨
        (∃ z : Zone, s.work.spk[z].inUse = true ∧ s.amps[z].failed = true) ∨
        (∃ k : Fin 2, s.standbyAmps[k].failed = true) ∨ (∃ z : Zone, s.lines[z].lost = true) ∨
        (∃ k : Fin 12, s.invalid[k] = true) ∨ s.phraseMissing = true ∨ s.rif.ring = .isolated)) := by
  have hl : (0 < lineCount .opened s ∨ 0 < lineCount .short s) ↔
      ∃ z : Zone, s.work.spk[z].inUse = true ∧
        ((s.lines[z].a.state = .opened ∨ s.lines[z].a.state = .short) ∨
          ∃ b, s.lines[z].b = some b ∧ (b.state = .opened ∨ b.state = .short)) := by
    rw [lineCount_pos, lineCount_pos]
    constructor
    · rintro (⟨z, hu, h | ⟨b, hb, h⟩⟩ | ⟨z, hu, h | ⟨b, hb, h⟩⟩)
      · exact ⟨z, hu, .inl (.inl h)⟩
      · exact ⟨z, hu, .inr ⟨b, hb, .inl h⟩⟩
      · exact ⟨z, hu, .inl (.inr h)⟩
      · exact ⟨z, hu, .inr ⟨b, hb, .inr h⟩⟩
    · rintro ⟨z, hu, (h | h) | ⟨b, hb, h | h⟩⟩
      · exact .inl ⟨z, hu, .inl h⟩
      · exact .inr ⟨z, hu, .inl h⟩
      · exact .inl ⟨z, hu, .inr ⟨b, hb, h⟩⟩
      · exact .inr ⟨z, hu, .inr ⟨b, hb, h⟩⟩
  have ha : allZones.any (fun z => zoneInUse s z && s.amps[z].failed) = true ↔
      ∃ z : Zone, s.work.spk[z].inUse = true ∧ s.amps[z].failed = true := by
    rw [List.any_eq_true]
    simp only [mem_allZones, true_and, Bool.and_eq_true, zoneInUse, spk]
  have hk : (s.standbyAmps[(0 : Fin 2)].failed = true ∨ s.standbyAmps[(1 : Fin 2)].failed = true) ↔
      ∃ k : Fin 2, s.standbyAmps[k].failed = true := by
    rw [Fin.exists_fin_two]
  have ho : allZones.any (fun z => s.lines[z].lost) = true ↔ ∃ z : Zone, s.lines[z].lost = true := by
    rw [List.any_eq_true]
    simp only [mem_allZones, true_and]
  have hi : s.invalid.toList.any id = true ↔ ∃ k : Fin 12, s.invalid[k] = true := by
    rw [List.any_eq_true]
    simp only [id, exists_eq_right, Vector.mem_toList_iff, Vector.mem_iff_getElem]
    exact ⟨fun ⟨k, hk, h⟩ => ⟨⟨k, hk⟩, h⟩, fun ⟨k, h⟩ => ⟨k.val, k.isLt, h⟩⟩
  unfold faultIndicator
  cases hp : s.phase with
  | off => simp
  | loading => simp
  | running =>
    rw [← hl, ← hk]
    simp only [Bool.or_eq_true, decide_eq_true_eq, ha, ho, hi, beq_iff_eq, true_and, reduceCtorEq,
      false_or, or_assoc]

/-! ## The standby standing of a zone -/

/-- With one feed a zone, a zone is fed by the standby channel that serves it (R166). -/
theorem feedOf_some {s : State} (h : OneFeed s) (z : Zone) (k : Fin 2) :
    feedOf s z = some k ↔ s.serving[k] = some z := by
  unfold feedOf
  have h01 := h.1 z
  by_cases h0 : s.serving[(0 : Fin 2)] = some z
  · rw [if_pos h0]
    match k with
    | 0 => simp only [h0]
    | 1 => simp only [h01 h0, Option.some.injEq, iff_false]; decide
  · rw [if_neg h0]
    match k with
    | 0 => simp only [h0, iff_false]; split <;> decide
    | 1 =>
      by_cases h1 : s.serving[(1 : Fin 2)] = some z
      · simp only [h1, if_true]
      · simp only [h1, if_false, reduceCtorEq]

theorem feedOf_none {s : State} {z : Zone} (h : ∀ k : Fin 2, s.serving[k] ≠ some z) : feedOf s z = none := by
  unfold feedOf
  rw [if_neg (h 0), if_neg (h 1)]

theorem standingOf_served (s : State) (z : Zone) (k : Fin 2) :
    standingOf s z = .served k ↔ feedOf s z = some k := by
  unfold standingOf
  split
  next j hj => simp [hj]
  next hj => rw [hj]; split <;> simp

theorem standingOf_notServed {s : State} {z : Zone} (h : ∀ k : Fin 2, s.serving[k] ≠ some z) :
    standingOf s z = if s.work.spk[z].inUse = true ∧ s.amps[z].failed = true ∧
      s.work.spk[z].eligible = true ∧ s.lists[z] ≠ [] then .waiting else .notFailed := by
  unfold standingOf
  rw [feedOf_none h]
  have hf : failedZone s z = true ↔ s.work.spk[z].inUse = true ∧ s.amps[z].failed = true ∧
      s.work.spk[z].eligible = true ∧ s.lists[z] ≠ [] := by
    unfold failedZone zoneInUse spk
    simp only [Bool.and_eq_true, Bool.not_eq_true', List.isEmpty_eq_false_iff, and_assoc]
  simp only [hf]

/-- What the fault summary says of the standby channels (R173). -/
theorem summary_standby (s : State) (k : Fin 2) : (faultSummary s).standby[k] = poolState s k := by
  match k with
  | 0 => rfl
  | 1 => rfl

/-! ## The reads -/

theorem statusRead_answers {s : State} {q : Request} (h : Admitted s q .statusRead
    (partsOf (.status (statusRecord s)))) : exec (.statusRead q) s = .next
      { repliedWith s q .statusRead .done (.status (statusRecord s)) with reportOverflow := false } :=
  (commandWith_acts (extra := noExtra) (own := statusNeed)
    (u := { reply ⟨q, .statusRead⟩ .done (.status (statusRecord s)) (inHand (statusNeed s) s) with
      reportOverflow := false })
    ((Nat.zero_add (statusNeed s)).symm ▸ h) rfl).trans rfl

theorem zoneData_zone (s : State) (z : Zone) : zoneData s z.val = some (.zone (zoneReading s z)) :=
  dif_pos z.isLt

theorem zoneReading_inUse {s : State} {z : Zone} (hu : s.work.spk[z].inUse = true) :
    zoneReading s z = zoneReadingOf s z := if_pos hu

theorem zoneReading_unused {s : State} {z : Zone} (hu : s.work.spk[z].inUse = false) :
    zoneReading s z = unusedReading s.work.spk[z].lineCfg :=
  if_neg (by unfold zoneInUse spk; rw [hu]; decide)

theorem invalid_getD (s : State) (k : Fin 12) : (s.invalid[k.val]?).getD false = s.invalid[k] := by
  rw [vector_getElem?_fin]
  rfl

/-- Settles O59: the record as it stands, in one part or in its shares. -/
theorem readsAnswer : Obligations.ReadsAnswer := by
  refine ⟨?parts, ?summary, ?status, ?zone, ?unused, ?zoneBeyond, ?table, ?tableBeyond⟩
  case parts =>
    intro q c r d hd bytes parts share
    refine ⟨replyMsgs_whole q r hd, fun hl => ⟨replyMsgs_shares q r hd hl, ?_⟩⟩
    rw [flatMap_shares]
    exact List.take_of_length_le (by show bytes.length ≤ 28 * ((bytes.length + 27) / 28); omega)
  case summary =>
    intro s f count faulty
    refine ⟨lineCount_eq _ s, lineCount_eq _ s, fun z => ⟨?_, ?_⟩, fun k => ⟨fun hf => ?_, fun hf hs => ?_,
      fun z hf hs => ?_⟩, rfl, beq_iff_eq, rfl, faultIndicator_iff s, fun z => ⟨fun h k => ?_,
      standingOf_notServed⟩⟩
    · show inSet (zoneSetOf _) z = true ↔ _
      rw [inSet_zoneSetOf, Bool.and_eq_true]
      rfl
    · show inSet (zoneSetOf _) z = true ↔ _
      rw [inSet_zoneSetOf]
    · rw [summary_standby, poolState, if_pos hf]
    · rw [summary_standby, poolState, if_neg (by rw [hf]; decide), hs]
    · rw [summary_standby, poolState, if_neg (by rw [hf]; decide), hs]
    · exact (standingOf_served s z k).trans (feedOf_some h z k)
  case status =>
    intro s q r hr h
    rw [hr] at h ⊢
    exact statusRead_answers h
  case zone =>
    intro s q z hu o l d h
    exact read_answers (data := fun s => zoneData s z.val) rfl
      (by rw [zoneData_zone, zoneReading_inUse hu]; rfl) h
  case unused =>
    intro s q z hu d h
    refine read_answers (data := fun s => zoneData s z.val) rfl ?_ h
    rw [zoneData_zone, zoneReading_unused hu]
    show some (ReplyData.zone (unusedReading s.work.spk[z].lineCfg)) = some d
    unfold unusedReading unusedLineB
    cases hc : s.work.spk[z].lineCfg <;> simp only [d, hc] <;> rfl
  case zoneBeyond =>
    intro s q z hz h
    exact read_refused (data := fun s => zoneData s z) rfl (dif_neg (by omega)) h
  case table =>
    rintro s q _ i k c rfl hc d h
    refine read_answers (data := fun s => tableData s k.val i) rfl ?_ h
    unfold tableData
    rw [hc, invalid_getD]
    rfl
  case tableBeyond =>
    intro s q table i hc h
    exact read_refused (data := fun s => tableData s table i) rfl (by unfold tableData; rw [hc]; rfl) h

end Sys2Proof.Machine

namespace Sys2Proof.Machine

/-! ## The commit (O57) -/

theorem updNat_const {α : Type} {n : Nat} (v : Vector α n) (i : Nat) (x : α) :
    updNat v i (fun _ => x) = v.setIfInBounds i x := by
  unfold updNat
  split
  next h => exact Vector.ext fun j hj => by simp [Vector.getElem_set, Vector.getElem_setIfInBounds]
  next h =>
    refine Vector.ext fun j hj => ?_
    rw [Vector.getElem_setIfInBounds, if_neg (by omega)]

/-- A table is due where its contents differ or its check fails (R202). -/
theorem mustWrite_iff (s : State) (k : Nat) :
    mustWrite s k = true ↔ tableEq k s.work s.nv = false ∨ s.nvOk[k]? = some false := by
  unfold mustWrite
  rw [Bool.or_eq_true, Bool.not_eq_true']
  refine or_congr_right ?_
  cases s.nvOk[k]? with
  | none => simp
  | some b => simp

theorem nextTable_some {s : State} {start k : Nat} (hs : start ≤ k) (hk : k < 12) (hm : mustWrite s k = true)
    (hb : ∀ j, start ≤ j → j < k → mustWrite s j = false) : nextTable s start = some k := by
  unfold nextTable
  rw [List.find?_range_eq_some]
  refine ⟨by rw [hm]; simpa using hs, List.mem_range.2 hk, fun j hj => ?_⟩
  by_cases h : start ≤ j
  · rw [hb j h hj, Bool.and_false]; rfl
  · simp [h]

theorem nextTable_none {s : State} {start : Nat} (h : ∀ k, start ≤ k → k < 12 → mustWrite s k = false) :
    nextTable s start = none := by
  unfold nextTable
  rw [List.find?_range_eq_none]
  intro k hk
  by_cases hs : start ≤ k
  · rw [h k hs hk, Bool.and_false]; rfl
  · simp [hs]

/-- What a COMMIT in hand does: it is refused, writes nothing, or begins its first table (R202). -/
theorem exec_commit {s : State} {q : Request} {r : Result} {d : ReplyData} (h : Admitted s q .commit 1)
    (hu : (if (inHand 1 s).commit.isSome then reply ⟨q, .commit⟩ .busy .none (inHand 1 s)
      else match nextTable (inHand 1 s) 0 with
        | none => reply ⟨q, .commit⟩ .done (.written 0) (inHand 1 s)
        | some k => beginTable q k 0 (inHand 1 s)) = reply ⟨q, .commit⟩ r d (inHand 1 s)) :
    exec (.commit q) s = .next (repliedWith s q .commit r d) :=
  (commandWith_leaves (extra := noExtra) (own := oneReply) h hu).trans rfl

/-- The end of a step, the first table due after it begun or the commit ended. -/
theorem exec_commitStepEnd {s : State} {c : Commit} (hr : s.phase = .running) (hc : s.commit = some c)
    (hd : c.deadline ≤ s.now) : exec .commitStepEnd s = .next (commitGoesOn c (tableWritten c s)) := by
  have hdue : commitDue s = true := by
    unfold commitDue
    rw [hc]
    exact decide_eq_true hd
  refine whenever_leaves (o := execCommitStepEnd s) rfl (by rw [State.running, hr, hdue]; rfl) ?_
  rw [hc]

theorem tableWritten_eq (c : Commit) (s : State) : tableWritten c s = { s with
    nv := copyTable c.table c.image s.nv
    nvOk := s.nvOk.setIfInBounds c.table true
    invalid := s.invalid.setIfInBounds c.table false } := by
  unfold tableWritten
  rw [updNat_const, updNat_const]

theorem beginTable_eq (q : Request) (k n : Nat) (s : State) : beginTable q k n s = { s with
    nvOk := s.nvOk.setIfInBounds k false
    commit := some { requester := q, table := k, deadline := s.now + 100, image := s.work
                     written := n } } := by
  unfold beginTable
  rw [updNat_const]
  rfl

/-- Settles O57: the tables due are those of the search, which takes them in identifier order. -/
theorem commitWritesTables : Obligations.CommitWritesTables := by
  unfold Obligations.CommitWritesTables
  intro due
  have hdue : ∀ s k, ¬due s k → mustWrite s k = false := fun s k h => by
    rw [Bool.eq_false_iff]
    exact fun hm => h ((mustWrite_iff s k).1 hm)
  constructor
  · intro s q h
    refine ⟨fun hc => exec_commit h ?_, fun hc hn => exec_commit h ?_, fun k hc hk hm hb => ?_⟩
    · exact if_pos (Option.isSome_iff_ne_none.2 hc)
    · have hno : nextTable (inHand 1 s) 0 = none := nextTable_none (s := s) fun k _ hk => hdue s k (hn k hk)
      rw [show (inHand 1 s).commit = none from hc, hno]
      rfl
    · have hsome : nextTable (inHand 1 s) 0 = some k :=
        nextTable_some (s := s) (Nat.zero_le k) hk ((mustWrite_iff s k).2 hm) fun j _ hj => hdue s j (hb j hj)
      refine (commandWith_acts (extra := noExtra) (own := oneReply) (u := beginTable q k 0 (inHand 1 s)) h ?_).trans ?_
      · dsimp only [oneReply]
        rw [show (inHand 1 s).commit = none from hc, hsome]
        rfl
      · rw [beginTable_eq]
        rfl
  · intro s c hr hc hk hd s1
    refine ⟨tableEq_copy _ _ _, fun k hlt hk' hm hb => ?_, fun hn => ?_⟩
    · have hsome : nextTable s1 (c.table + 1) = some k :=
        nextTable_some hlt hk' ((mustWrite_iff s1 k).2 hm) fun j hj hjk => hdue s1 j (hb j hj hjk)
      rw [exec_commitStepEnd hr hc hd, tableWritten_eq]
      unfold commitGoesOn
      rw [hsome]
      exact congrArg Host.Outcome.next (beginTable_eq c.requester k (c.written + 1) s1)
    · intro m
      have hno : nextTable s1 (c.table + 1) = none := nextTable_none fun k hk hk' => hdue s1 k (hn k hk hk')
      have he : exec .commitStepEnd s = .next (placeOrDefer m { s1 with commit := none }) := by
        rw [exec_commitStepEnd hr hc hd, tableWritten_eq]
        unfold commitGoesOn
        rw [hno]
      refine ⟨fun hd hr => ?_, fun h => ?_⟩
      · rw [he, placeOrDefer_placed (s := { s1 with commit := none }) hd hr]
      · rw [he, placeOrDefer_held (s := { s1 with commit := none }) h]
end Sys2Proof.Machine

namespace Sys2Proof.Machine

/-! ## Starting and stopping channels (O47) -/

/-- A step that begins changes its channel, and PHRASE MISSING with its report for a phrase that is not usable
(R129, R130). -/
theorem beginStep_isBegun (n : Fin 4) (k : Nat) (s : State) :
    Begun s n k s.chans[n].owed (beginStep n k s) := by
  refine ⟨(beginStep n k s).chans[n], beginStep_begun n k s, ?_, ?_⟩
  · have hset : ∀ f : ChanRun → ChanRun, beginStep n k s = setChan n f s →
        beginStep n k s = { s with chans := s.chans.set n (beginStep n k s).chans[n] } := by
      intro f h
      rw [h, setChan_self']
      rfl
    rintro (⟨ms, hm⟩ | ⟨w, p, hw, hp, hv, hl⟩)
    · refine hset (silentStep (samplePhase s) k .gap ms) ?_
      unfold beginStep
      rw [hm]
      rfl
    · refine hset (phraseStep k p) ?_
      unfold beginStep
      rw [hw]
      dsimp only
      rw [hp]
      dsimp only
      rw [if_pos (by simp [hv, hl])]
      rfl
  · intro w p hw hp hno
    have hb : beginStep n k s = beginMissing n k w s := by
      unfold beginStep
      rw [hw]
      dsimp only
      rw [hp]
      dsimp only
      rw [if_neg (by rcases hno with h | h <;> simp [h])]
    have hc : (beginMissing n k w s).chans[n] = silentStep (samplePhase s) k .missing Config.missingMs s.chans[n] := by
      unfold beginMissing
      rw [report_chans]
      exact upd_self _ _ _
    rw [hb, hc]
    rfl

theorem set_set_self {α : Type} {n : Nat} (v : Vector α n) (i : Fin n) (x y : α) :
    (v.set i x).set i y = v.set i y := by simp

/-- The start of a channel is the beginning of its step 0 without sample times owed (log entry 19). -/
theorem startChan_isBegun (n : Fin 4) (s : State) : Begun s n 0 0 (startChan n s) := by
  obtain ⟨c, hc, h1, h2⟩ := beginStep_isBegun n 0 (setChan n (fun c => { c with owed := 0 }) s)
  have ho : (setChan n (fun c : ChanRun => { c with owed := 0 }) s).chans[n] =
      { s.chans[n] with owed := 0 } := setChan_self' _ _ _
  have hset : (setChan n (fun c : ChanRun => { c with owed := 0 }) s).chans.set n c = s.chans.set n c :=
    set_set_self _ _ _ _
  refine ⟨c, ?_, fun h => (h1 h).trans ?_, fun w p hw hp hno => (h2 w p hw hp hno).trans ?_⟩
  · unfold ChanBegun at hc ⊢
    rw [ho] at hc
    exact hc
  · rw [hset]
    rfl
  · rw [hset]
    rfl

theorem report_giveBack (b : ReportBody) (s : State) (n : Nat) :
    { report b s with reserved := n } = report b { s with reserved := n } := by
  unfold report
  dsimp only
  split <;> rfl

/-- A step that has begun is as well begun when the room held for a reply is given back. -/
theorem Begun.settled {s u : State} {n : Fin 4} {k owed : Nat} (h : Begun s n k owed u) (r : Nat) :
    Begun { s with reserved := r } n k owed { u with reserved := r } := by
  obtain ⟨c, hc, h1, h2⟩ := h
  refine ⟨c, hc, fun h => ?_, fun w p hw hp hno => ?_⟩
  · rw [h1 h]
  · rw [h2 w p hw hp hno, report_giveBack]

theorem stopChan_eq (n : Fin 4) (st : ChanState) (s : State) : stopChan n st s = stopped s n st := rfl

/-! ### What the play commands and the write of a program do, by the program's mode -/

section
variable {s : State} {n : Fin 4}

theorem playStart_stays (h : s.work.progs[n].inUse = false ∨ s.work.progs[n].mode = .named .demand ∨
    (s.work.progs[n].mode = .named .repeat ∧ s.chans[n].state ≠ .idle) ∨
    (s.work.progs[n].mode = .named .once ∧ s.chans[n].state ≠ .idle ∧ s.chans[n].state ≠ .ended)) :
    playStart n s = s := by
  unfold playStart
  dsimp only
  split
  · rfl
  · obtain h | h | ⟨hm, h⟩ | ⟨hm, h1, h2⟩ := h
    · simp_all
    · rw [h]
    · rw [hm]
      exact if_neg h
    · rw [hm]
      exact if_neg (not_or.2 ⟨h1, h2⟩)

theorem playStart_starts (hu : s.work.progs[n].inUse = true)
    (h : (s.work.progs[n].mode = .named .repeat ∧ s.chans[n].state = .idle) ∨
      (s.work.progs[n].mode = .named .once ∧ (s.chans[n].state = .idle ∨ s.chans[n].state = .ended))) :
    playStart n s = startChan n s := by
  unfold playStart
  dsimp only
  rw [if_neg (by rw [hu]; decide)]
  obtain ⟨hm, h⟩ | ⟨hm, h⟩ := h
  · rw [hm]
    exact if_pos h
  · rw [hm]
    exact if_pos h

theorem playStop_stays (h : s.work.progs[n].inUse = false ∨ s.work.progs[n].mode = .named .demand ∨
    (s.work.progs[n].mode = .named .repeat ∧ s.chans[n].state ≠ .running) ∨
    (s.work.progs[n].mode = .named .once ∧ s.chans[n].state ≠ .running ∧ s.chans[n].state ≠ .ended)) :
    playStop n s = s := by
  unfold playStop
  dsimp only
  split
  · rfl
  · obtain h | h | ⟨hm, h⟩ | ⟨hm, h1, h2⟩ := h
    · simp_all
    · rw [h]
    · rw [hm]
      exact if_neg h
    · rw [hm]
      exact if_neg (not_or.2 ⟨h1, h2⟩)

theorem playStop_stops (hu : s.work.progs[n].inUse = true)
    (h : (s.work.progs[n].mode = .named .repeat ∧ s.chans[n].state = .running) ∨
      (s.work.progs[n].mode = .named .once ∧ (s.chans[n].state = .running ∨ s.chans[n].state = .ended))) :
    playStop n s = stopped s n .idle := by
  unfold playStop
  dsimp only
  rw [if_neg (by rw [hu]; decide)]
  obtain ⟨hm, h⟩ | ⟨hm, h⟩ := h
  · rw [hm]
    exact if_pos h
  · rw [hm]
    exact if_pos h

theorem progWritten_starts {e : Program} (hu : e.inUse = true)
    (h : (e.mode = .named .demand ∧ 0 < s.chans[n].listeners) ∨
      (e.mode = .named .repeat ∧ s.chans[n].state = .running) ∨
      (e.mode = .named .once ∧ s.chans[n].state = .running)) : progWritten n e s = startChan n s := by
  unfold progWritten
  dsimp only
  rw [if_neg (by rw [hu]; decide)]
  obtain ⟨hm, h⟩ | ⟨hm, h⟩ | ⟨hm, h⟩ := h
  all_goals
    rw [hm]
    exact if_pos h

theorem progWritten_ended {e : Program} (hu : e.inUse = true) (hm : e.mode = .named .once)
    (h : s.chans[n].state = .ended) : progWritten n e s = stopped s n .ended := by
  unfold progWritten
  dsimp only
  rw [if_neg (by rw [hu]; decide), hm, h]
  rfl

theorem progWritten_idle {e : Program} (h : e.inUse = false ∨
    (e.mode = .named .demand ∧ s.chans[n].listeners = 0) ∨
    (e.mode = .named .repeat ∧ s.chans[n].state ≠ .running) ∨
    (e.mode = .named .once ∧ s.chans[n].state ≠ .running ∧ s.chans[n].state ≠ .ended)) :
    progWritten n e s = stopped s n .idle := by
  unfold progWritten
  dsimp only
  split
  · rfl
  · obtain h | ⟨hm, h⟩ | ⟨hm, h⟩ | ⟨hm, h1, h2⟩ := h
    · simp_all
    · rw [hm]
      exact if_neg (by omega)
    · rw [hm]
      exact if_neg h
    · rw [hm]
      exact (if_neg h1).trans (if_neg h2)

end

/-- An admitted PLAY START of a channel below 4 leaves what its mode makes of the state in hand. -/
theorem exec_playStart {s v : State} {q : Request} {n : Fin 4} (h : Admitted s q (.playStart n.val) 1)
    (hv : playStart n (inHand 1 s) = v) : exec (.playStart q n.val) s =
      .next { v with reserved := 0, outbound := v.outbound ++ [replyMsg q .playStart .done .none] } := by
  show execPlayStart q n.val s = _
  unfold execPlayStart command
  refine (commandWith_leaves (extra := noExtra) (own := oneReply) (v := v) (r := .done) (d := .none) h ?_).trans rfl
  exact (dif_pos n.isLt).trans (congrArg (replyDone ⟨q, .playStart n.val⟩) hv)

theorem exec_playStop {s v : State} {q : Request} {n : Fin 4} (h : Admitted s q (.playStop n.val) 1)
    (hv : playStop n (inHand 1 s) = v) : exec (.playStop q n.val) s =
      .next { v with reserved := 0, outbound := v.outbound ++ [replyMsg q .playStop .done .none] } := by
  show execPlayStop q n.val s = _
  unfold execPlayStop command
  refine (commandWith_leaves (extra := noExtra) (own := oneReply) (v := v) (r := .done) (d := .none) h ?_).trans rfl
  exact (dif_pos n.isLt).trans (congrArg (replyDone ⟨q, .playStop n.val⟩) hv)

/-- A written program's effects on its channel, with its own command's room given back. -/
theorem progWrite_leaves {s u : State} {q : Request} {n : Fin 4} {e e' : Program}
    (h : WriteTaken s q 9 n.val (.program e) (.program e'))
    (hu : { progWritten n e' (inWriting n.val (.program e') s) with reserved := 0 } = u) :
    writeLeaves s q 9 n.val (.program e) u := by
  refine h.leaves ?_
  unfold writeEffects
  dsimp only
  rw [atIndex_fin]
  exact hu

/-- Settles O47: each command by the mode of the channel's program. -/
theorem playCommands : Obligations.PlayCommands := by
  refine ⟨fun s q ch hc => ⟨fun h => ?_, fun h => ?_⟩, fun s q n => ⟨fun h => ⟨fun hs => ?_, fun hu hs => ?_⟩,
    fun h => ⟨fun hs => ?_, fun hu hs => ?_⟩⟩, fun s q n e e' h => ⟨fun hu hs => ?_, fun hu hm hs => ?_, fun hs => ?_⟩⟩
  · exact (commandWith_leaves (extra := noExtra) (own := oneReply) (v := inHand 1 s) h
      (dif_neg (by omega))).trans rfl
  · exact (commandWith_leaves (extra := noExtra) (own := oneReply) (v := inHand 1 s) h
      (dif_neg (by omega))).trans rfl
  · exact (exec_playStart h (playStart_stays (s := inHand 1 s) hs)).trans rfl
  · exact ⟨{ startChan n (inHand 1 s) with reserved := 0 },
      (exec_playStart h (playStart_starts (s := inHand 1 s) hu hs)).trans rfl,
      (startChan_isBegun n (inHand 1 s)).settled 0⟩
  · exact (exec_playStop h (playStop_stays (s := inHand 1 s) hs)).trans rfl
  · exact (exec_playStop h (playStop_stops (s := inHand 1 s) hu hs)).trans rfl
  · exact ⟨{ startChan n (inWriting n.val (.program e') s) with reserved := 0 },
      progWrite_leaves h (congrArg (fun v : State => { v with reserved := 0 })
        (progWritten_starts (s := inWriting n.val (.program e') s) hu hs)),
      (startChan_isBegun n (inWriting n.val (.program e') s)).settled 0⟩
  · exact progWrite_leaves h (congrArg (fun v : State => { v with reserved := 0 })
        (progWritten_ended (s := inWriting n.val (.program e') s) hu hm hs))
  · exact progWrite_leaves h (congrArg (fun v : State => { v with reserved := 0 })
        (progWritten_idle (s := inWriting n.val (.program e') s) hs))

end Sys2Proof.Machine

namespace Sys2Proof.Machine

/-! ## The standby arbiter (R166–R169) -/

section
variable {s t : State}

/-- What failed zones and their ranks are read from. -/
structure SameFaults (s t : State) : Prop where
  lists : t.lists = s.lists
  work  : t.work.spk = s.work.spk
  amps  : t.amps = s.amps
  pool  : t.standbyAmps = s.standbyAmps

theorem SameFaults.refl (s : State) : SameFaults s s := ⟨rfl, rfl, rfl, rfl⟩

theorem SameFaults.trans {u : State} (h : SameFaults s t) (g : SameFaults t u) : SameFaults s u :=
  ⟨g.lists.trans h.lists, g.work.trans h.work, g.amps.trans h.amps, g.pool.trans h.pool⟩

theorem SameFaults.failedZone (h : SameFaults s t) (z : Zone) : failedZone t z = failedZone s z := by
  unfold Machine.failedZone zoneInUse spk
  rw [h.lists, h.work, h.amps]

theorem SameFaults.rankOf (h : SameFaults s t) (z : Zone) : rankOf t z = rankOf s z := by
  unfold Machine.rankOf
  rw [h.lists]

theorem PoolOnly.faults (h : PoolOnly s t) : SameFaults s t := by
  constructor
  all_goals rw [h]

end

/-! ### The pool, channel by channel -/

theorem poolState_serving (s : State) (k : Fin 2) (z : Zone) :
    poolState s k = .serving z ↔ s.standbyAmps[k].failed = false ∧ s.serving[k] = some z := by
  unfold poolState
  split
  next h => simp [h, -Fin.getElem_fin]
  next h =>
    split
    next y hy => simp [h, hy, -Fin.getElem_fin]
    next hn => simp [hn, -Fin.getElem_fin]

theorem poolState_free (s : State) (k : Fin 2) :
    poolState s k = .free ↔ s.standbyAmps[k].failed = false ∧ s.serving[k] = none := by
  unfold poolState
  split
  next h => simp [h, -Fin.getElem_fin]
  next h =>
    split
    next y hy => simp [h, hy, -Fin.getElem_fin]
    next hn => simp [h, hn, -Fin.getElem_fin]

theorem fin_two_cases (k j : Fin 2) (h : j ≠ k) (i : Fin 2) : i = k ∨ i = j := by omega

/-- No two channels serve one zone, and a serving channel is not FAILED and serves a failed zone (R166). -/
structure Feeds (s : State) : Prop where
  one    : ∀ (j k : Fin 2) (z : Zone), s.serving[j] = some z → s.serving[k] = some z → j = k
  serves : ∀ (k : Fin 2) (z : Zone), s.serving[k] = some z →
    s.standbyAmps[k].failed = false ∧ failedZone s z = true

/-- A failed zone that no channel serves. -/
def Waits (s : State) (z : Zone) : Prop := failedZone s z = true ∧ ∀ k : Fin 2, s.serving[k] ≠ some z

/-- No channel is FREE. -/
def NoFree (s : State) : Prop := ∀ k : Fin 2, s.serving[k] = none → s.standbyAmps[k].failed = true

/-- No waiting zone outranks the one that a channel serves. -/
def Top (s : State) (k : Fin 2) : Prop :=
  ∀ y, s.serving[k] = some y → ∀ z, Waits s z → rankOf s z ≤ rankOf s y

theorem poolSettled_of {s : State} (hf : Feeds s) (h : (∀ z, ¬Waits s z) ∨ (NoFree s ∧ ∀ k, Top s k)) :
    PoolSettled s := by
  refine ⟨hf.serves, fun z hz hk => ?_⟩
  rcases h with h | ⟨hn, ht⟩
  · exact absurd ⟨hz, hk⟩ (h z)
  · exact fun k => ⟨hn k, fun y hy => ht k y hy z ⟨hz, hk⟩⟩

theorem waitingZone_iff (s : State) (z : Zone) : waitingZone s z = true ↔ Waits s z := by
  unfold waitingZone Waits feedOf
  rw [Bool.and_eq_true]
  refine and_congr_right fun _ => ?_
  constructor
  · intro h k
    split at h
    · cases h
    next h0 =>
      split at h
      · cases h
      next h1 =>
        match k with
        | 0 => exact h0
        | 1 => exact h1
  · intro h
    rw [if_neg (h 0), if_neg (h 1)]
    rfl

/-- The waiting zones of a list, the highest of them chosen. -/
theorem bestWaiting_foldl (s : State) (l : List Zone) (b : Option Zone) :
    let r := l.foldl (fun best z =>
      if waitingZone s z then
        match best with
        | none => some z
        | some b => if rankOf s b < rankOf s z then some z else best
      else best) b
    (r = none → b = none ∧ ∀ z ∈ l, ¬Waits s z) ∧
    ∀ w, r = some w → (b = some w ∨ Waits s w) ∧ (∀ y, b = some y → rankOf s y ≤ rankOf s w) ∧
      ∀ z ∈ l, Waits s z → rankOf s z ≤ rankOf s w := by
  induction l generalizing b with
  | nil =>
    refine ⟨fun h => ⟨h, fun z hz => absurd hz List.not_mem_nil⟩, fun w hw => ⟨.inl hw, fun y hy => ?_,
      fun z hz => absurd hz List.not_mem_nil⟩⟩
    rw [Option.some.inj (hy.symm.trans hw)]
  | cons x l ih =>
    rw [List.foldl_cons]
    by_cases hx : Waits s x
    · rw [if_pos ((waitingZone_iff s x).2 hx)]
      cases b with
      | none =>
        obtain ⟨h1, h2⟩ := ih (some x)
        refine ⟨fun h => absurd (h1 h).1 (by simp), fun w hw => ?_⟩
        obtain ⟨ha, hb, hc⟩ := h2 w hw
        refine ⟨.inr ?_, nofun, fun z hz hw => ?_⟩
        · rcases ha with ha | ha
          · exact Option.some.inj ha ▸ hx
          · exact ha
        · rcases List.mem_cons.1 hz with rfl | hz
          · exact hb z rfl
          · exact hc z hz hw
      | some b =>
        dsimp only
        split
        next hlt =>
          obtain ⟨h1, h2⟩ := ih (some x)
          refine ⟨fun h => absurd (h1 h).1 (by simp), fun w hw => ?_⟩
          obtain ⟨ha, hb, hc⟩ := h2 w hw
          have hbx := hb x rfl
          refine ⟨.inr ?_, fun y hy => ?_, fun z hz hw => ?_⟩
          · rcases ha with ha | ha
            · exact Option.some.inj ha ▸ hx
            · exact ha
          · cases hy
            omega
          · rcases List.mem_cons.1 hz with rfl | hz
            · exact hbx
            · exact hc z hz hw
        next hle =>
          obtain ⟨h1, h2⟩ := ih (some b)
          refine ⟨fun h => absurd (h1 h).1 (by simp), fun w hw => ?_⟩
          obtain ⟨ha, hb, hc⟩ := h2 w hw
          have hbb := hb b rfl
          refine ⟨ha, hb, fun z hz hw => ?_⟩
          rcases List.mem_cons.1 hz with rfl | hz
          · omega
          · exact hc z hz hw
    · rw [if_neg (fun h => hx ((waitingZone_iff s x).1 h))]
      obtain ⟨h1, h2⟩ := ih b
      refine ⟨fun h => ⟨(h1 h).1, fun z hz => ?_⟩, fun w hw => ?_⟩
      · rcases List.mem_cons.1 hz with rfl | hz
        · exact hx
        · exact (h1 h).2 z hz
      · obtain ⟨ha, hb, hc⟩ := h2 w hw
        refine ⟨ha, hb, fun z hz hw => ?_⟩
        rcases List.mem_cons.1 hz with rfl | hz
        · exact absurd hw hx
        · exact hc z hz hw

theorem bestWaiting_none {s : State} (h : bestWaiting s = none) (z : Zone) : ¬Waits s z :=
  ((bestWaiting_foldl s allZones none).1 h).2 z (mem_allZones z)

theorem bestWaiting_some {s : State} {w : Zone} (h : bestWaiting s = some w) :
    Waits s w ∧ ∀ z, Waits s z → rankOf s z ≤ rankOf s w := by
  obtain ⟨ha, -, hc⟩ := (bestWaiting_foldl s allZones none).2 w h
  exact ⟨ha.resolve_left nofun, fun z => hc z (mem_allZones z)⟩

theorem freeChannel_none {s : State} (h : freeChannel s = none) : NoFree s := by
  unfold freeChannel at h
  split at h
  · cases h
  next h0 =>
    split at h
    · cases h
    next h1 =>
      intro k hk
      by_contra hf
      have hfree : poolState s k = .free := (poolState_free s k).2 ⟨by simpa using hf, hk⟩
      match k with
      | 0 => exact h0 hfree
      | 1 => exact h1 hfree

theorem freeChannel_some {s : State} {k : Fin 2} (h : freeChannel s = some k) :
    s.standbyAmps[k].failed = false ∧ s.serving[k] = none := by
  unfold freeChannel at h
  rw [← poolState_free]
  split at h
  next h0 => cases h; exact h0
  next =>
    split at h
    next h1 => cases h; exact h1
    next => cases h

/-- The channel to be preempted serves the zone of the lowest rank. -/
theorem preemptable_some {s : State} {k : Fin 2} {y : Zone} (h : preemptable s = some (k, y)) :
    s.standbyAmps[k].failed = false ∧ s.serving[k] = some y ∧
      ∀ (j : Fin 2) x, s.standbyAmps[j].failed = false → s.serving[j] = some x → rankOf s y ≤ rankOf s x := by
  unfold preemptable at h
  have key : ∀ (j : Fin 2) x, s.standbyAmps[j].failed = false → s.serving[j] = some x → poolState s j = .serving x :=
    fun j x ha hb => (poolState_serving s j x).2 ⟨ha, hb⟩
  split at h
  next a b h0 h1 =>
    have hall : ∀ j x, poolState s j = .serving x → x = a ∨ x = b := by
      intro j x hx
      match j with
      | 0 => exact .inl (by rw [h0] at hx; cases hx; rfl)
      | 1 => exact .inr (by rw [h1] at hx; cases hx; rfl)
    split at h
    next hc =>
      cases h
      obtain ⟨hf, hs⟩ := (poolState_serving s 0 y).1 h0
      refine ⟨hf, hs, fun j x ha hb => ?_⟩
      rcases hall j x (key j x ha hb) with rfl | rfl
      · exact Nat.le_refl _
      · omega
    next hc =>
      cases h
      obtain ⟨hf, hs⟩ := (poolState_serving s 1 y).1 h1
      refine ⟨hf, hs, fun j x ha hb => ?_⟩
      rcases hall j x (key j x ha hb) with rfl | rfl
      · omega
      · exact Nat.le_refl _
  next a h0 h1 =>
    cases h
    obtain ⟨hf, hs⟩ := (poolState_serving s 0 y).1 h0
    refine ⟨hf, hs, fun j x ha hb => ?_⟩
    match j with
    | 0 => rw [Option.some.inj (hb.symm.trans hs)]
    | 1 => exact absurd (key 1 x ha hb) (h1 x)
  next b h1 h0 =>
    cases h
    obtain ⟨hf, hs⟩ := (poolState_serving s 1 y).1 h1
    refine ⟨hf, hs, fun j x ha hb => ?_⟩
    match j with
    | 0 => exact absurd (key 0 x ha hb) (h0 x)
    | 1 => rw [Option.some.inj (hb.symm.trans hs)]
  next => cases h

theorem preemptable_none {s : State} (h : preemptable s = none) (k : Fin 2) (y : Zone) :
    ¬(s.standbyAmps[k].failed = false ∧ s.serving[k] = some y) := by
  intro hk
  have hp := (poolState_serving s k y).2 hk
  unfold preemptable at h
  split at h
  · split at h <;> cases h
  · cases h
  · cases h
  next h0 h1 _ =>
    match k with
    | 0 => exact h0 y hp
    | 1 => exact h1 y hp

/-! ### One change of the pool -/

/-- A channel given to a zone, or taken from one, with its report. -/
def handed (b : ReportBody) (k : Fin 2) (o : Option Zone) (s : State) : State :=
  report b (setServing k o s)

section
variable (b : ReportBody) (k : Fin 2) (o : Option Zone) (s : State)

theorem handed_pool : PoolOnly s (handed b k o s) :=
  PoolOnly.trans (t := setServing k o s) rfl (report_pool b _)

theorem handed_serving : (handed b k o s).serving = s.serving.set k o := by
  unfold handed
  rw [(report_sounds b _).serving]
  rfl

theorem handed_self : (handed b k o s).serving[k] = o := by
  rw [handed_serving, vector_set_self]

theorem handed_other {j : Fin 2} (h : j ≠ k) : (handed b k o s).serving[j] = s.serving[j] := by
  rw [handed_serving, vector_set_other h]

end

/-- What the pool's change from `s` to `t` calls for stands reported: a zone taken up as ASSIGNED or PREEMPTED,
one given up as RELEASED, PREEMPTED or CHANNEL FAILED (R168, R169). -/
def PoolTold (s t : State) : Prop := ∀ (k : Fin 2) (z : Zone),
  (t.serving[k] = some z → s.serving[k] ≠ some z →
    Told (.standbyChange k (.assigned z)) t ∨ ∃ y, Told (.standbyChange k (.preempted y z)) t) ∧
  (s.serving[k] = some z → t.serving[k] ≠ some z →
    Told (.standbyChange k (.released z)) t ∨ (∃ y, Told (.standbyChange k (.preempted z y)) t) ∨
      Told (.standbyChange k (.channelFailed z)) t)

/-- Reports are only added, and every change of the pool is reported. -/
structure Announced (s t : State) : Prop where
  later : Later s t
  told  : PoolTold s t

theorem Announced.same {s t : State} (h : Later s t) (hs : t.serving = s.serving) : Announced s t := by
  refine ⟨h, fun k z => ⟨fun h1 h2 => ?_, fun h1 h2 => ?_⟩⟩
  · rw [hs] at h1
    exact absurd h1 h2
  · rw [hs] at h2
    exact absurd h1 h2

theorem Announced.refl (s : State) : Announced s s := .same (.refl s) rfl

theorem Announced.trans {s t u : State} (h : Announced s t) (g : Announced t u) : Announced s u := by
  refine ⟨h.later.trans g.later, fun k z => ⟨fun h1 h2 => ?_, fun h1 h2 => ?_⟩⟩
  · by_cases ht : t.serving[k] = some z
    · rcases (h.told k z).1 ht h2 with h | ⟨y, h⟩
      · exact .inl (h.later g.later)
      · exact .inr ⟨y, h.later g.later⟩
    · exact (g.told k z).1 h1 ht
  · by_cases ht : t.serving[k] = some z
    · exact (g.told k z).2 ht h2
    · rcases (h.told k z).2 h1 ht with h | ⟨y, h⟩ | h
      · exact .inl (h.later g.later)
      · exact .inr (.inl ⟨y, h.later g.later⟩)
      · exact .inr (.inr (h.later g.later))

theorem handed_later (b : ReportBody) (k : Fin 2) (o : Option Zone) (s : State) :
    Later s (handed b k o s) :=
  Later.trans (t := setServing k o s) (.same rfl rfl) (report_later b _)

/-- A change of one channel under the report that it calls for is announced. -/
theorem handed_announced {b : ReportBody} {k : Fin 2} {o : Option Zone} {s : State}
    (hup : ∀ z, o = some z → b = .standbyChange k (.assigned z) ∨ ∃ y, b = .standbyChange k (.preempted y z))
    (hdown : ∀ z, s.serving[k] = some z → b = .standbyChange k (.released z) ∨
      (∃ y, b = .standbyChange k (.preempted z y)) ∨ b = .standbyChange k (.channelFailed z)) :
    Announced s (handed b k o s) := by
  have told : Told b (handed b k o s) := report_told b _
  refine ⟨handed_later b k o s, fun j z => ?_⟩
  by_cases hj : j = k
  · subst hj
    rw [handed_self]
    refine ⟨fun h _ => ?_, fun h _ => ?_⟩
    · rcases hup z h with e | ⟨y, e⟩
      · exact .inl (e ▸ told)
      · exact .inr ⟨y, e ▸ told⟩
    · rcases hdown z h with e | ⟨y, e⟩ | e
      · exact .inl (e ▸ told)
      · exact .inr (.inl ⟨y, e ▸ told⟩)
      · exact .inr (.inr (e ▸ told))
  · rw [handed_other b k o s hj]
    exact ⟨fun h g => absurd h g, fun h g => absurd h g⟩

/-! ### Step 1: release -/

/-- What a release does: it leaves a channel as it is, or takes it from a zone that is no failed zone. -/
theorem arbRelease_cases (k : Fin 2) (s : State) :
    (arbRelease k s = s ∧ ∀ z, s.serving[k] = some z → s.standbyAmps[k].failed = false →
      failedZone s z = true) ∨
    ∃ z, s.serving[k] = some z ∧ s.standbyAmps[k].failed = false ∧ failedZone s z = false ∧
      arbRelease k s = handed (.standbyChange k (.released z)) k none s := by
  unfold arbRelease
  split
  next z hz =>
    obtain ⟨hf, hs⟩ := (poolState_serving s k z).1 hz
    split
    next hfz =>
      exact .inl ⟨rfl, fun y hy _ => by rw [← Option.some.inj (hs.symm.trans hy)]; exact hfz⟩
    next hfz => exact .inr ⟨z, hs, hf, by simpa using hfz, rfl⟩
  next hno =>
    exact .inl ⟨rfl, fun z hz hf => absurd ((poolState_serving s k z).2 ⟨hf, hz⟩) (hno z)⟩

theorem arbRelease_announced (k : Fin 2) (s : State) : Announced s (arbRelease k s) := by
  obtain ⟨e, -⟩ | ⟨z, hs, -, -, e⟩ := arbRelease_cases k s
  · rw [e]
    exact .refl s
  · rw [e]
    exact handed_announced nofun fun y hy => .inl (by rw [Option.some.inj (hs.symm.trans hy)])

theorem arbRelease_other {j k : Fin 2} (h : j ≠ k) (s : State) :
    (arbRelease k s).serving[j] = s.serving[j] := by
  obtain ⟨e, -⟩ | ⟨z, -, -, -, e⟩ := arbRelease_cases k s
  · rw [e]
  · rw [e, handed_other _ _ _ _ h]

/-- After its release a channel serves a failed zone it served before, or none. -/
theorem arbRelease_fed (k : Fin 2) (s : State) (z : Zone) (h : (arbRelease k s).serving[k] = some z)
    (hf : s.standbyAmps[k].failed = false) : s.serving[k] = some z ∧ failedZone s z = true := by
  obtain ⟨e, hz⟩ | ⟨y, -, -, -, e⟩ := arbRelease_cases k s
  · rw [e] at h
    exact ⟨h, hz z h hf⟩
  · rw [e, handed_self] at h
    cases h

theorem arbRelease_keeps (k j : Fin 2) (s : State) (z : Zone) (h : (arbRelease k s).serving[j] = some z) :
    s.serving[j] = some z := by
  by_cases hj : j = k
  · subst hj
    obtain ⟨e, -⟩ | ⟨y, -, -, -, e⟩ := arbRelease_cases j s
    · rwa [e] at h
    · rw [e, handed_self] at h
      cases h
  · rwa [arbRelease_other hj] at h

/-- The state of the arbiter after step 1. -/
def released (s : State) : State := arbRelease 1 (arbRelease 0 s)

theorem released_pool (s : State) : PoolOnly s (released s) :=
  (arbRelease_pool 0 s).trans (arbRelease_pool 1 _)

theorem released_feeds {s : State} (h : OneFeed s) : Feeds (released s) := by
  have hp := (released_pool s).faults
  have keep : ∀ (k : Fin 2) z, (released s).serving[k] = some z → s.serving[k] = some z := fun k z hz =>
    arbRelease_keeps 0 k s z (arbRelease_keeps 1 k _ z hz)
  have live : ∀ (k : Fin 2) z, s.serving[k] = some z → s.standbyAmps[k].failed = false := by
    intro k z hz
    by_contra hf
    have := h.2 k (by simpa using hf)
    rw [hz] at this
    cases this
  refine ⟨fun j k z hj hk => ?_, fun k z hz => ?_⟩
  · have h1 := keep j z hj
    have h2 := keep k z hk
    match j, k with
    | 0, 0 => rfl
    | 1, 1 => rfl
    | 0, 1 => exact absurd h2 (h.1 z h1)
    | 1, 0 => exact absurd h1 (h.1 z h2)
  · have hl := live k z (keep k z hz)
    rw [hp.failedZone, hp.pool]
    refine ⟨hl, ?_⟩
    match k with
    | 0 =>
      have h0 : (arbRelease 0 s).serving[(0 : Fin 2)] = some z := by
        rw [← arbRelease_other (k := 1) (by decide)]
        exact hz
      exact (arbRelease_fed 0 s z h0 hl).2
    | 1 =>
      have hq := (arbRelease_pool 0 s).faults
      have := (arbRelease_fed 1 (arbRelease 0 s) z hz (by rw [hq.pool]; exact hl)).2
      rwa [hq.failedZone] at this

/-- A zone served that is no failed zone any more is released with its report (R168). -/
theorem released_told {s : State} {k : Fin 2} {z : Zone} (hs : s.serving[k] = some z)
    (hf : s.standbyAmps[k].failed = false) (hz : failedZone s z = false) :
    Told (.standbyChange k (.released z)) (released s) := by
  have one : ∀ (j : Fin 2) (u : State), u.serving[j] = some z → u.standbyAmps[j].failed = false →
      failedZone u z = false → Told (.standbyChange j (.released z)) (arbRelease j u) := by
    intro j u hu hfu hzu
    obtain ⟨-, hno⟩ | ⟨y, hy, -, -, e⟩ := arbRelease_cases j u
    · rw [hno z hu hfu] at hzu
      cases hzu
    · rw [e, ← Option.some.inj (hu.symm.trans hy)]
      exact report_told _ _
  have hq := (arbRelease_pool 0 s).faults
  match k with
  | 0 => exact (one 0 s hs hf hz).later (arbRelease_later 1 _)
  | 1 =>
    refine one 1 (arbRelease 0 s) ?_ ?_ ?_
    · rw [arbRelease_other (by decide)]
      exact hs
    · rw [hq.pool]
      exact hf
    · rw [hq.failedZone]
      exact hz

/-! ### Step 2: assignment -/

/-- A waiting zone taken up by a channel that is not FAILED leaves no two channels with one zone. -/
theorem handed_feeds {s : State} (h : Feeds s) {k : Fin 2} {w : Zone} (hf : s.standbyAmps[k].failed = false)
    (hw : Waits s w) (b : ReportBody) : Feeds (handed b k (some w) s) := by
  have hp := (handed_pool b k (some w) s).faults
  have other : ∀ {j : Fin 2}, j ≠ k → (handed b k (some w) s).serving[j] = s.serving[j] :=
    fun hj => handed_other b k _ s hj
  have self := handed_self b k (some w) s
  refine ⟨fun i j z hi hj => ?_, fun j z hj => ?_⟩
  · by_cases hik : i = k <;> by_cases hjk : j = k
    · rw [hik, hjk]
    · subst hik
      rw [self] at hi
      rw [other hjk, ← Option.some.inj hi] at hj
      exact absurd hj (hw.2 j)
    · subst hjk
      rw [self] at hj
      rw [other hik, ← Option.some.inj hj] at hi
      exact absurd hi (hw.2 i)
    · rw [other hik] at hi
      rw [other hjk] at hj
      exact h.one i j z hi hj
  · rw [hp.pool, hp.failedZone]
    by_cases hjk : j = k
    · subst hjk
      rw [self] at hj
      rw [← Option.some.inj hj]
      exact ⟨hf, hw.1⟩
    · rw [other hjk] at hj
      exact h.serves j z hj

/-- One assignment: none is to be made, or a FREE channel takes the best waiting zone. -/
theorem arbAssign_succ (n : Nat) (s : State) :
    ((NoFree s ∨ ∀ z, ¬Waits s z) ∧ arbAssign (n + 1) s = s) ∨
    ∃ k z, s.standbyAmps[k].failed = false ∧ s.serving[k] = none ∧ Waits s z ∧
      arbAssign (n + 1) s = arbAssign n (handed (.standbyChange k (.assigned z)) k (some z) s) := by
  conv => enter [1, 2]; rw [arbAssign]
  conv => enter [2, 1, k, 1, z]; rw [arbAssign]
  split
  next k z hk hz =>
    obtain ⟨hf, hs⟩ := freeChannel_some hk
    exact .inr ⟨k, z, hf, hs, (bestWaiting_some hz).1, rfl⟩
  next hno =>
    refine .inl ⟨?_, rfl⟩
    cases hk : freeChannel s with
    | none => exact .inl (freeChannel_none hk)
    | some k =>
      cases hz : bestWaiting s with
      | none => exact .inr (bestWaiting_none hz)
      | some z => exact absurd hz (hno k z hk)

theorem handed_assigned {s : State} {k : Fin 2} (z : Zone) (h : s.serving[k] = none) :
    Announced s (handed (.standbyChange k (.assigned z)) k (some z) s) :=
  handed_announced (fun y hy => .inl (by rw [Option.some.inj hy]))
    (fun y hy => by rw [h] at hy; cases hy)

theorem arbAssign_announced (n : Nat) (s : State) : Announced s (arbAssign n s) := by
  induction n generalizing s with
  | zero => exact .refl s
  | succ n ih =>
    obtain ⟨-, e⟩ | ⟨k, z, -, hs, -, e⟩ := arbAssign_succ n s
    · rw [e]
      exact .refl s
    · rw [e]
      exact (handed_assigned z hs).trans (ih _)

theorem arbAssign_feeds (n : Nat) {s : State} (h : Feeds s) : Feeds (arbAssign n s) := by
  induction n generalizing s with
  | zero => exact h
  | succ n ih =>
    obtain ⟨-, e⟩ | ⟨k, z, hf, -, hz, e⟩ := arbAssign_succ n s
    · rw [e]
      exact h
    · rw [e]
      exact ih (handed_feeds h hf hz _)

/-- Two assignments leave no channel FREE while a zone waits (R168). -/
theorem arbAssign_done (s : State) :
    NoFree (arbAssign 2 s) ∨ ∀ z, ¬Waits (arbAssign 2 s) z := by
  obtain ⟨h, e⟩ | ⟨k, z, -, -, -, e⟩ := arbAssign_succ 1 s
  · rw [e]
    exact h
  · have hk := handed_self (.standbyChange k (.assigned z)) k (some z) s
    rw [e]
    generalize handed (.standbyChange k (.assigned z)) k (some z) s = u at hk
    obtain ⟨h, e⟩ | ⟨j, y, -, hj, -, e⟩ := arbAssign_succ 0 u
    · rw [e]
      exact h
    · rw [e]
      left
      intro i hi
      rw [arbAssign, handed_serving] at hi
      have hjk : k ≠ j := by
        rintro rfl
        rw [hk] at hj
        cases hj
      rcases fin_two_cases j k hjk i with rfl | rfl
      · rw [vector_set_self] at hi
        cases hi
      · rw [vector_set_other hjk, hk] at hi
        cases hi

/-! ### Step 3: preemption -/

/-- One preemption: none is to be made, or the best waiting zone takes the channel of the lowest served one. -/
theorem arbPreempt_succ (n : Nat) (s : State) :
    ((∀ k, Feeds s → Top s k) ∧ arbPreempt (n + 1) s = s) ∨
    ∃ k y w, s.standbyAmps[k].failed = false ∧ s.serving[k] = some y ∧ Waits s w ∧
      rankOf s y < rankOf s w ∧ (∀ z, Waits s z → rankOf s z ≤ rankOf s w) ∧
      (∀ (j : Fin 2) x, s.standbyAmps[j].failed = false → s.serving[j] = some x → rankOf s y ≤ rankOf s x) ∧
      arbPreempt (n + 1) s = arbPreempt n (handed (.standbyChange k (.preempted y w)) k (some w) s) := by
  have step : ∀ u, arbPreempt (n + 1) s = u ↔ (match bestWaiting s, preemptable s with
    | some w, some p =>
      if rankOf s p.2 < rankOf s w then
        arbPreempt n
          (report (.standbyChange p.1 (.preempted p.2 w)) (setServing p.1 (some w) s))
      else s
    | _, _ => s) = u := fun u => by rw [arbPreempt] <;> exact Iff.rfl
  simp only [step]
  cases hw : bestWaiting s with
  | none => exact .inl ⟨fun k _ y _ z hz => absurd hz (bestWaiting_none hw z), rfl⟩
  | some w =>
    cases hp : preemptable s with
    | none =>
      exact .inl ⟨fun k hf y hy => absurd ⟨(hf.serves k y hy).1, hy⟩ (preemptable_none hp k y), rfl⟩
    | some p =>
      obtain ⟨k, y⟩ := p
      obtain ⟨hwait, hbest⟩ := bestWaiting_some hw
      obtain ⟨hf, hs, hlow⟩ := preemptable_some hp
      by_cases hlt : rankOf s y < rankOf s w
      · refine .inr ⟨k, y, w, hf, hs, hwait, hlt, hbest, hlow, ?_⟩
        exact if_pos hlt
      · refine .inl ⟨fun j hfe x hx z hz => ?_, if_neg hlt⟩
        have h1 := hbest z hz
        have h2 := hlow j x (hfe.serves j x hx).1 hx
        omega

theorem handed_preempted {s : State} {k : Fin 2} {y : Zone} (w : Zone) (h : s.serving[k] = some y) :
    Announced s (handed (.standbyChange k (.preempted y w)) k (some w) s) :=
  handed_announced (fun z hz => .inr ⟨y, by rw [Option.some.inj hz]⟩)
    (fun z hz => .inr (.inl ⟨w, by rw [Option.some.inj (h.symm.trans hz)]⟩))

theorem arbPreempt_announced (n : Nat) (s : State) : Announced s (arbPreempt n s) := by
  induction n generalizing s with
  | zero => exact .refl s
  | succ n ih =>
    obtain ⟨-, e⟩ | ⟨k, y, w, -, hs, -, -, -, -, e⟩ := arbPreempt_succ n s
    · rw [e]
      exact .refl s
    · rw [e]
      exact (handed_preempted w hs).trans (ih _)

theorem arbPreempt_feeds (n : Nat) {s : State} (h : Feeds s) : Feeds (arbPreempt n s) := by
  induction n generalizing s with
  | zero => exact h
  | succ n ih =>
    obtain ⟨-, e⟩ | ⟨k, y, w, hf, -, hw, -, -, -, e⟩ := arbPreempt_succ n s
    · rw [e]
      exact h
    · rw [e]
      exact ih (handed_feeds h hf hw _)

/-- No preemption is made where no zone waits. -/
theorem arbPreempt_idle (n : Nat) {s : State} (h : ∀ z, ¬Waits s z) : arbPreempt n s = s := by
  cases n with
  | zero => rfl
  | succ n =>
    obtain ⟨-, e⟩ | ⟨k, y, w, -, -, hw, -⟩ := arbPreempt_succ n s
    · exact e
    · exact absurd hw (h w)

/-- A preemption of the lowest served zone by the best waiting one puts its channel at the top and leaves the
other there (R168). -/
theorem handed_top {s : State} {k : Fin 2} {y w : Zone} (hy : s.serving[k] = some y) (hw : Waits s w)
    (hlt : rankOf s y < rankOf s w) (hbest : ∀ z, Waits s z → rankOf s z ≤ rankOf s w)
    (hlow : ∀ (j : Fin 2) x, s.standbyAmps[j].failed = false → s.serving[j] = some x → rankOf s y ≤ rankOf s x)
    (hf : Feeds s) (b : ReportBody) : ¬Top s k ∧ Top (handed b k (some w) s) k ∧
      ∀ j, j ≠ k → Top s j → Top (handed b k (some w) s) j := by
  have hp := (handed_pool b k (some w) s).faults
  have self := handed_self b k (some w) s
  have other : ∀ {j : Fin 2}, j ≠ k → (handed b k (some w) s).serving[j] = s.serving[j] :=
    fun hj => handed_other b k _ s hj
  -- who waits afterwards waited before or has just lost the channel
  have waits : ∀ z, Waits (handed b k (some w) s) z → Waits s z ∨ z = y := by
    intro z hz
    by_cases hzy : z = y
    · exact .inr hzy
    · refine .inl ⟨hp.failedZone z ▸ hz.1, fun j hj => ?_⟩
      by_cases hjk : j = k
      · subst hjk
        exact hzy (Option.some.inj (hj.symm.trans hy))
      · exact hz.2 j ((other hjk).trans hj)
  refine ⟨fun ht => ?_, fun x hx z hz => ?_, fun j hj ht x hx z hz => ?_⟩
  · have := ht y hy w hw
    omega
  · rw [self] at hx
    rw [hp.rankOf, hp.rankOf, ← Option.some.inj hx]
    rcases waits z hz with hz | rfl
    · exact hbest z hz
    · omega
  · rw [other hj] at hx
    rw [hp.rankOf, hp.rankOf]
    rcases waits z hz with hz | rfl
    · exact ht x hx z hz
    · exact hlow j x (hf.serves j x hx).1 hx

theorem handed_noFree {s : State} (h : NoFree s) (b : ReportBody) (k : Fin 2) (w : Zone) :
    NoFree (handed b k (some w) s) := by
  intro j hj
  rw [(handed_pool b k (some w) s).faults.pool]
  by_cases hjk : j = k
  · subst hjk
    rw [handed_self] at hj
    cases hj
  · rw [handed_other _ _ _ _ hjk] at hj
    exact h j hj

/-- Two preemptions leave no waiting zone above a served one (R168). -/
theorem arbPreempt_done {s : State} (hf : Feeds s) (hn : NoFree s) :
    NoFree (arbPreempt 2 s) ∧ ∀ k, Top (arbPreempt 2 s) k := by
  obtain ⟨h, e⟩ | ⟨k, y, w, hk, hy, hw, hlt, hbest, hlow, e⟩ := arbPreempt_succ 1 s
  · rw [e]
    exact ⟨hn, fun k => h k hf⟩
  · obtain ⟨-, hself, -⟩ := handed_top hy hw hlt hbest hlow hf (.standbyChange k (.preempted y w))
    have hf1 := handed_feeds hf hk hw (.standbyChange k (.preempted y w))
    have hn1 := handed_noFree hn (.standbyChange k (.preempted y w)) k w
    rw [e]
    generalize handed (.standbyChange k (.preempted y w)) k (some w) s = u at hself hf1 hn1
    obtain ⟨h, e⟩ | ⟨j, x, v, hj, hx, hv, hlt', hbest', hlow', e⟩ := arbPreempt_succ 0 u
    · rw [e]
      exact ⟨hn1, fun k => h k hf1⟩
    · obtain ⟨hnot, htop, hother⟩ := handed_top hx hv hlt' hbest' hlow' hf1 (.standbyChange j (.preempted x v))
      have hkj : k ≠ j := fun e => hnot (e ▸ hself)
      rw [e, arbPreempt]
      refine ⟨handed_noFree hn1 _ j v, fun i => ?_⟩
      rcases fin_two_cases j k hkj i with rfl | rfl
      · exact htop
      · exact hother i hkj hself

/-! ### The arbiter as a whole -/

theorem arbiter_eq (s : State) : arbiter s = arbPreempt 2 (arbAssign 2 (released s)) := rfl

theorem arbiter_announced (s : State) : Announced s (arbiter s) :=
  (arbRelease_announced 0 s).trans ((arbRelease_announced 1 _).trans
    ((arbAssign_announced 2 _).trans (arbPreempt_announced 2 _)))

theorem arbiter_feeds {s : State} (h : OneFeed s) : Feeds (arbiter s) :=
  arbPreempt_feeds 2 (arbAssign_feeds 2 (released_feeds h))

/-- A run of the arbiter settles the pool (R168). -/
theorem arbiter_settles {s : State} (h : OneFeed s) : PoolSettled (arbiter s) := by
  refine poolSettled_of (arbiter_feeds h) ?_
  have hf := arbAssign_feeds 2 (released_feeds h)
  rw [arbiter_eq]
  rcases arbAssign_done (released s) with hn | hw
  · exact .inr (arbPreempt_done hf hn)
  · rw [arbPreempt_idle 2 hw]
    exact .inl hw

/-- A zone served that is no failed zone any more is reported RELEASED by a run of the arbiter (R168). -/
theorem arbiter_releases {s : State} {k : Fin 2} {z : Zone} (hs : s.serving[k] = some z)
    (hf : s.standbyAmps[k].failed = false) (hz : failedZone s z = false) :
    Told (.standbyChange k (.released z)) (arbiter s) :=
  (released_told hs hf hz).later ((arbAssign_later 2 _).trans (arbPreempt_later 2 _))

theorem Feeds.oneFeed {s : State} (h : Feeds s) : OneFeed s := by
  refine ⟨fun z h0 h1 => absurd (h.one 0 1 z h0 h1) (by decide), fun k hf => ?_⟩
  cases hs : s.serving[k] with
  | none => rfl
  | some z =>
    have := (h.serves k z hs).1
    rw [hf] at this
    cases this

theorem arbiter_oneFeed {s : State} (h : OneFeed s) : OneFeed (arbiter s) := (arbiter_feeds h).oneFeed

end Sys2Proof.Machine

namespace Sys2Proof.Machine

/-! ## Window ends (O54) -/

/-! ### One line, one health record -/

/-- A monitor at a window end is judged as R161 and R162 give. -/
theorem monWindow_judged (lower upper : Nat) (m : LineMon) :
    LineJudged lower upper m (monWindow lower upper m) := by
  refine ⟨fun h => ?_, fun h hw => ?_, fun h hw => ?_⟩
  · exact if_pos (by simp [measured, h])
  · have hm : measured m = true := by simpa [measured] using h
    unfold monWindow
    rw [hm, hw]
    rfl
  · have hm : measured m = true := by simpa [measured] using h
    intro v called run
    have hc : called = calledFor v := by
      show (match v with
        | .low => LineState.opened
        | .inBand => LineState.normal
        | .high => LineState.short) = calledFor v
      cases v <;> rfl
    have hmon : monWindow lower upper m =
        if run = 3 ∧ calledFor v ≠ m.state then
          if calledFor v = .short then
            { monCounted m v with state := .short, candidate := none, run := 0 }
          else { monCounted m v with state := calledFor v }
        else monCounted m v := by
      unfold monWindow
      rw [hm, hw]
      rfl
    rw [hmon, hc]
    refine ⟨fun hr => ?_, fun hr hs => ?_, fun hr hs => ?_⟩
    · rw [if_neg (by omega)]
      rfl
    · by_cases he : calledFor v = m.state
      · rw [if_neg (fun h => h.2 he), he]
        show { m with hold := some m.pulses, pulses := 0, candidate := some v, run := run } = _
        rw [hr]
      · rw [if_pos ⟨hr, he⟩, if_neg hs]
        show ({ m with hold := some m.pulses, pulses := 0, candidate := some v, run := run, state := calledFor v } :
          LineMon) = _
        rw [hr]
    · rw [if_pos ⟨hr, by rw [hs]; exact h.symm⟩, if_pos hs]
      rfl

/-- The report of a line's change of state is queued where the state calls for one (R162). -/
theorem reportOpt_lineTold (z : Zone) (l : Line) (before after : LineState) (s : State) :
    LineTold z l before after (reportOpt (lineReport z l before after) s) := by
  have told : ∀ r, lineReport z l before after = some r →
      Told r (reportOpt (lineReport z l before after) s) := fun r hr => by
    rw [hr]
    exact report_told r s
  refine ⟨fun h1 h2 => told _ ?_, fun h1 h2 => told _ ?_, fun h1 h2 => told _ ?_⟩
  · unfold lineReport
    rw [if_neg (by rw [h2]; exact h1), h2]
  · unfold lineReport
    rw [if_neg (by rw [h2]; exact h1), h2]
  · unfold lineReport
    rw [h1, h2]
    rfl

theorem LineTold.later {z : Zone} {l : Line} {before after : LineState} {s t : State}
    (h : LineTold z l before after s) (g : Later s t) : LineTold z l before after t :=
  ⟨fun h1 h2 => (h.opened h1 h2).later g, fun h1 h2 => (h.short h1 h2).later g,
    fun h1 h2 => (h.normal h1 h2).later g⟩

/-- A health record at a window end is judged as R165 gives. -/
theorem healthWindow_judged (h : Health) : HealthJudged h (healthWindow h) := by
  refine ⟨fun hw => ?_, fun hw => ?_⟩
  · unfold healthWindow
    rw [hw]
    rfl
  · intro run
    unfold healthWindow
    rw [hw]
    dsimp only [Bool.not_true, Bool.false_eq_true, if_false]
    rw [Bool.not_not]
    rfl

theorem reportOpt_healthTold (c : AmpChannel) (before after : Bool) (s : State) :
    HealthTold c before after (reportOpt (healthReport c before after) s) := by
  refine ⟨fun h1 h2 => ?_, fun h1 h2 => ?_⟩
  all_goals
    rw [h1, h2]
    exact report_told _ s

theorem HealthTold.later {c : AmpChannel} {before after : Bool} {s t : State}
    (h : HealthTold c before after s) (g : Later s t) : HealthTold c before after t :=
  ⟨fun h1 h2 => (h.fails h1 h2).later g, fun h1 h2 => (h.clears h1 h2).later g⟩

/-! ### The lines of one zone -/

theorem reportOpt_lines (b : Option ReportBody) (s : State) : (reportOpt b s).lines = s.lines := by
  unfold reportOpt
  split
  · unfold report
    split <;> rfl
  · rfl

/-- OUTPUT LOST of a zone in use, once the load has completed, holds where none of its lines is connected
(R163, R164). -/
theorem outputLostNow_iff {s : State} {z : Zone} (hp : s.phase = .running)
    (hu : s.work.spk[z].inUse = true) : outputLostNow s z = true ↔
      s.lines[z].a.state = .short ∧ ∀ b, s.lines[z].b = some b → b.state = .short := by
  unfold outputLostNow relayConnected zoneInUse spk
  rw [hp, hu]
  cases hb : s.lines[z].b <;> simp [-Fin.getElem_fin]

/-- An evaluation of OUTPUT LOST settles the mark of its zone and leaves the lines (R164). -/
theorem evalOutputLost_lines (z : Zone) (s : State) : (evalOutputLost z s).lines =
    s.lines.set z { s.lines[z] with lost := outputLostNow s z } := by
  unfold evalOutputLost
  dsimp only
  split
  · unfold report
    split <;> rfl
  · rfl

theorem evalOutputLost_told {z : Zone} {s : State} (h : outputLostNow s z = true)
    (ho : s.lines[z].lost = false) :
    Told (.outputLost z s.lines[z].a.state (s.lines[z].b.map fun m => m.state)) (evalOutputLost z s) := by
  unfold evalOutputLost
  dsimp only
  rw [if_pos (by rw [h, ho]; rfl)]
  exact report_told _ _

/-- The state with the lines of a zone replaced, the change of one reported, and OUTPUT LOST evaluated. -/
def lineTaken (z : Zone) (l : ZoneLines) (r : Option ReportBody) (s : State) : State :=
  evalOutputLost z (reportOpt r { s with lines := s.lines.set z l })

section
variable {s : State} {z : Zone} (l : ZoneLines) (r : Option ReportBody)

theorem lineTaken_later : Later s (lineTaken z l r s) :=
  Later.trans (t := { s with lines := s.lines.set z l }) (.same rfl rfl)
    ((reportOpt_later _ _).trans (evalOutputLost_later z _))

theorem lineTaken_other {y : Zone} (h : y ≠ z) : (lineTaken z l r s).lines[y] = s.lines[y] := by
  unfold lineTaken
  rw [evalOutputLost_lines, vector_set_other h, reportOpt_lines]
  exact vector_set_other h _ _

theorem reportOpt_frame (b : Option ReportBody) (s : State) : (reportOpt b s).phase = s.phase ∧
    (reportOpt b s).work = s.work := by
  unfold reportOpt
  split
  · unfold report
    split <;> exact ⟨rfl, rfl⟩
  · exact ⟨rfl, rfl⟩

/-- What the lines of the zone are afterwards, and the report of an OUTPUT LOST that comes. -/
theorem lineTaken_self (hp : s.phase = .running) (hu : s.work.spk[z].inUse = true) :
    ∃ lost, (lineTaken z l r s).lines[z] = { l with lost := lost } ∧
      (lost = true ↔ l.a.state = .short ∧ ∀ b, l.b = some b → b.state = .short) ∧
      (l.lost = false → lost = true →
        Told (.outputLost z l.a.state (l.b.map fun m => m.state)) (lineTaken z l r s)) := by
  have hl : (reportOpt r { s with lines := s.lines.set z l }).lines[z] = l := by
    rw [reportOpt_lines]
    exact vector_set_self _ _ _
  obtain ⟨hph, hw⟩ := reportOpt_frame r { s with lines := s.lines.set z l }
  unfold lineTaken
  generalize reportOpt r { s with lines := s.lines.set z l } = u at hl hph hw
  have hnow := outputLostNow_iff (s := u) (z := z) (hph.trans hp) (by rw [hw]; exact hu)
  rw [hl] at hnow
  refine ⟨outputLostNow u z, ?_, hnow, fun h1 h2 => ?_⟩
  · rw [evalOutputLost_lines, vector_set_self, hl]
  · have := evalOutputLost_told h2 (by rw [hl]; exact h1)
    rwa [hl] at this

end

theorem windowLineA_eq (z : Zone) (s : State) : windowLineA z s =
    lineTaken z { s.lines[z] with
        a := monWindow s.work.limits[z].aLower s.work.limits[z].aUpper s.lines[z].a }
      (lineReport z .a s.lines[z].a.state
        (monWindow s.work.limits[z].aLower s.work.limits[z].aUpper s.lines[z].a).state) s := rfl

theorem windowLineB_none {z : Zone} {s : State} (h : s.lines[z].b = none) : windowLineB z s = s := by
  unfold windowLineB
  dsimp only
  rw [h]

theorem windowLineB_some {z : Zone} {s : State} {b : LineMon} (h : s.lines[z].b = some b) :
    windowLineB z s = lineTaken z { s.lines[z] with
        b := some (monWindow s.work.limits[z].bLower s.work.limits[z].bUpper b) }
      (lineReport z .b b.state (monWindow s.work.limits[z].bLower s.work.limits[z].bUpper b).state) s := by
  unfold windowLineB
  dsimp only
  rw [h]
  rfl

/-- What is said of the lines of a zone in use at a window end. -/
structure LinesJudged (s t : State) (z : Zone) : Prop where
  a     : LineJudged s.work.limits[z].aLower s.work.limits[z].aUpper s.lines[z].a t.lines[z].a
  toldA : LineTold z .a s.lines[z].a.state t.lines[z].a.state t
  noB   : s.lines[z].b = none → t.lines[z].b = none
  b     : ∀ b, s.lines[z].b = some b → ∃ b', t.lines[z].b = some b' ∧
    LineJudged s.work.limits[z].bLower s.work.limits[z].bUpper b b' ∧ LineTold z .b b.state b'.state t
  lost  : t.lines[z].lost = true ↔
    t.lines[z].a.state = .short ∧ ∀ b, t.lines[z].b = some b → b.state = .short
  told  : s.lines[z].lost = false → t.lines[z].lost = true →
    Told (.outputLost z t.lines[z].a.state (t.lines[z].b.map fun b => b.state)) t

theorem reported_lineTold (z : Zone) (k : Line) (before after : LineState) (l : ZoneLines) (s : State) :
    LineTold z k before after (lineTaken z l (lineReport z k before after) s) :=
  (reportOpt_lineTold z k before after _).later (evalOutputLost_later z _)

theorem lineTaken_frame (z : Zone) (l : ZoneLines) (r : Option ReportBody) (s : State) :
    (lineTaken z l r s).phase = s.phase ∧ (lineTaken z l r s).work = s.work := by
  have h := (SupervisionOnly.trans (t := { s with lines := s.lines.set z l }) rfl
    (SupervisionOnly.trans (reportOpt_pool r _).supervision (evalOutputLost_supervision z _)) :
      SupervisionOnly s (lineTaken z l r s))
  constructor <;> rw [h]

/-- The lines of a zone in use, line A before line B (R162–R164). -/
theorem windowZone_judged {s : State} {z : Zone} (hp : s.phase = .running)
    (hu : s.work.spk[z].inUse = true) : LinesJudged s (windowZone z s) z := by
  have hz : windowZone z s = windowLineB z (windowLineA z s) := if_pos hu
  rw [hz]
  have ja := monWindow_judged s.work.limits[z].aLower s.work.limits[z].aUpper s.lines[z].a
  have ta := reported_lineTold z .a s.lines[z].a.state
    (monWindow s.work.limits[z].aLower s.work.limits[z].aUpper s.lines[z].a).state
    { s.lines[z] with a := monWindow s.work.limits[z].aLower s.work.limits[z].aUpper s.lines[z].a } s
  obtain ⟨lost, hl, hlost, htold⟩ := lineTaken_self (s := s) (z := z) { s.lines[z] with
    a := monWindow s.work.limits[z].aLower s.work.limits[z].aUpper s.lines[z].a }
    (lineReport z .a s.lines[z].a.state
      (monWindow s.work.limits[z].aLower s.work.limits[z].aUpper s.lines[z].a).state) hp hu
  obtain ⟨hph, hw⟩ := lineTaken_frame z { s.lines[z] with
    a := monWindow s.work.limits[z].aLower s.work.limits[z].aUpper s.lines[z].a }
    (lineReport z .a s.lines[z].a.state
      (monWindow s.work.limits[z].aLower s.work.limits[z].aUpper s.lines[z].a).state) s
  rw [windowLineA_eq]
  generalize monWindow s.work.limits[z].aLower s.work.limits[z].aUpper s.lines[z].a = ma at *
  generalize lineTaken z { s.lines[z] with a := ma } (lineReport z .a s.lines[z].a.state ma.state) s = u at *
  have hua : u.lines[z].a = ma := by rw [hl]
  have hub : u.lines[z].b = s.lines[z].b := by rw [hl]
  have hul : u.lines[z].lost = lost := by rw [hl]
  cases hb : s.lines[z].b with
  | none =>
    rw [windowLineB_none (hub.trans hb)]
    refine ⟨by rw [hua]; exact ja, by rw [hua]; exact ta, fun _ => hub.trans hb,
      fun b hb' => absurd (hb.symm.trans hb') nofun, ?_, fun h1 h2 => ?_⟩
    · rw [hul, hua, hub]
      exact hlost
    · rw [hua, hub]
      exact htold h1 (hul ▸ h2)
  | some b =>
    have jb := monWindow_judged s.work.limits[z].bLower s.work.limits[z].bUpper b
    rw [windowLineB_some (hub.trans hb), hw]
    have tb := reported_lineTold z .b b.state
      (monWindow s.work.limits[z].bLower s.work.limits[z].bUpper b).state
      { u.lines[z] with b := some (monWindow s.work.limits[z].bLower s.work.limits[z].bUpper b) } u
    generalize monWindow s.work.limits[z].bLower s.work.limits[z].bUpper b = mb at *
    obtain ⟨lost', hl', hlost', htold'⟩ := lineTaken_self (s := u) (z := z)
      { u.lines[z] with b := some mb } (lineReport z .b b.state mb.state) (hph.trans hp) (by rw [hw]; exact hu)
    have hv := lineTaken_later (s := u) (z := z) { u.lines[z] with b := some mb }
      (lineReport z .b b.state mb.state)
    generalize lineTaken z { u.lines[z] with b := some mb } (lineReport z .b b.state mb.state) u = v at *
    have hva : v.lines[z].a = ma := by rw [hl', ← hua]
    have hvb : v.lines[z].b = some mb := by rw [hl']
    have hvl : v.lines[z].lost = lost' := by rw [hl']
    dsimp only at hlost' htold'
    rw [hua] at hlost' htold'
    refine ⟨by rw [hva]; exact ja, by rw [hva]; exact ta.later hv, fun h => absurd (hb.symm.trans h) nofun,
      fun c hc => ?_, ?_, fun h1 h2 => ?_⟩
    · obtain rfl := Option.some.inj (hb.symm.trans hc)
      exact ⟨mb, hvb, jb, tb⟩
    · rw [hvl, hva, hvb]
      exact hlost'
    · rw [hva, hvb]
      cases hlo : lost with
      | false => exact htold' (hul.trans hlo) (hvl ▸ h2)
      | true =>
        -- the mark came with line A, line B being SHORT by then, and SHORT it stays
        have hsb : b.state = .short := (hlost.1 hlo).2 b hb
        have hmb : mb = b := jb.short hsb
        have := (htold h1 hlo).later hv
        dsimp only at this
        rw [hb, ← hmb] at this
        exact this

/-! ### Every zone in its turn -/

/-- A step of a walk over a list leaves what the walk's other steps leave. -/
theorem foldl_leaves {α : Type} {f : State → α → State} {Q : State → State → Prop} {z : α}
    (refl : ∀ s, Q s s) (trans : ∀ {s t u}, Q s t → Q t u → Q s u)
    (other : ∀ u y, y ≠ z → Q u (f u y)) (l : List α) (hz : z ∉ l) (s : State) : Q s (l.foldl f s) := by
  induction l generalizing s with
  | nil => exact refl s
  | cons y l ih =>
    obtain ⟨hy, hl⟩ := not_or.1 (fun h => hz (List.mem_cons.2 h))
    exact trans (other s y (Ne.symm hy)) (ih hl _)

/-- A walk over a list without repetitions comes to each entry once: up to it and from it on it leaves what the
steps of the other entries leave. -/
theorem foldl_visits {α : Type} {f : State → α → State} {Q : State → State → Prop} {z : α}
    (refl : ∀ s, Q s s) (trans : ∀ {s t u}, Q s t → Q t u → Q s u)
    (other : ∀ u y, y ≠ z → Q u (f u y)) {l : List α} (hl : l.Nodup) (hz : z ∈ l) (s : State) :
    ∃ u, Q s u ∧ Q (f u z) (l.foldl f s) := by
  induction l generalizing s with
  | nil => cases hz
  | cons y l ih =>
    obtain ⟨hy, hl⟩ := List.nodup_cons.1 hl
    by_cases hyz : y = z
    · subst hyz
      exact ⟨s, refl s, foldl_leaves refl trans other l hy _⟩
    · obtain ⟨u, h1, h2⟩ := ih hl ((List.mem_cons.1 hz).resolve_left (Ne.symm hyz)) (f s y)
      exact ⟨u, trans (other s y hyz) h1, h2⟩

/-- From `s` to `t` the lines and the channel of zone `z` and the standby pool are as they were. -/
structure ZoneStands (z : Zone) (s t : State) : Prop where
  later   : Later s t
  only    : SupervisionOnly s t
  lines   : t.lines[z] = s.lines[z]
  amp     : t.amps[z] = s.amps[z]
  pool    : t.standbyAmps = s.standbyAmps
  serving : t.serving = s.serving

theorem ZoneStands.refl (z : Zone) (s : State) : ZoneStands z s s := ⟨.refl s, rfl, rfl, rfl, rfl, rfl⟩

theorem ZoneStands.trans {z : Zone} {s t u : State} (h : ZoneStands z s t) (g : ZoneStands z t u) :
    ZoneStands z s u :=
  ⟨h.later.trans g.later, SupervisionOnly.trans h.only g.only, g.lines.trans h.lines, g.amp.trans h.amp,
    g.pool.trans h.pool, g.serving.trans h.serving⟩

theorem lineTaken_keeps (z : Zone) (l : ZoneLines) (r : Option ReportBody) (s : State) :
    (lineTaken z l r s).amps = s.amps ∧ (lineTaken z l r s).standbyAmps = s.standbyAmps ∧
      (lineTaken z l r s).serving = s.serving := by
  have hrep : ∀ (b : ReportBody) (u : State), (report b u).amps = u.amps ∧
      (report b u).standbyAmps = u.standbyAmps ∧ (report b u).serving = u.serving := by
    intro b u
    unfold report
    split <;> exact ⟨rfl, rfl, rfl⟩
  have hopt : ∀ (u : State), (reportOpt r u).amps = u.amps ∧
      (reportOpt r u).standbyAmps = u.standbyAmps ∧ (reportOpt r u).serving = u.serving := by
    intro u
    unfold reportOpt
    split
    · exact hrep _ u
    · exact ⟨rfl, rfl, rfl⟩
  unfold lineTaken evalOutputLost
  dsimp only
  split
  · obtain ⟨h1, h2, h3⟩ := hrep (.outputLost z (reportOpt r { s with lines := s.lines.set z l }).lines[z].a.state
      ((reportOpt r { s with lines := s.lines.set z l }).lines[z].b.map fun m => m.state))
      { reportOpt r { s with lines := s.lines.set z l } with
        lines := (reportOpt r { s with lines := s.lines.set z l }).lines.set z
          { (reportOpt r { s with lines := s.lines.set z l }).lines[z] with
            lost := outputLostNow (reportOpt r { s with lines := s.lines.set z l }) z } }
    exact ⟨h1.trans (hopt _).1, h2.trans (hopt _).2.1, h3.trans (hopt _).2.2⟩
  · exact hopt _

theorem windowZone_keeps (z : Zone) (s : State) : (windowZone z s).amps = s.amps ∧
    (windowZone z s).standbyAmps = s.standbyAmps ∧ (windowZone z s).serving = s.serving := by
  have hb : ∀ u : State, (windowLineB z u).amps = u.amps ∧
      (windowLineB z u).standbyAmps = u.standbyAmps ∧ (windowLineB z u).serving = u.serving := by
    intro u
    cases h : u.lines[z].b with
    | none => rw [windowLineB_none h]; exact ⟨rfl, rfl, rfl⟩
    | some b => rw [windowLineB_some h]; exact lineTaken_keeps _ _ _ _
  unfold windowZone
  split
  · obtain ⟨h1, h2, h3⟩ := hb (windowLineA z s)
    rw [h1, h2, h3, windowLineA_eq]
    exact lineTaken_keeps _ _ _ _
  · exact ⟨rfl, rfl, rfl⟩

theorem windowZone_other {y z : Zone} (h : z ≠ y) (s : State) :
    (windowZone y s).lines[z] = s.lines[z] := by
  unfold windowZone
  split
  · have ha : (windowLineA y s).lines[z] = s.lines[z] := by
      rw [windowLineA_eq]
      exact lineTaken_other _ _ h
    cases hb : (windowLineA y s).lines[y].b with
    | none => rw [windowLineB_none hb, ha]
    | some b =>
      rw [windowLineB_some hb, lineTaken_other _ _ h, ha]
  · rfl

theorem windowZone_stands {y z : Zone} (h : y ≠ z) (s : State) : ZoneStands z s (windowZone y s) := by
  obtain ⟨h1, h2, h3⟩ := windowZone_keeps y s
  exact ⟨windowZone_later y s, windowZone_supervision y s, windowZone_other (Ne.symm h) s, by rw [h1], h2, h3⟩

theorem reportOpt_keeps (b : Option ReportBody) (s : State) : (reportOpt b s).lines = s.lines ∧
    (reportOpt b s).amps = s.amps ∧ (reportOpt b s).standbyAmps = s.standbyAmps ∧
    (reportOpt b s).serving = s.serving := by
  unfold reportOpt
  split
  · unfold report
    split <;> exact ⟨rfl, rfl, rfl, rfl⟩
  · exact ⟨rfl, rfl, rfl, rfl⟩

theorem windowAmp_stands {y z : Zone} (h : y ≠ z) (s : State) : ZoneStands z s (windowAmp y s) := by
  have hl := windowAmp_later y s
  have hs := windowAmp_supervision y s
  unfold windowAmp at *
  split
  next hu =>
    rw [if_pos hu] at hl hs
    obtain ⟨h1, h2, h3, h4⟩ := reportOpt_keeps (healthReport (.zone y) s.amps[y].failed
      (healthWindow s.amps[y]).failed) { s with amps := s.amps.set y (healthWindow s.amps[y]) }
    refine ⟨hl, hs, by rw [h1], ?_, h3, h4⟩
    rw [h2]
    exact vector_set_other (Ne.symm h) _ _
  next => exact .refl z s

/-- The channel of a zone in use, judged at a window end with its report (R165). -/
theorem windowAmp_judged {s : State} {z : Zone} (hu : s.work.spk[z].inUse = true) :
    (windowAmp z s).amps[z] = healthWindow s.amps[z] ∧
      HealthTold (.zone z) s.amps[z].failed (healthWindow s.amps[z]).failed (windowAmp z s) ∧
      (windowAmp z s).lines = s.lines ∧ (windowAmp z s).standbyAmps = s.standbyAmps ∧
      (windowAmp z s).serving = s.serving := by
  have he : windowAmp z s = reportOpt (healthReport (.zone z) s.amps[z].failed
      (healthWindow s.amps[z]).failed) { s with amps := s.amps.set z (healthWindow s.amps[z]) } := if_pos hu
  rw [he]
  obtain ⟨h1, h2, h3, h4⟩ := reportOpt_keeps (healthReport (.zone z) s.amps[z].failed
    (healthWindow s.amps[z]).failed) { s with amps := s.amps.set z (healthWindow s.amps[z]) }
  refine ⟨?_, reportOpt_healthTold _ _ _ _, h1, h3, h4⟩
  rw [h2]
  exact vector_set_self _ _ _

/-! ### The standby channels -/

/-- A standby channel at a window end: judged with its report, and taken from its zone where it fails (R165,
R169). -/
theorem windowStandby_judged (k : Fin 2) (s : State) :
    (windowStandby k s).standbyAmps = s.standbyAmps.set k (healthWindow s.standbyAmps[k]) ∧
      HealthTold (.standby k) s.standbyAmps[k].failed (healthWindow s.standbyAmps[k]).failed (windowStandby k s) ∧
      (∀ z, s.serving[k] = some z → s.standbyAmps[k].failed = false →
        (healthWindow s.standbyAmps[k]).failed = true →
        Told (.standbyChange k (.channelFailed z)) (windowStandby k s)) ∧
      (windowStandby k s).serving = (if (healthWindow s.standbyAmps[k]).failed = true ∧
        s.standbyAmps[k].failed = false then s.serving.set k none else s.serving) ∧
      (windowStandby k s).lines = s.lines ∧ (windowStandby k s).amps = s.amps := by
  obtain ⟨h1, h2, h3, h4⟩ := reportOpt_keeps (healthReport (.standby k) s.standbyAmps[k].failed
    (healthWindow s.standbyAmps[k]).failed)
    { s with standbyAmps := s.standbyAmps.set k (healthWindow s.standbyAmps[k]) }
  have ht := reportOpt_healthTold (.standby k) s.standbyAmps[k].failed
    (healthWindow s.standbyAmps[k]).failed
    { s with standbyAmps := s.standbyAmps.set k (healthWindow s.standbyAmps[k]) }
  unfold windowStandby
  dsimp only
  generalize reportOpt (healthReport (.standby k) s.standbyAmps[k].failed
    (healthWindow s.standbyAmps[k]).failed)
    { s with standbyAmps := s.standbyAmps.set k (healthWindow s.standbyAmps[k]) } = u at *
  cases hs : s.serving[k] with
  | none =>
    dsimp only
    refine ⟨h3, ht, nofun, ?_, h1, h2⟩
    split
    · rw [h4]
      exact (vector_ext_fin fun j => by
        by_cases hj : j = k
        · rw [hj, vector_set_self, hs]
        · rw [vector_set_other hj]).symm
    · exact h4
  | some z =>
    dsimp only
    by_cases hf : (healthWindow s.standbyAmps[k]).failed = true ∧ s.standbyAmps[k].failed = false
    · rw [if_pos (by rw [hf.1, hf.2]; rfl), if_pos hf]
      have hp := handed_pool (.standbyChange k (.channelFailed z)) k none u
      have hfa := hp.faults
      refine ⟨hfa.pool.trans h3, ht.later (handed_later _ k none u), fun y hy _ _ => ?_, ?_, ?_,
        hfa.amps.trans h2⟩
      · rw [← Option.some.inj hy]
        exact report_told _ _
      · exact (handed_serving _ k none u).trans (by rw [h4])
      · show (handed _ k none u).lines = _
        rw [hp.hands.lines, h1]
    · have hno : ((healthWindow s.standbyAmps[k]).failed && !s.standbyAmps[k].failed) = false := by
        rw [Bool.eq_false_iff]
        intro h
        rw [Bool.and_eq_true, Bool.not_eq_true'] at h
        exact hf h
      rw [hno, if_neg hf]
      exact ⟨h3, ht, fun y _ hb hc => absurd ⟨hc, hb⟩ hf, h4, h1, h2⟩

/-! ### The window end as a whole -/

/-- A window end up to the run of the arbiter. -/
def verdicts (s : State) : State :=
  windowStandby 1 (windowStandby 0
    (allZones.foldl (fun t z => windowAmp z t) (allZones.foldl (fun t z => windowZone z t) s)))

theorem windowVerdicts_eq (s : State) :
    windowVerdicts s = if healthChanged s (verdicts s) then arbiter (verdicts s) else verdicts s := rfl

theorem windowStandby_stands (k : Fin 2) (s : State) : (windowStandby k s).lines = s.lines ∧
    (windowStandby k s).amps = s.amps :=
  (windowStandby_judged k s).2.2.2.2

theorem LinesJudged.of {s u v t : State} {z : Zone} (h : LinesJudged u v z) (hl : u.lines[z] = s.lines[z])
    (hw : u.work = s.work) (ht : t.lines[z] = v.lines[z]) (g : Later v t) : LinesJudged s t z := by
  obtain ⟨a, ta, nb, b, lo, tl⟩ := h
  rw [hl, hw] at a
  rw [hl] at ta nb tl
  rw [hl, hw] at b
  refine ⟨by rw [ht]; exact a, by rw [ht]; exact ta.later g, by rw [ht]; exact nb, fun x hx => ?_,
    by rw [ht]; exact lo, fun h1 h2 => ?_⟩
  · obtain ⟨b', h1, h2, h3⟩ := b x hx
    exact ⟨b', by rw [ht]; exact h1, h2, h3.later g⟩
  · rw [ht] at h2 ⊢
    exact (tl h1 h2).later g

section
variable {s : State}

theorem verdicts_later (s : State) : Later s (verdicts s) :=
  (Later.foldl _ (fun t z => windowZone_later z t) allZones s).trans
    ((Later.foldl _ (fun t z => windowAmp_later z t) allZones _).trans
      ((windowStandby_later 0 _).trans (windowStandby_later 1 _)))

theorem SupervisionOnly.work {t : State} (h : SupervisionOnly s t) : t.work = s.work := by rw [h]
theorem SupervisionOnly.phase {t : State} (h : SupervisionOnly s t) : t.phase = s.phase := by rw [h]

/-- A zone not in use is not evaluated (R161, R165). -/
theorem verdicts_unused {z : Zone} (hu : s.work.spk[z].inUse = false) :
    (verdicts s).lines[z] = s.lines[z] ∧ (verdicts s).amps[z] = s.amps[z] := by
  obtain ⟨u, h1, h2⟩ := foldl_visits (f := fun t z => windowZone z t) (ZoneStands.refl z) ZoneStands.trans
    (fun u y hy => windowZone_stands hy u) nodup_allZones (mem_allZones z) s
  have e1 : windowZone z u = u := if_neg (by unfold zoneInUse spk; rw [h1.only.work, hu]; decide)
  rw [e1] at h2
  have h3 := h1.trans h2
  obtain ⟨v, h4, h5⟩ := foldl_visits (f := fun t z => windowAmp z t) (ZoneStands.refl z) ZoneStands.trans
    (fun u y hy => windowAmp_stands hy u) nodup_allZones (mem_allZones z)
    (allZones.foldl (fun t z => windowZone z t) s)
  have h6 := h3.trans h4
  have e2 : windowAmp z v = v := if_neg (by unfold zoneInUse spk; rw [h6.only.work, hu]; decide)
  rw [e2] at h5
  have h7 := h6.trans h5
  unfold verdicts
  rw [(windowStandby_stands 1 _).1, (windowStandby_stands 0 _).1, (windowStandby_stands 1 _).2,
    (windowStandby_stands 0 _).2]
  exact ⟨h7.lines, h7.amp⟩

/-- The lines and the channel of a zone in use are judged, with their reports (R161–R165). -/
theorem verdicts_judged {z : Zone} (hp : s.phase = .running) (hu : s.work.spk[z].inUse = true) :
    LinesJudged s (verdicts s) z ∧ (verdicts s).amps[z] = healthWindow s.amps[z] ∧
      HealthTold (.zone z) s.amps[z].failed (healthWindow s.amps[z]).failed (verdicts s) := by
  obtain ⟨u, h1, h2⟩ := foldl_visits (f := fun t z => windowZone z t) (ZoneStands.refl z) ZoneStands.trans
    (fun u y hy => windowZone_stands hy u) nodup_allZones (mem_allZones z) s
  have huu : u.work.spk[z].inUse = true := by rw [h1.only.work, hu]
  have hj := windowZone_judged (h1.only.phase.trans hp) huu
  have hk := windowZone_keeps z u
  have hsup := SupervisionOnly.trans h1.only (SupervisionOnly.trans (windowZone_supervision z u) h2.only)
  obtain ⟨v, h4, h5⟩ := foldl_visits (f := fun t z => windowAmp z t) (ZoneStands.refl z) ZoneStands.trans
    (fun u y hy => windowAmp_stands hy u) nodup_allZones (mem_allZones z)
    (allZones.foldl (fun t z => windowZone z t) s)
  have hvu : v.work.spk[z].inUse = true := by rw [h4.only.work, hsup.work, hu]
  obtain ⟨ha, hta, hal, -⟩ := windowAmp_judged hvu
  have hvamp : v.amps[z] = s.amps[z] := by
    rw [h4.amp, h2.amp, hk.1, h1.amp]
  have hlate := (windowStandby_later 0 (allZones.foldl (fun t z => windowAmp z t)
    (allZones.foldl (fun t z => windowZone z t) s))).trans (windowStandby_later 1 _)
  have hs1 : (verdicts s).lines = (allZones.foldl (fun t z => windowAmp z t)
      (allZones.foldl (fun t z => windowZone z t) s)).lines := by
    unfold verdicts
    rw [(windowStandby_stands 1 _).1, (windowStandby_stands 0 _).1]
  have hs2 : (verdicts s).amps = (allZones.foldl (fun t z => windowAmp z t)
      (allZones.foldl (fun t z => windowZone z t) s)).amps := by
    unfold verdicts
    rw [(windowStandby_stands 1 _).2, (windowStandby_stands 0 _).2]
  refine ⟨hj.of h1.lines h1.only.work ?_ ?_, ?_, ?_⟩
  · rw [hs1, h5.lines, hal, h4.lines, h2.lines]
  · exact h2.later.trans (h4.later.trans ((windowAmp_later z v).trans (h5.later.trans hlate)))
  · rw [hs2, h5.amp, ha, hvamp]
  · rw [hvamp] at hta
    exact hta.later (h5.later.trans hlate)

/-- Up to the standby channels the pool is as it was. -/
theorem zones_pool (s : State) :
    (allZones.foldl (fun t z => windowAmp z t) (allZones.foldl (fun t z => windowZone z t) s)).standbyAmps =
      s.standbyAmps ∧
    (allZones.foldl (fun t z => windowAmp z t) (allZones.foldl (fun t z => windowZone z t) s)).serving =
      s.serving := by
  have keeps : ∀ (f : State → Zone → State), (∀ u z, (f u z).standbyAmps = u.standbyAmps ∧
      (f u z).serving = u.serving) → ∀ (l : List Zone) (u : State),
      (l.foldl f u).standbyAmps = u.standbyAmps ∧ (l.foldl f u).serving = u.serving := by
    intro f hf l
    induction l with
    | nil => exact fun u => ⟨rfl, rfl⟩
    | cons z l ih => exact fun u => ⟨(ih _).1.trans (hf u z).1, (ih _).2.trans (hf u z).2⟩
  have hz := keeps (fun t z => windowZone z t) (fun u z => (windowZone_keeps z u).2) allZones s
  have ha := keeps (fun t z => windowAmp z t) (fun u z => by
    by_cases hu : u.work.spk[z].inUse = true
    · exact (windowAmp_judged hu).2.2.2
    · rw [show windowAmp z u = u from if_neg hu]
      exact ⟨rfl, rfl⟩) allZones (allZones.foldl (fun t z => windowZone z t) s)
  exact ⟨ha.1.trans hz.1, ha.2.trans hz.2⟩

/-- What is said of a standby channel at a window end, before the arbiter runs. -/
structure StandbyJudged (s t : State) (k : Fin 2) : Prop where
  health  : t.standbyAmps[k] = healthWindow s.standbyAmps[k]
  told    : HealthTold (.standby k) s.standbyAmps[k].failed (healthWindow s.standbyAmps[k]).failed t
  gives   : ∀ z, s.serving[k] = some z → s.standbyAmps[k].failed = false →
    (healthWindow s.standbyAmps[k]).failed = true → Told (.standbyChange k (.channelFailed z)) t
  serving : t.serving[k] = if (healthWindow s.standbyAmps[k]).failed = true ∧
    s.standbyAmps[k].failed = false then none else s.serving[k]

theorem windowStandby_other {j k : Fin 2} (h : j ≠ k) (s : State) :
    (windowStandby k s).standbyAmps[j] = s.standbyAmps[j] ∧
      (windowStandby k s).serving[j] = s.serving[j] := by
  obtain ⟨h1, -, -, h4, -⟩ := windowStandby_judged k s
  rw [h1, h4, vector_set_other h]
  refine ⟨rfl, ?_⟩
  split
  · exact vector_set_other h _ _
  · rfl

theorem windowStandby_self (k : Fin 2) (s : State) : StandbyJudged s (windowStandby k s) k := by
  obtain ⟨h1, h2, h3, h4, -⟩ := windowStandby_judged k s
  refine ⟨by rw [h1, vector_set_self], h2, h3, ?_⟩
  rw [h4]
  split
  · exact vector_set_self _ _ _
  · rfl

/-- Both standby channels are judged (R165, R169). -/
theorem verdicts_standby (s : State) (k : Fin 2) : StandbyJudged s (verdicts s) k := by
  obtain ⟨hp, hs⟩ := zones_pool s
  unfold verdicts
  generalize allZones.foldl (fun t z => windowAmp z t) (allZones.foldl (fun t z => windowZone z t) s) = u at hp hs
  have h0 := windowStandby_self 0 u
  have h1 := windowStandby_self 1 (windowStandby 0 u)
  have k0 := windowStandby_other (j := 0) (k := 1) (by decide) (windowStandby 0 u)
  have k1 := windowStandby_other (j := 1) (k := 0) (by decide) u
  match k with
  | 0 =>
    obtain ⟨a, b, c, d⟩ := h0
    rw [hp] at a b c d
    rw [hs] at c d
    have hl := windowStandby_later 1 (windowStandby 0 u)
    exact ⟨k0.1.trans a, b.later hl, fun z x y w => (c z x y w).later hl, k0.2.trans d⟩
  | 1 =>
    obtain ⟨a, b, c, d⟩ := h1
    rw [k1.1, hp] at a b c d
    rw [k1.2, hs] at c d
    exact ⟨a, b, c, d⟩

/-- A channel serves what it served, or, newly failed, none. -/
theorem StandbyJudged.serves {t : State} {k : Fin 2} (h : StandbyJudged s t k) {z : Zone}
    (hz : t.serving[k] = some z) : s.serving[k] = some z := by
  rw [h.serving] at hz
  split at hz
  · cases hz
  · exact hz

theorem verdicts_oneFeed (h : OneFeed s) : OneFeed (verdicts s) := by
  refine ⟨fun z h0 h1 => ?_, fun k hf => ?_⟩
  · exact h.1 z ((verdicts_standby s 0).serves h0) ((verdicts_standby s 1).serves h1)
  · have hj := verdicts_standby s k
    rw [hj.health] at hf
    rw [hj.serving]
    split
    · rfl
    next hno => exact h.2 k (by by_contra hs; exact hno ⟨hf, by simpa using hs⟩)

theorem healthChanged_iff (s t : State) : healthChanged s t = false ↔
    (∀ z : Zone, t.amps[z].failed = s.amps[z].failed) ∧
      ∀ k : Fin 2, t.standbyAmps[k].failed = s.standbyAmps[k].failed := by
  unfold healthChanged
  simp only [Bool.or_eq_false_iff, List.any_eq_false, mem_allZones, forall_const, bne_iff_ne, not_not,
    bne_eq_false_iff_eq, and_assoc]
  refine and_congr ⟨fun h z => (h z).symm, fun h z => (h z).symm⟩ ?_
  rw [Fin.forall_fin_two]
  exact and_congr eq_comm eq_comm

end

/-- What the pool is after a window end (R167–R169). -/
theorem windowVerdicts_pool (s : State) :
    let t := windowVerdicts s
    let same : Prop := (∀ z : Zone, t.amps[z].failed = s.amps[z].failed) ∧
      ∀ k : Fin 2, t.standbyAmps[k].failed = s.standbyAmps[k].failed
    (same → t.serving = s.serving) ∧
    (¬same → OneFeed s → PoolSettled t ∧ ∀ (k : Fin 2) (z : Zone),
      (s.serving[k] = some z → t.standbyAmps[k].failed = false → failedZone t z = false →
        Told (.standbyChange k (.released z)) t) ∧
      (t.serving[k] = some z → s.serving[k] ≠ some z →
        Told (.standbyChange k (.assigned z)) t ∨ ∃ y, Told (.standbyChange k (.preempted y z)) t)) := by
  intro t same
  have ht : t = windowVerdicts s := rfl
  rw [windowVerdicts_eq] at ht
  have hfa := (arbiter_pool (verdicts s)).faults
  have hsame : same ↔ healthChanged s (verdicts s) = false := by
    rw [healthChanged_iff]
    show ((∀ z : Zone, t.amps[z].failed = s.amps[z].failed) ∧ _) ↔ _
    split at ht
    · rw [ht, hfa.amps, hfa.pool]
    · rw [ht]
  rw [hsame]
  refine ⟨fun hc => ?_, fun hc h => ?_⟩
  · rw [if_neg (by rw [hc]; decide)] at ht
    rw [ht]
    refine vector_ext_fin fun k => ?_
    have hk := ((healthChanged_iff s (verdicts s)).1 hc).2 k
    have hj := verdicts_standby s k
    rw [hj.health] at hk
    rw [hj.serving, if_neg (fun h => by rw [hk, h.2] at h; exact absurd h.1 (by decide))]
  · rw [if_pos (by simpa using hc)] at ht
    have hone := verdicts_oneFeed h
    rw [ht]
    refine ⟨arbiter_settles hone, fun k z => ⟨fun h1 h2 h3 => ?_, fun h1 h2 => ?_⟩⟩
    · have hj := verdicts_standby s k
      rw [hfa.pool] at h2
      rw [hfa.failedZone] at h3
      refine arbiter_releases ?_ h2 h3
      rw [hj.serving, if_neg (fun h => ?_), h1]
      rw [hj.health, h.1] at h2
      cases h2
    · exact ((arbiter_announced (verdicts s)).told k z).1 h1 fun h3 => h2 ((verdicts_standby s k).serves h3)

theorem nextWindow_frame {s v : State} (h : SupervisionOnly s v) : nextWindow v = { s with
    windowEnd := (nextWindow v).windowEnd, lines := (nextWindow v).lines, amps := (nextWindow v).amps
    standbyAmps := (nextWindow v).standbyAmps, serving := (nextWindow v).serving
    reports := (nextWindow v).reports, reportOverflow := (nextWindow v).reportOverflow } := by
  unfold SupervisionOnly at h
  rw [h]
  rfl

/-- A pool stays settled where failed zones, ranks and what the channels serve are the same. -/
theorem PoolSettled.of {s t : State} (h : PoolSettled s) (hf : SameFaults s t) (hs : t.serving = s.serving) :
    PoolSettled t := by
  obtain ⟨h1, h2⟩ := h
  constructor
  · intro k z
    rw [hs, hf.pool, hf.failedZone]
    exact h1 k z
  · intro z
    rw [hf.failedZone, hf.pool, hs]
    simp only [hf.rankOf]
    exact h2 z

/-- Settles O54: each line and channel comes once to its verdict, the arbiter last. -/
theorem windowEnds : Obligations.WindowEnds := by
  intro s d hp hd hle
  have hdue : windowDue s = true := by
    unfold windowDue
    rw [hd]
    simp [State.running, hp, hle]
  have hsup := windowVerdicts_supervision s
  have hrest : Later (verdicts s) (windowVerdicts s) ∧ (windowVerdicts s).lines = (verdicts s).lines ∧
      SameFaults (verdicts s) (windowVerdicts s) := by
    rw [windowVerdicts_eq]
    split
    · exact ⟨arbiter_later _, (arbiter_pool _).hands.lines, (arbiter_pool _).faults⟩
    · exact ⟨.refl _, rfl, .refl _⟩
  obtain ⟨hlater, hlines, hfaults⟩ := hrest
  have hpool := windowVerdicts_pool s
  have hwe : (nextWindow (windowVerdicts s)).windowEnd = some (d + s.work.window) := by
    show ((windowVerdicts s).windowEnd.map fun d => d + (windowVerdicts s).work.window) = _
    rw [hsup]
    show s.windowEnd.map (fun d => d + s.work.window) = _
    rw [hd]
    rfl
  refine ⟨nextWindow (windowVerdicts s), whenever_leaves (o := execWindowEnd s) rfl hdue rfl, hwe, fun z hu => ?_,
    fun z hu => ?_, fun k => ?_, ?_, ?_⟩
  · show (windowVerdicts s).lines[z] = _ ∧ (windowVerdicts s).amps[z] = _
    rw [hlines, hfaults.amps]
    exact verdicts_unused hu
  · obtain ⟨hj, ha, hta⟩ := verdicts_judged hp hu
    have hj' : LinesJudged s (windowVerdicts s) z := hj.of rfl rfl (by rw [hlines]) hlater
    obtain ⟨a, ta, nb, b, lo, tl⟩ := hj'
    refine ⟨a, ta.later (.same rfl rfl), nb, fun x hx => ?_, lo, fun h1 h2 => (tl h1 h2).later (.same rfl rfl), ?_, ?_⟩
    · obtain ⟨b', h1, h2, h3⟩ := b x hx
      exact ⟨b', h1, h2, h3.later (.same rfl rfl)⟩
    · show HealthJudged _ (windowVerdicts s).amps[z]
      rw [hfaults.amps, ha]
      exact healthWindow_judged _
    · show HealthTold _ _ (windowVerdicts s).amps[z].failed _
      rw [hfaults.amps, ha]
      exact (hta.later hlater).later (.same rfl rfl)
  · have hj := verdicts_standby s k
    show HealthJudged _ (windowVerdicts s).standbyAmps[k] ∧
      HealthTold _ _ (windowVerdicts s).standbyAmps[k].failed _ ∧ ∀ z, _ → _ →
        (windowVerdicts s).standbyAmps[k].failed = true → _
    rw [hfaults.pool, hj.health]
    exact ⟨healthWindow_judged _, (hj.told.later hlater).later (.same rfl rfl),
      fun z h1 h2 h3 => ((hj.gives z h1 h2 h3).later hlater).later (.same rfl rfl)⟩
  · exact ⟨hpool.1, fun hn ho => ⟨(hpool.2 hn ho).1.of ⟨rfl, rfl, rfl, rfl⟩ rfl, (hpool.2 hn ho).2⟩⟩
  · exact nextWindow_frame hsup

end Sys2Proof.Machine

namespace Sys2Proof.Machine

/-! ## The standby pool is kept (O9) -/

/-- From `s` to `t` the standby channels serve the same zones and none has failed or cleared. -/
structure ServingStill (s t : State) : Prop where
  serving : t.serving = s.serving
  failed  : ∀ k : Fin 2, t.standbyAmps[k].failed = s.standbyAmps[k].failed

/-- Beside it the failed zones are the same, with the same ranks. -/
structure PoolStill (s t : State) : Prop extends ServingStill s t where
  zones : ∀ z : Zone, failedZone t z = failedZone s z
  ranks : ∀ z : Zone, failedZone s z = true → rankOf t z = rankOf s z

section
variable {s t u : State}

theorem ServingStill.refl (s : State) : ServingStill s s := ⟨rfl, fun _ => rfl⟩

theorem ServingStill.trans (h : ServingStill s t) (g : ServingStill t u) : ServingStill s u :=
  ⟨g.serving.trans h.serving, fun k => (g.failed k).trans (h.failed k)⟩

theorem PoolStill.trans (h : PoolStill s t) (g : PoolStill t u) : PoolStill s u :=
  ⟨h.toServingStill.trans g.toServingStill, fun z => (g.zones z).trans (h.zones z),
    fun z hz => (g.ranks z ((h.zones z).trans hz)).trans (h.ranks z hz)⟩

theorem SameFaults.poolStill (h : SameFaults s t) (hs : t.serving = s.serving) : PoolStill s t :=
  ⟨⟨hs, fun k => by rw [h.pool]⟩, h.failedZone, fun z _ => h.rankOf z⟩

theorem PoolStill.of (hl : t.lists = s.lists) (hw : t.work.spk = s.work.spk) (ha : t.amps = s.amps)
    (hp : t.standbyAmps = s.standbyAmps) (hs : t.serving = s.serving) : PoolStill s t :=
  SameFaults.poolStill ⟨hl, hw, ha, hp⟩ hs

theorem PoolStill.refl (s : State) : PoolStill s s := (SameFaults.refl s).poolStill rfl

theorem ServingStill.oneFeed (h : ServingStill s t) (hs : OneFeed s) : OneFeed t := by
  obtain ⟨h1, h2⟩ := hs
  unfold OneFeed
  rw [h.serving]
  exact ⟨h1, fun k hk => h2 k ((h.failed k).symm.trans hk)⟩

theorem PoolStill.settled (h : PoolStill s t) (hs : PoolSettled s) : PoolSettled t := by
  obtain ⟨h1, h2⟩ := hs
  refine ⟨fun k z hz => ?_, fun z hz hw k => ?_⟩
  · rw [h.serving] at hz
    rw [h.failed, h.zones]
    exact h1 k z hz
  · rw [h.zones] at hz
    rw [h.serving] at hw ⊢
    obtain ⟨ha, hb⟩ := h2 z hz hw k
    refine ⟨fun hn => (h.failed k).trans (ha hn), fun y hy => ?_⟩
    rw [h.ranks z hz, h.ranks y (h1 k y hy).2]
    exact hb y hy

end

/-- The arbiter has run over the pool as it was in `s` (R167). -/
def RunsArbiter (s t : State) : Prop :=
  ∃ u, ServingStill s u ∧ Later s u ∧ PoolStill (arbiter u) t ∧ Later (arbiter u) t

/-- What a change of zones does to the pool: nothing that the arbiter is to settle, or it has run. -/
def PoolMoves (s t : State) : Prop :=
  (ServingStill s t ∧ (OutputsFollow s → PoolStill s t)) ∨ RunsArbiter s t

section
variable {s t : State}

theorem PoolStill.moves (h : PoolStill s t) : PoolMoves s t := .inl ⟨h.toServingStill, fun _ => h⟩

theorem PoolMoves.oneFeed (h : PoolMoves s t) (hs : OneFeed s) : OneFeed t := by
  rcases h with ⟨h, -⟩ | ⟨u, hu, -, ht, -⟩
  · exact h.oneFeed hs
  · exact ht.toServingStill.oneFeed (arbiter_oneFeed (hu.oneFeed hs))

theorem PoolMoves.settled (h : PoolMoves s t) (ho : OutputsFollow s) (h1 : OneFeed s) (hs : PoolSettled s) :
    PoolSettled t := by
  rcases h with ⟨-, h⟩ | ⟨u, hu, -, ht, -⟩
  · exact (h ho).settled hs
  · exact ht.settled (arbiter_settles (hu.oneFeed h1))

theorem PoolMoves.announced (h : PoolMoves s t) (hl : Later s t) : Announced s t := by
  rcases h with ⟨h, -⟩ | ⟨u, hu, hlu, ht, hlt⟩
  · exact .same hl h.serving
  · exact (Announced.same hlu hu.serving).trans ((arbiter_announced u).trans (.same hlt ht.serving))

end

/-! ### Offers and removals -/

theorem updateLock_still (s : State) : PoolStill s (updateLock s) := by
  have hp : (updateLock s).standbyAmps = s.standbyAmps := by rw [updateLock_frame]
  exact .of (updateLock_lists s) (by rw [updateLock_work]) (updateLock_amps s) hp (updateLock_serving s)

theorem isEmpty_of_head {l l' : List Claim}
    (h : (l.head?.map fun c => c.prio) = l'.head?.map fun c => c.prio) : l.isEmpty = l'.isEmpty := by
  cases l <;> cases l' <;> first | rfl | cases h

theorem rankOf_eq (s : State) (z : Zone) :
    rankOf s z = (s.lists[z].head?.map fun c => c.prio).getD 0 := by
  unfold rankOf
  cases s.lists[z].head? <;> rfl

/-- A change of one zone's list that keeps its winner, as R88 compares it, leaves the failed zones and their
ranks. -/
theorem winner_still {s t : State} {z : Zone} (h : ListOnly z s t) (hw : winnerOf t z = winnerOf s z) :
    PoolStill s t := by
  obtain ⟨hf, ho⟩ := h
  have hhead : (t.lists[z].head?.map fun c => c.prio) = s.lists[z].head?.map fun c => c.prio := by
    have := congrArg (Option.map fun c : Claim => c.prio) hw
    unfold winnerOf at this
    rw [Option.map_map, Option.map_map] at this
    exact this
  have hempty := isEmpty_of_head hhead
  have hwork : t.work = s.work := by rw [hf]
  have hamps : t.amps = s.amps := by rw [hf]
  have hrank : rankOf t z = rankOf s z := by
    rw [rankOf_eq, rankOf_eq, hhead]
  refine ⟨⟨by rw [hf], fun k => by rw [hf]⟩, fun y => ?_, fun y _ => ?_⟩
  · unfold failedZone zoneInUse spk
    rw [hwork, hamps]
    by_cases hy : y = z
    · rw [hy, hempty]
    · rw [ho y hy]
  · by_cases hy : y = z
    · rw [hy, hrank]
    · unfold rankOf
      rw [ho y hy]

theorem runsArbiter_lock {s u : State} (hs : ServingStill s u) (hl : Later s u) :
    RunsArbiter s (updateLock (arbiter u)) :=
  ⟨u, hs, hl, updateLock_still _, updateLock_later _⟩

/-- An operation on one zone's list, settled in full, leaves the pool or has run the arbiter (R88, R167). -/
theorem settle_poolMoves {z : Zone} {f : State → State} {s : State} (h : ListOnly z s (f s))
    (hl : Later s (f s)) : PoolMoves s (settle z f s) := by
  unfold settle
  dsimp only
  split
  next hw => exact ((winner_still h hw).trans (updateLock_still _)).moves
  next hw =>
    -- the state handed on, before the arbiter
    have hs : ∀ a b o, SoundsOnly (setOut z o (f s)) (listenerChange a b (setOut z o (f s))) :=
      fun a b o => listenerChange_sounds a b _
    unfold handOver
    dsimp only
    generalize hu : listenerChange (f s).outs[z].effective (outAfterWinner (f s).rif.ring (spk (f s) z).trim
      (f s).lists[z].head? (f s).outs[z]).effective (setOut z (outAfterWinner (f s).rif.ring (spk (f s) z).trim
      (f s).lists[z].head? (f s).outs[z]) (f s)) = u
    have hlu : Later (f s) u := by
      rw [← hu]
      exact Later.trans (t := setOut z _ (f s)) (.same rfl rfl) (listenerChange_later _ _ _)
    have hu' := hs (f s).outs[z].effective (outAfterWinner (f s).rif.ring (spk (f s) z).trim
      (f s).lists[z].head? (f s).outs[z]).effective (outAfterWinner (f s).rif.ring (spk (f s) z).trim
      (f s).lists[z].head? (f s).outs[z])
    rw [hu] at hu'
    obtain ⟨hf, ho⟩ := h
    have hserv : u.serving = s.serving := by rw [hu'.serving]; show (f s).serving = _; rw [hf]
    have hpool : u.standbyAmps = s.standbyAmps := by
      rw [hu'.hands.standbyAmps]; show (f s).standbyAmps = _; rw [hf]
    have hamps : u.amps = s.amps := by rw [hu'.hands.amps]; show (f s).amps = _; rw [hf]
    have hwork : u.work = s.work := by rw [hu'.hands.work]; show (f s).work = _; rw [hf]
    have hlists : u.lists = (f s).lists := hu'.hands.lists
    have hstill : ServingStill s u := ⟨hserv, fun k => by rw [hpool]⟩
    split
    next hrun =>
      exact .inr (runsArbiter_lock hstill (hl.trans hlu))
    next hrun =>
      refine .inl ⟨hstill.trans (updateLock_still u).toServingStill, fun _ => PoolStill.trans ⟨hstill, fun y => ?_,
        fun y hy => ?_⟩ (updateLock_still u)⟩
      · by_cases hyz : y = z
        · subst hyz
          have h1 : failedZone u y = false := by
            rw [Bool.eq_false_iff]
            intro hc
            unfold failedZone at hc
            simp only [Bool.and_eq_true] at hc
            exact hrun (by rw [hc.1.1.2, hc.1.2]; rfl)
          have h2 : failedZone s y = false := by
            rw [Bool.eq_false_iff]
            intro hc
            unfold failedZone at hc
            simp only [Bool.and_eq_true] at hc
            refine hrun ?_
            unfold spk at hc ⊢
            rw [hamps, hwork, hc.1.1.2, hc.1.2]
            rfl
          rw [h1, h2]
        · unfold failedZone zoneInUse spk
          rw [hwork, hamps, hlists, ho y hyz]
      · have hyz : y ≠ z := by
          rintro rfl
          unfold failedZone at hy
          simp only [Bool.and_eq_true] at hy
          refine hrun ?_
          unfold spk at hy ⊢
          rw [hamps, hwork, hy.1.1.2, hy.1.2]
          rfl
        unfold rankOf
        rw [hlists, ho y hyz]

theorem offer_poolMoves (z : Zone) (c : Claim) (s : State) : PoolMoves s (offer z c s) := by
  have hl := listOnly_listRel z
  have hr := later_zoneRel.list z
  unfold offer
  exact settle_poolMoves (hl.offered c s) (hr.offered c s)

theorem removal_poolMoves (z : Zone) (p : Claim → Bool) (s : State) : PoolMoves s (removal z p s) := by
  have hl := listOnly_listRel z
  have hr := later_zoneRel.list z
  unfold removal
  split
  · exact settle_poolMoves (hl.removed p s) (hr.removed p s)
  · exact (PoolStill.refl s).moves

/-! ### A Speaker Zone Map write -/

theorem evalOutputLost_keeps (z : Zone) (s : State) : (evalOutputLost z s).amps = s.amps ∧
    (evalOutputLost z s).standbyAmps = s.standbyAmps ∧ (evalOutputLost z s).serving = s.serving := by
  unfold evalOutputLost
  dsimp only
  split
  · unfold report
    split <;> exact ⟨rfl, rfl, rfl⟩
  · exact ⟨rfl, rfl, rfl⟩

theorem zoneEnters_keeps (z : Zone) (e : SpkZone) (s : State) : (zoneEnters z e s).serving = s.serving ∧
    (zoneEnters z e s).standbyAmps = s.standbyAmps ∧ (zoneEnters z e s).lists = s.lists ∧
    (zoneEnters z e s).work = s.work ∧ ∀ y : Zone, y ≠ z → (zoneEnters z e s).amps[y] = s.amps[y] := by
  unfold zoneEnters
  exact ⟨rfl, rfl, rfl, rfl, fun y hy => vector_set_other hy _ _⟩

theorem lineCfgChange_keeps (z : Zone) (a b : SpkZone) (s : State) : (lineCfgChange z a b s).amps = s.amps ∧
    (lineCfgChange z a b s).standbyAmps = s.standbyAmps ∧ (lineCfgChange z a b s).serving = s.serving := by
  unfold lineCfgChange
  split
  · exact ⟨rfl, rfl, rfl⟩
  · exact evalOutputLost_keeps z _


theorem failedZone_unused {s : State} {z : Zone} (h : s.work.spk[z].inUse = false) :
    failedZone s z = false := by
  unfold failedZone zoneInUse spk
  rw [h]
  rfl

theorem failedZone_empty {s : State} {z : Zone} (h : s.lists[z] = []) : failedZone s z = false := by
  unfold failedZone
  rw [h]
  simp

/-- A pool whose failed zones are none keeps still where no failed zone comes. -/
theorem PoolStill.at {s t : State} {z : Zone} (hs : ServingStill s t)
    (hy : ∀ y, y ≠ z → failedZone t y = failedZone s y ∧ rankOf t y = rankOf s y)
    (h1 : failedZone s z = false) (h2 : failedZone t z = false) : PoolStill s t := by
  refine ⟨hs, fun y => ?_, fun y hf => ?_⟩
  · by_cases h : y = z
    · rw [h, h1, h2]
    · exact (hy y h).1
  · refine (hy y ?_).2
    rintro rfl
    rw [h1] at hf
    cases hf

theorem spkWritten_poolMoves (z : Zone) (e : SpkZone) (s : State) :
    PoolMoves s (spkWritten z s.work.spk[z] e { s with work := putEntry z.val (.spkZone e) s.work }) := by
  generalize hw : putEntry z.val (.spkZone e) s.work = w
  have hself : w.spk[z] = e := by rw [← hw]; exact putEntry_spk_self z e s.work
  have hother : ∀ y, y ≠ z → w.spk[y] = s.work.spk[y] := fun y hy => by
    rw [← hw]
    exact putEntry_spk_other hy e s.work
  -- at the other zones a change of this zone's entry and records changes nothing
  have others : ∀ (u : State), u.work.spk = w.spk → u.lists = s.lists → (∀ y, y ≠ z → u.amps[y] = s.amps[y]) →
      ∀ y, y ≠ z → failedZone u y = failedZone s y ∧ rankOf u y = rankOf s y := by
    intro u h1 h2 h3 y hy
    unfold failedZone rankOf zoneInUse spk
    rw [h1, h2, h3 y hy, hother y hy]
    exact ⟨rfl, rfl⟩
  unfold spkWritten
  split
  next hold hnew =>
    -- the zone leaves use
    unfold zoneLeaves
    dsimp only
    have hs1 := listenerChange_sounds s.outs[z].effective .none (setOut z mutedOut (setList z [] { s with work := w }))
    have hl1 := listenerChange_later s.outs[z].effective .none (setOut z mutedOut (setList z [] { s with work := w }))
    generalize listenerChange s.outs[z].effective .none (setOut z mutedOut (setList z [] { s with work := w })) = u
      at hs1 hl1
    refine .inr (runsArbiter_lock (ServingStill.trans (t := u) ⟨hs1.serving, fun k => ?_⟩ ⟨rfl, fun _ => rfl⟩) ?_)
    · rw [hs1.hands.standbyAmps]
      rfl
    · exact Later.trans (t := setOut z mutedOut (setList z [] { s with work := w })) (.same rfl rfl)
        (hl1.trans (.same rfl rfl))
  next hold hnew =>
    -- the zone enters use
    obtain ⟨h1, h2, h3, h4, h5⟩ := zoneEnters_keeps z e { s with work := w }
    have hstill : ServingStill s (zoneEnters z e { s with work := w }) := ⟨h1, fun k => by rw [h2]⟩
    refine .inl ⟨hstill, fun ho => PoolStill.at (z := z) hstill
      (others _ (by rw [h4]) h3 h5) (failedZone_unused hold) (failedZone_empty ?_)⟩
    rw [h3]
    exact (ho.quiet hold).1
  next hold hnew =>
    have h1 : PoolMoves s (eligibleChange s.work.spk[z] e (lineCfgChange z s.work.spk[z] e
        (trimChange z s.work.spk[z] e { s with work := w }))) := by
      have ht : ∀ v : State, ∃ o, trimChange z s.work.spk[z] e v = { v with outs := o } := by
        intro v
        unfold trimChange
        split
        · exact ⟨v.outs, rfl⟩
        · exact ⟨_, rfl⟩
      obtain ⟨o, ht⟩ := ht { s with work := w }
      rw [ht]
      have hk := lineCfgChange_keeps z s.work.spk[z] e { s with work := w, outs := o }
      have hs := lineCfgChange_supervision z s.work.spk[z] e { s with work := w, outs := o }
      have hl := lineCfgChange_later z s.work.spk[z] e { s with work := w, outs := o }
      generalize lineCfgChange z s.work.spk[z] e { s with work := w, outs := o } = u at hk hs hl
      obtain ⟨ha, hp, hv⟩ := hk
      have hwork : u.work = w := hs.work
      have hlists : u.lists = s.lists := by rw [hs]
      have hstill : ServingStill s u := ⟨hv, fun k => by rw [hp]⟩
      have hlate : Later s u := Later.trans (t := { s with work := w, outs := o }) (.same rfl rfl) hl
      unfold eligibleChange
      split
      next hel =>
        refine PoolStill.moves ⟨hstill, fun y => ?_, fun y _ => by unfold rankOf; rw [hlists]⟩
        by_cases hy : y = z
        · subst hy
          unfold failedZone zoneInUse spk
          rw [hwork, hself, hlists, ha, hel, hold, hnew]
        · exact (others u (by rw [hwork]) hlists (fun y _ => by rw [ha]) y hy).1
      next => exact .inr ⟨u, hstill, hlate, .refl _, .refl _⟩
    exact h1
  next hold hnew =>
    refine PoolStill.moves (PoolStill.at (z := z) ⟨rfl, fun _ => rfl⟩ (others _ rfl rfl fun _ _ => rfl)
      (failedZone_unused hold) (failedZone_unused ?_))
    show w.spk[z].inUse = false
    rw [hself, hnew]

/-! ### Window ends and the other moves -/

theorem windowVerdicts_oneFeed {s : State} (h : OneFeed s) : OneFeed (windowVerdicts s) := by
  rw [windowVerdicts_eq]
  split
  · exact arbiter_oneFeed (verdicts_oneFeed h)
  · exact verdicts_oneFeed h

theorem windowVerdicts_settled {s : State} (h1 : OneFeed s) (hs : PoolSettled s) :
    PoolSettled (windowVerdicts s) := by
  obtain ⟨hsame, hrun⟩ := windowVerdicts_pool s
  by_cases h : (∀ z : Zone, (windowVerdicts s).amps[z].failed = s.amps[z].failed) ∧
      ∀ k : Fin 2, (windowVerdicts s).standbyAmps[k].failed = s.standbyAmps[k].failed
  · have hsup := windowVerdicts_supervision s
    have hl : (windowVerdicts s).lists = s.lists := by rw [hsup]
    refine PoolStill.settled ⟨⟨hsame h, h.2⟩, fun z => ?_, fun z _ => ?_⟩ hs
    · unfold failedZone zoneInUse spk
      rw [hsup.work, h.1 z, hl]
    · unfold rankOf
      rw [hl]
  · exact (hrun h h1).1

theorem windowVerdicts_announced (s : State) : Announced s (windowVerdicts s) := by
  have h1 : Announced s (verdicts s) := by
    refine ⟨verdicts_later s, fun k z => ⟨fun h g => absurd ((verdicts_standby s k).serves h) g, fun h g => ?_⟩⟩
    have hj := verdicts_standby s k
    rw [hj.serving] at g
    split at g
    next hf => exact .inr (.inr (hj.gives z h hf.2 hf.1))
    next => exact absurd h g
  rw [windowVerdicts_eq]
  split
  · exact h1.trans (arbiter_announced _)
  · exact h1

theorem SoundsOnly.poolStill {s t : State} (h : SoundsOnly s t) : PoolStill s t :=
  .of h.hands.lists (by rw [h.hands.work]) h.hands.amps h.hands.standbyAmps h.serving

theorem enterRing_still (st : RingState) (s : State) : PoolStill s (enterRing st s) := by
  have h := ringToOutputs_hands (setRing st s)
  exact .of h.lists (by unfold enterRing; rw [h.work]; rfl) h.amps h.standbyAmps (ringToOutputs_serving _)

/-- The load keeps the pool, no claim being held before it (R203). -/
theorem load_poolMoves {s : State} (hp : s.phase = .loading) : PoolMoves s (enterRing .seeking (load s)) := by
  have hl : (load s).lists = s.lists := by unfold load setRif; rfl
  have hst : ServingStill s (load s) := by unfold load setRif; exact ⟨rfl, fun _ => rfl⟩
  refine .inl ⟨hst.trans (enterRing_still _ _).toServingStill,
    fun ho => PoolStill.trans ⟨hst, fun z => ?_, fun z hz => ?_⟩ (enterRing_still _ _)⟩
  · have he := ((ho.2 hp).2 z).1
    rw [failedZone_empty he, failedZone_empty (s := load s) (by rw [hl]; exact he)]
  · rw [failedZone_empty ((ho.2 hp).2 z).1] at hz
    cases hz

theorem restartEffect_pool (b : Bool) (s : State) :
    (∀ k : Fin 2, (restartEffect b s).serving[k] = none) ∧
      ∀ z : Zone, failedZone (restartEffect b s) z = false := by
  rw [restartEffect_eq]
  have hs := (restartTail_frame (ringRestart (chansRestart (restartBegun b s)))).2.2.2.2.2.2.2.2
  have ha : ∀ u : State, (supervisionRestart (wardenRestart (cadsRestart (outsRestart u)))).amps =
      updAll (updAll u.amps fun h => freshHealth h.active true) healthRestart := by
    intro u
    unfold supervisionRestart windowRestart wardenRestart cadsRestart outsRestart setWarden
    rfl
  refine ⟨fun k => ?_, fun z => ?_⟩
  · rw [hs]
    exact Vector.getElem_replicate _
  · unfold failedZone
    rw [ha, updAll_get, updAll_get]
    simp [healthRestart, freshHealth]

theorem abortCapture_pool (s : State) : (abortCapture s).standbyAmps = s.standbyAmps ∧
    (abortCapture s).serving = s.serving := by
  rw [abortCapture_frame]
  exact ⟨rfl, rfl⟩

/-- What a move does to the standby pool. -/
theorem Move.pool {c : Instr} {s t : State} (hm : Move c s t) : PoolMoves s t ∨
    (∃ (p : Nat) (e : Phrase), t = Machine.phraseWritten p { s with work := putEntry p (.phrase e) s.work }) ∨ t = windowVerdicts s ∨
      ((c = .restartEffect ∨ ∃ b, c = .coldStart b) ∧ (∀ k : Fin 2, t.serving[k] = none) ∧
        ∀ z : Zone, failedZone t z = false) := by
  have still : ∀ {u v : State}, v.lists = u.lists → v.work.spk = u.work.spk → v.amps = u.amps →
      v.standbyAmps = u.standbyAmps → v.serving = u.serving → PoolMoves u v := fun h1 h2 h3 h4 h5 =>
    (PoolStill.of h1 h2 h3 h4 h5).moves
  cases hm with
  | aside ht => exact .inl (by rw [ht]; exact still rfl rfl rfl rfl rfl)
  | report b s => exact .inl (report_sounds b s).poolStill.moves
  | captureEnded s => exact .inl (by rw [endCapture_frame]; exact still rfl rfl rfl rfl rfl)
  | captureSampled v s => exact .inl (by rw [captureSample_frame]; exact still rfl rfl rfl rfl rfl)
  | recorded r s _ _ _ _ =>
    exact .inl (PoolStill.trans (s := s) (t := { s with acts := s.acts ++ [r] }) (.of rfl rfl rfl rfl rfl)
      (updateLock_still _)).moves
  | recordGone dz b s =>
    exact .inl (PoolStill.trans (s := s) (t := { s with acts := s.acts.filter fun r => r.dz != dz, overflow := b })
      (.of rfl rfl rfl rfl rfl) (updateLock_still _)).moves
  | offer z x s _ => exact .inl (offer_poolMoves z x s)
  | removal z p s => exact .inl (removal_poolMoves z p s)
  | started n s _ _ => exact .inl (startChan_sounds n s).poolStill.moves
  | begun n k s _ _ _ => exact .inl (beginStep_sounds n k s).poolStill.moves
  | stopped n st s _ _ => exact .inl (stopChan_sounds n st s).poolStill.moves
  | tables w s h1 _ _ _ => exact .inl (still rfl h1 rfl rfl rfl)
  | zoneWritten z e s _ => exact .inl (spkWritten_poolMoves z e s)
  | phraseWritten p e s _ _ => exact .inr (.inl ⟨p, e, rfl⟩)
  | programWritten n e e' s _ _ =>
    exact .inl (PoolStill.trans (s := s) (t := { s with work := putEntry n.val (.program e') s.work })
      (.of rfl rfl rfl rfl rfl) (progWritten_sounds n e' _).poolStill).moves
  | tableDone x s _ => exact .inl (by rw [commitGoesOn_frame]; exact still rfl rfl rfl rfl rfl)
  | powerLost s => exact .inl (by rw [cutCommit_frame]; exact still rfl rfl rfl rfl rfl)
  | windowJudged s => exact .inr (.inr (.inl rfl))
  | health a b s ha hb =>
    refine .inl (PoolStill.moves ⟨⟨rfl, hb⟩, fun z => ?_, fun z _ => rfl⟩)
    unfold failedZone zoneInUse spk
    dsimp only
    rw [ha z]
  | ringEntered st s _ _ => exact .inl (enterRing_still st s).moves
  | ringLost s _ =>
    refine .inl (PoolStill.trans (s := s) (t := leaveLocked s) (.of rfl rfl rfl rfl rfl)
      ((enterRing_still .lost (leaveLocked s)).trans ?_)).moves
    exact .of (abortCapture_lists _) (by rw [abortCapture_work]) (abortCapture_amps _)
      (abortCapture_pool _).1 (abortCapture_pool _).2
  | loaded s hp => exact .inl (load_poolMoves hp)
  | restarted b s hc _ _ => exact .inr (.inr (.inr ⟨.inl hc, restartEffect_pool b s⟩))
  | cold b s t hc ht =>
    cases ht
    refine .inr (.inr (.inr ⟨.inr ⟨b, hc⟩, fun k => Vector.getElem_replicate _, fun z =>
      failedZone_empty (coldState_silent _ _ _ _ _ _ _ z).1⟩))
  | ticked o s _ => exact .inl (by rw [tick_eq]; exact still rfl rfl rfl rfl rfl)
  | _ => exact .inl (still rfl rfl rfl rfl rfl)

theorem oneFeed_of_none {s : State} (h : ∀ k : Fin 2, s.serving[k] = none) : OneFeed s :=
  ⟨fun z h0 => (by rw [h 0] at h0; cases h0), fun k _ => h k⟩

theorem settled_of_none {s : State} (h : ∀ k : Fin 2, s.serving[k] = none)
    (hz : ∀ z : Zone, failedZone s z = false) : PoolSettled s :=
  ⟨fun k z hk => (by rw [h k] at hk; cases hk), fun z hf _ => (by rw [hz z] at hf; cases hf)⟩

theorem Move.oneFeed {c : Instr} {s t : State} (hm : Move c s t) (h : OneFeed s) : OneFeed t := by
  rcases hm.pool with hp | ⟨p, e, rfl⟩ | rfl | ⟨-, hn, -⟩
  · exact hp.oneFeed h
  · exact phraseWritten_keeps (fun n st s h => (stopChan_sounds n st s).poolStill.toServingStill.oneFeed h)
      (fun n k s h => (beginStep_sounds n k s).poolStill.toServingStill.oneFeed h)
      (fun z q s h => (removal_poolMoves z q s).oneFeed h) p _ h
  · exact windowVerdicts_oneFeed h
  · exact oneFeed_of_none hn

/-- What settles the pool at every step: the outputs follow the zones, no two channels serve one zone, and the
arbiter has nothing left to do. -/
def PoolKept (s : State) : Prop := OutputsFollow s ∧ OneFeed s ∧ PoolSettled s

theorem PoolMoves.kept {s t : State} (h : PoolMoves s t) (ho : OutputsFollow t) (hs : PoolKept s) :
    PoolKept t := by
  obtain ⟨h1, h2, h3⟩ := hs
  exact ⟨ho, h.oneFeed h2, h.settled h1 h2 h3⟩

theorem Move.poolKept {c : Instr} {s t : State} (hm : Move c s t) (hs : PoolKept s) : PoolKept t := by
  have ho := hm.follow hs.1
  rcases hm.pool with hp | ⟨p, e, rfl⟩ | rfl | ⟨-, hn, hz⟩
  · exact hp.kept ho hs
  · refine phraseWritten_keeps (P := PoolKept)
      (fun n st s h => (stopChan_sounds n st s).poolStill.moves.kept ((stopChan_sounds n st s).follow h.1) h)
      (fun n k s h => (beginStep_sounds n k s).poolStill.moves.kept ((beginStep_sounds n k s).follow h.1) h)
      (fun z q s h => (removal_poolMoves z q s).kept (removal_follow z q s h.1) h) p _ ?_
    exact (PoolStill.of (s := s) (t := { s with work := putEntry p (.phrase e) s.work })
      rfl rfl rfl rfl rfl).moves.kept (hs.1.work rfl) hs
  · exact ⟨ho, windowVerdicts_oneFeed hs.2.1, windowVerdicts_settled hs.2.1 hs.2.2⟩
  · exact ⟨ho, oneFeed_of_none hn, settled_of_none hn hz⟩

/-! ### The reports of the pool -/

theorem enterRing_later (st : RingState) (s : State) : Later s (enterRing st s) :=
  Later.trans (t := setRing st s) (.same rfl rfl) (ringToOutputs_later _)

/-- But for the sending of a report, the millisecond and a start, reports are only added. -/
theorem Move.later {c : Instr} {s t : State} (hm : Move c s t) (h1 : c ≠ .insertionBegin)
    (h2 : ∀ o, c ≠ .timebaseMillisecond o) (h3 : c ≠ .restartEffect) (h4 : ∀ b, c ≠ .coldStart b) :
    Later s t := by
  cases hm with
  | aside ht => rw [ht]; exact .same rfl rfl
  | report b s => exact report_later b s
  | reportSent s hc => exact absurd hc h1
  | captureEnded s => rw [endCapture_frame]; exact .same rfl rfl
  | captureSampled v s => rw [captureSample_frame]; exact .same rfl rfl
  | recorded r s _ _ _ _ => exact Later.trans (t := { s with acts := s.acts ++ [r] }) (.same rfl rfl) (updateLock_later _)
  | recordGone dz b s =>
    exact Later.trans (t := { s with acts := s.acts.filter fun r => r.dz != dz, overflow := b }) (.same rfl rfl)
      (updateLock_later _)
  | offer z x s _ => exact later_zoneRel.offer z x s
  | removal z p s => exact later_zoneRel.removal z p s
  | started n s _ _ => exact startChan_later n s
  | begun n k s _ _ _ => exact beginStep_later n k s
  | zoneWritten z e s _ =>
    exact Later.trans (t := { s with work := putEntry z.val (.spkZone e) s.work }) (.same rfl rfl)
      (spkWritten_later z _ e _)
  | phraseWritten p e s _ _ =>
    exact Later.trans (t := { s with work := putEntry p (.phrase e) s.work }) (.same rfl rfl)
      (later_zoneRel.phraseWritten stopChan_later beginStep_later p _)
  | programWritten n e e' s _ _ => 
    exact Later.trans (t := { s with work := putEntry n.val (.program e') s.work }) (.same rfl rfl)
      (progWritten_later n e' _)
  | tableDone x s _ => rw [commitGoesOn_frame]; exact .same rfl rfl
  | powerLost s => rw [cutCommit_frame]; exact .same rfl rfl
  | windowJudged s => exact windowVerdicts_later s
  | ringEntered st s _ _ => exact enterRing_later st s
  | ringLost s _ =>
    exact Later.trans (t := leaveLocked s) (.same rfl rfl)
      ((enterRing_later .lost _).trans (abortCapture_later _))
  | loaded s _ =>
    have h : Later s (load s) := by unfold load setRif; exact .same rfl rfl
    exact h.trans (enterRing_later _ _)
  | restarted b s hc _ _ => exact absurd hc h3
  | cold b s t hc _ => exact absurd hc (h4 b)
  | ticked o s hc => exact absurd hc (h2 o)
  | _ => exact .same rfl rfl

theorem Move.announced {c : Instr} {s t : State} (hm : Move c s t) (h1 : c ≠ .insertionBegin)
    (h2 : ∀ o, c ≠ .timebaseMillisecond o) (h3 : c ≠ .restartEffect) (h4 : ∀ b, c ≠ .coldStart b) :
    Announced s t := by
  have hl := hm.later h1 h2 h3 h4
  rcases hm.pool with hp | ⟨p, e, rfl⟩ | rfl | ⟨hc, -⟩
  · exact hp.announced hl
  · refine phraseWritten_keeps (P := Announced s)
      (fun n st u h => h.trans (.same (stopChan_later n st u) (stopChan_sounds n st u).serving))
      (fun n k u h => h.trans (.same (beginStep_later n k u) (beginStep_sounds n k u).serving))
      (fun z q u h => h.trans ((removal_poolMoves z q u).announced (later_zoneRel.removal z q u))) p _ ?_
    exact .same (.same rfl rfl) rfl
  · exact windowVerdicts_announced s
  · rcases hc with hc | ⟨b, hc⟩
    · exact absurd hc h3
    · exact absurd hc (h4 b)

theorem exec_announced {c : Instr} {s t : State} (h : exec c s = .next t) (h1 : c ≠ .insertionBegin)
    (h2 : ∀ o, c ≠ .timebaseMillisecond o) (h3 : c ≠ .restartEffect) (h4 : ∀ b, c ≠ .coldStart b) :
    Announced s t := by
  have hm := exec_moves h
  clear h
  induction hm with
  | refl => exact .refl s
  | tail _ hm ih => exact ih.trans (hm.announced h1 h2 h3 h4)

theorem insertionBegin_serving {s t : State} (h : exec .insertionBegin s = .next t) : t.serving = s.serving := by
  rcases whenever_cases (f := fun s => match s.outbound with
      | m :: rest => beginInsertion m { s with outbound := rest }
      | [] =>
        match s.reports with
        | r :: rest => beginInsertion (reportMsg s r) { s with reports := rest }
        | [] => s) (p := mayInsert s) h with ⟨-, ht⟩ | ⟨-, ht⟩
  · rw [ht]
    split
    · rfl
    · split <;> rfl
  · rw [ht]

/-- Settles O9: the arbiter's run settles the pool whatever called for it, each of its steps reports what it
changes, and every other move leaves the failed zones, their ranks and the pool. -/
theorem oneFeedKept : Obligations.OneFeedKept := by
  refine ⟨fun s t h hst => step_keeps (P := OneFeed) (fun _ _ h => h) (fun _ _ _ hm h => hm.oneFeed h) h hst,
    fun s t h1 h2 h3 hst => ?_, fun c s t k z hc h => ?_⟩
  · exact (step_keeps (P := PoolKept) (fun _ _ h => ⟨h.1.of rfl rfl rfl rfl id .inl, h.2.1,
      h.2.2.of ⟨rfl, rfl, rfl, rfl⟩ rfl⟩)
      (fun _ _ _ hm h => hm.poolKept h) ⟨h2, h1, h3⟩ hst).2.2
  · by_cases hi : c = .insertionBegin
    · have hs := insertionBegin_serving (hi ▸ h)
      rw [hs]
      exact ⟨fun h g => absurd h g, fun h g => absurd h g⟩
    by_cases hcold : ∃ b, c = .coldStart b
    · obtain ⟨b, rfl⟩ := hcold
      have hn : t.serving[k] = none := by cases h; exact Vector.getElem_replicate _
      rw [hn]
      exact ⟨nofun, fun _ _ hb => absurd rfl (hb b)⟩
    by_cases hr : c = .restartEffect
    · subst hr
      refine ⟨fun h1 h2 => ?_, fun _ _ _ hne => absurd rfl hne⟩
      rcases whenever_cases (f := fun s => restartEffect (s.restart.getD false) s) h with ⟨-, ht⟩ | ⟨-, ht⟩
      · rw [ht, (restartEffect_pool _ s).1 k] at h1
        cases h1
      · rw [ht] at h1
        exact absurd h1 h2
    obtain ⟨ha, hb⟩ := (exec_announced h hi hc hr fun b e => hcold ⟨b, e⟩).told k z
    exact ⟨ha, fun h1 h2 _ _ => hb h1 h2⟩

end Sys2Proof.Machine

namespace Sys2Proof.Machine

/-! ## What claims are built from -/

/-- From `s` to `t` what claims are built from is as it was: the tables, the moment, the records and the states
that call for the OVERFLOW claim. -/
structure SameGrounds (s t : State) : Prop where
  work     : t.work = s.work
  now      : t.now = s.now
  acts     : t.acts = s.acts
  overflow : t.overflow = s.overflow
  mode     : t.defaultMode = s.defaultMode

theorem SameGrounds.refl (s : State) : SameGrounds s s := ⟨rfl, rfl, rfl, rfl, rfl⟩

theorem SameGrounds.trans {s t u : State} (h : SameGrounds s t) (g : SameGrounds t u) : SameGrounds s u :=
  ⟨g.work.trans h.work, g.now.trans h.now, g.acts.trans h.acts, g.overflow.trans h.overflow,
    g.mode.trans h.mode⟩

theorem OnlyZones.grounds {s t : State} (h : OnlyZones s t) : SameGrounds s t := by
  constructor <;> rw [h.frame]

theorem overflowClaim_eq {s t : State} (hw : t.work = s.work) (hn : t.now = s.now) :
    overflowClaim t = overflowClaim s := by
  unfold overflowClaim
  rw [hw, hn]

theorem SameGrounds.condition {s t : State} (h : SameGrounds s t) : claimCondition t = claimCondition s := by
  unfold claimCondition
  rw [h.overflow, h.mode, h.acts]

theorem claimCondition_iff (s : State) :
    claimCondition s = true ↔ s.overflow = true ∨ (s.defaultMode = true ∧ s.acts ≠ []) := by
  simp [claimCondition]

theorem mergeClaim_owner {t : Tables} {now : Nat} {r : ActRecord} {z : Zone} {c : Claim}
    (h : mergeClaim t now r z = some c) : c.owner = .cause r.dz := by
  obtain ⟨p, -, rfl⟩ := Option.map_eq_some_iff.1 h
  rfl

theorem mergeClaim_placed {t : Tables} {now : Nat} {r : ActRecord} {z : Zone} {c : Claim}
    (h : mergeClaim t now r z = some c) : c.placed = now := by
  obtain ⟨p, -, rfl⟩ := Option.map_eq_some_iff.1 h
  rfl

/-- A record has a merged claim only for a zone in use (R6, R45). -/
theorem mergeClaim_inUse {t : Tables} {now : Nat} {r : ActRecord} {z : Zone} {c : Claim}
    (h : mergeClaim t now r z = some c) : t.spk[z].inUse = true := by
  obtain ⟨p, hp, -⟩ := Option.map_eq_some_iff.1 h
  have hc := chooseRef_chosen t r z
  rw [hp] at hc
  obtain ⟨i, ⟨-, hr, -⟩, -⟩ := hc
  obtain ⟨x, -, hx⟩ := (refReaches_iff t r p.1 z).1 hr
  exact ((effectReaches_iff t r x z).1 hx).1

theorem isSilence_iff (c : Claim) : isSilence c = true ↔ ∃ k, c.owner = .silence k := by
  unfold isSilence
  split
  next k h => exact ⟨fun _ => ⟨k, h⟩, fun _ => rfl⟩
  next h => exact ⟨(fun h => nomatch h), fun ⟨k, hk⟩ => absurd hk (h k)⟩

theorem isEvacuating_iff (c : Claim) :
    isEvacuating c = true ↔ (∃ dz, c.owner = .cause dz) ∧ c.stage = some .evacuate := by
  unfold isEvacuating
  split
  next dz h => exact ⟨fun hs => ⟨⟨dz, h⟩, by simpa using hs⟩, fun hs => by simpa using hs.2⟩
  next h => exact ⟨(fun h => nomatch h), fun ⟨⟨k, hk⟩, _⟩ => absurd hk (h k)⟩

/-! ## An entry into EVACUATE stage (R84) -/

/-- Once a claim has come to EVACUATE stage no SILENCE claim stays, and every other claim does. -/
theorem mem_afterEntry {b : Bool} {z : Zone} {s : State} {d : Claim} :
    d ∈ (afterEntry b z s).1.lists[z] ↔ d ∈ s.lists[z] ∧ (b = true → isSilence d = false) := by
  cases b with
  | false => exact ⟨fun h => ⟨h, nofun⟩, fun h => h.1⟩
  | true =>
    have e : (afterEntry true z s).1.lists[z] = s.lists[z].filter fun c => !isSilence c := setList_self _ _ _
    rw [e, List.mem_filter]
    simp

/-- Where no SILENCE claim stands, or none comes to EVACUATE stage, the list stays. -/
theorem afterEntry_idle {b : Bool} {z : Zone} {s : State}
    (h : b = true → ∀ d ∈ s.lists[z], isSilence d = false) :
    (afterEntry b z s).1.lists[z] = s.lists[z] ∧ (afterEntry b z s).2 = false := by
  cases b with
  | false => exact ⟨rfl, rfl⟩
  | true =>
    have h := h rfl
    refine ⟨?_, ?_⟩
    · show (setList z _ s).lists[z] = _
      rw [setList_self]
      exact List.filter_eq_self.2 fun d hd => by simp [h d hd]
    · show s.lists[z].any isSilence = false
      rw [List.any_eq_false]
      exact fun d hd => by simp [h d hd]

/-! ## How an offer settles (R80) -/

/-- The list that an offer of `c` makes of a zone's list, before SILENCE claims leave it. -/
structure Entered (z : Zone) (c : Claim) (s t : State) : Prop where
  later : Later s t
  gain  : ∀ d ∈ t.lists[z], d ∈ s.lists[z] ∨ (d = c ∧ ∀ x ∈ s.lists[z], x.owner ≠ c.owner) ∨
    ∃ held ∈ s.lists[z], held.owner = c.owner ∧ d = { c with placed := held.placed }
  keep  : ∀ d ∈ s.lists[z], d.owner ≠ c.owner → d ∈ t.lists[z] ∨ Told (.claimDisplaced z d.owner d.prio) t
  held  : ∀ held, claimOf c.owner s.lists[z] = some held → { c with placed := held.placed } ∈ t.lists[z]
  fresh : (∀ x ∈ s.lists[z], x.owner ≠ c.owner) →
    c ∈ t.lists[z] ∨ Told (.claimRejected z c.owner c.prio) t

theorem mem_replaceClaim {c held d : Claim} {l : List Claim} (hm : held ∈ l) (ho : held.owner = c.owner) :
    d ∈ replaceClaim c held l ↔ (d ∈ l ∧ d.owner ≠ c.owner) ∨ d = { c with placed := held.placed } := by
  unfold replaceClaim
  dsimp only
  split
  · rw [List.mem_map]
    constructor
    · rintro ⟨x, hx, rfl⟩
      split
      next h => exact .inr rfl
      next h => exact .inl ⟨hx, by simpa using h⟩
    · rintro (⟨hd, hn⟩ | rfl)
      · exact ⟨d, hd, if_neg (by simpa using hn)⟩
      · exact ⟨held, hm, if_pos (by simpa using ho)⟩
  · rw [mem_insertClaim, List.mem_filter]
    simp only [bne_iff_ne, ne_eq]
    exact or_comm

/-- An offer at a zone in use enters its claim or is rejected, and then brings the SILENCE claims out where
the claim has come to EVACUATE stage (R80–R84). -/
theorem offerCore_entered {z : Zone} (c : Claim) {s : State} (hu : s.work.spk[z].inUse = true) :
    ∃ (b : Bool) (t : State), Entered z c s t ∧ (b = true → isEvacuating c = true) ∧
      (isEvacuating c = true → (∀ h, claimOf c.owner s.lists[z] = some h → isEvacuating h = false) →
        b = true ∨ t.lists[z] = s.lists[z]) ∧
      offerCore z c s = afterEntry b z t := by
  have hz : (!zoneInUse s z) = false := by rw [zoneInUse, spk, hu]; rfl
  have hset : ∀ l, (setList z l s).lists[z] = l := fun l => setList_self z l s
  unfold offerCore
  dsimp only
  rw [hz, if_neg Bool.false_ne_true]
  cases hh : claimOf c.owner s.lists[z] with
  | some held =>
    obtain ⟨hm, ho⟩ := claimOf_some hh
    refine ⟨isEvacuating c && !isEvacuating held, setList z (replaceClaim c held s.lists[z]) s, ?_, ?_, ?_, rfl⟩
    · refine ⟨setList_later _ _ _, fun d hd => ?_, fun d hd hn => .inl ?_, fun x hx => ?_, fun hn => ?_⟩
      · rw [hset] at hd
        exact ((mem_replaceClaim hm ho).1 hd).elim (fun h => .inl h.1)
          fun h => .inr (.inr ⟨held, hm, ho, h⟩)
      · rw [hset]
        exact (mem_replaceClaim hm ho).2 (.inl ⟨hd, hn⟩)
      · cases hh.symm.trans hx
        rw [hset]
        exact (mem_replaceClaim hm ho).2 (.inr rfl)
      · exact absurd ho (hn held hm)
    · intro hb
      simp only [Bool.and_eq_true, Bool.not_eq_true'] at hb
      exact hb.1
    · intro hc hn
      exact .inl (by rw [hc, hn held rfl]; rfl)
  | none =>
    have hn := claimOf_none.1 hh
    dsimp only
    by_cases hr : s.lists[z].length < Config.claimMax
    · rw [if_pos hr]
      refine ⟨isEvacuating c, setList z (insertClaim c s.lists[z]) s, ?_, id, fun hc _ => .inl hc, rfl⟩
      · refine ⟨setList_later _ _ _, fun d hd => ?_, fun d hd _ => .inl ?_, fun x hx => ?_, fun _ => .inl ?_⟩
        · rw [hset] at hd
          exact (mem_insertClaim.1 hd).elim (fun h => .inr (.inl ⟨h, hn⟩)) .inl
        · rw [hset]; exact mem_insertClaim.2 (.inr hd)
        · exact absurd (hh.symm.trans hx) nofun
        · rw [hset]; exact mem_insertClaim.2 (.inl rfl)
    · rw [if_neg hr]
      cases hg : s.lists[z].getLast? with
      | none =>
        rw [List.getLast?_eq_none_iff] at hg
        rw [hg] at hr
        exact absurd (by decide) hr
      | some last =>
        dsimp only
        by_cases hp : last.prio < c.prio
        · rw [if_pos hp]
          have hl : (report (.claimDisplaced z last.owner last.prio)
              (setList z (insertClaim c s.lists[z].dropLast) s)).lists[z] =
              insertClaim c s.lists[z].dropLast := by rw [report_lists, hset]
          refine ⟨isEvacuating c, report (.claimDisplaced z last.owner last.prio)
            (setList z (insertClaim c s.lists[z].dropLast) s), ?_, id, fun hc _ => .inl hc, rfl⟩
          · refine ⟨(setList_later _ _ _).trans (report_later _ _), fun d hd => ?_, fun d hd _ => ?_,
              fun x hx => ?_, fun _ => .inl ?_⟩
            · rw [hl] at hd
              exact (mem_insertClaim.1 hd).elim (fun h => .inr (.inl ⟨h, hn⟩))
                fun h => .inl (List.mem_of_mem_dropLast h)
            · rw [hl]
              rw [← List.dropLast_append_getLast? last hg, List.mem_append, List.mem_singleton] at hd
              rcases hd with hd | rfl
              · exact .inl (mem_insertClaim.2 (.inr hd))
              · exact .inr (report_told _ _)
            · exact absurd (hh.symm.trans hx) nofun
            · rw [hl]; exact mem_insertClaim.2 (.inl rfl)
        · rw [if_neg hp]
          refine ⟨false, report (.claimRejected z c.owner c.prio) s, ?_, nofun, fun _ _ => .inr (by rw [report_lists]), rfl⟩
          refine ⟨report_later _ _, fun d hd => .inl ?_, fun d hd _ => .inl ?_, fun x hx => ?_,
            fun _ => .inr (report_told _ _)⟩
          · rwa [report_lists] at hd
          · rwa [report_lists]
          · exact absurd (hh.symm.trans hx) nofun

end Sys2Proof.Machine

namespace Sys2Proof.Machine

/-! ## Claims come and go in one zone -/

/-- In a claim list no claim of the cause is at EVACUATE stage, or no SILENCE claim stands (R84). -/
def Calm (dz : Nat) (l : List Claim) : Prop :=
  (∀ d ∈ l, d.owner = .cause dz → d.stage ≠ some .evacuate) ∨ ∀ d ∈ l, isSilence d = false

theorem Calm.subset {dz : Nat} {l l' : List Claim} (h : Calm dz l) (g : l' ⊆ l) : Calm dz l' :=
  h.imp (fun h d hd => h d (g hd)) fun h d hd => h d (g hd)

/-- From `s` to `t` claims of zone `z` come and go: one that comes is `new`, one held goes only where it is
`gone`, was displaced with its report (R101), or is a SILENCE claim as a claim came to EVACUATE stage, which
`evac` admits (R84). No SILENCE claim comes, and a cause that comes to EVACUATE stage leaves none. -/
structure Turns (new : Claim → Prop) (evac : Prop) (gone : Claim → Bool) (z : Zone) (s t : State) : Prop where
  later : Later s t
  kept  : ∀ d ∈ s.lists[z], gone d = false → d ∈ t.lists[z] ∨
    Told (.claimDisplaced z d.owner d.prio) t ∨ ((∃ k, d.owner = .silence k) ∧ evac)
  fresh : ∀ d ∈ t.lists[z], d ∈ s.lists[z] ∨ new d
  calm  : ∀ dz, Calm dz s.lists[z] → Calm dz t.lists[z]

namespace Turns
variable {new new' : Claim → Prop} {evac evac' : Prop} {gone gone' : Claim → Bool} {z : Zone} {s t u : State}

theorem same (h : Later s t) (hl : t.lists[z] = s.lists[z]) : Turns new evac gone z s t :=
  ⟨h, fun _ hd _ => .inl (hl ▸ hd), fun _ hd => .inl (hl ▸ hd), fun _ hc => hl ▸ hc⟩

theorem refl (s : State) : Turns new evac gone z s s := same (.refl s) rfl

theorem trans (h : Turns new evac gone z s t) (g : Turns new evac gone z t u) :
    Turns new evac gone z s u := by
  refine ⟨h.later.trans g.later, fun d hd hn => ?_, fun d hd => ?_, fun dz hc => g.calm dz (h.calm dz hc)⟩
  · rcases h.kept d hd hn with h1 | h1 | h1
    · exact g.kept d h1 hn
    · exact .inr (.inl (h1.later g.later))
    · exact .inr (.inr h1)
  · exact (g.fresh d hd).elim (h.fresh d) .inr

theorem mono (h : Turns new evac gone z s t) (hn : ∀ d, new d → new' d) (he : evac → evac')
    (hg : ∀ d, gone d = true → gone' d = true) : Turns new' evac' gone' z s t :=
  ⟨h.later, fun d hd hd' => (h.kept d hd (Bool.eq_false_iff.2 fun e => by simp [hg d e] at hd')).imp_right
    fun h => h.imp_right fun h => ⟨h.1, he h.2⟩, fun d hd => (h.fresh d hd).imp_right (hn d), h.calm⟩

/-- Claims that are gone leave the list. -/
theorem cut (z : Zone) (gone : Claim → Bool) (s : State) :
    Turns new evac gone z s (setList z (s.lists[z].filter fun c => !gone c) s) := by
  refine ⟨setList_later _ _ _, fun d hd hn => .inl ?_, fun d hd => .inl ?_, fun dz hc => ?_⟩
  · rw [setList_self]
    exact List.mem_filter.2 ⟨hd, by rw [hn]; rfl⟩
  · rw [setList_self] at hd
    exact (List.mem_filter.1 hd).1
  · rw [setList_self]
    exact hc.subset List.filter_sublist.subset

/-- An offer of a claim that may come, over a claim of its owner that may go. -/
theorem core {c : Claim} (hc : new c) (hs : ∀ k, c.owner ≠ .silence k) (he : isEvacuating c = true → evac)
    (hh : ∀ held ∈ s.lists[z], held.owner = c.owner → gone held = true ∧ new { c with placed := held.placed }) :
    Turns new evac gone z s (offerCore z c s).1 := by
  cases hu : s.work.spk[z].inUse with
  | false => rw [offerCore_unused hu]; exact .refl s
  | true =>
    obtain ⟨b, t, ht, hb, hev, e⟩ := offerCore_entered c hu
    rw [e]
    refine ⟨ht.later.trans (afterEntry_later b z t), fun d hd hn => ?_, fun d hd => ?_, fun dz hcalm => ?_⟩
    · have ho : d.owner ≠ c.owner := fun ho => by
        have := (hh d hd ho).1
        rw [hn] at this
        cases this
      rcases ht.keep d hd ho with h1 | h1
      · by_cases hs : b = true → isSilence d = false
        · exact .inl (mem_afterEntry.2 ⟨h1, hs⟩)
        · obtain ⟨hb1, hd1⟩ := Classical.not_imp.1 hs
          exact .inr (.inr ⟨(isSilence_iff d).1 (by simpa using hd1), he (hb hb1)⟩)
      · exact .inr (.inl (h1.later (afterEntry_later b z t)))
    · rcases ht.gain d (mem_afterEntry.1 hd).1 with h1 | ⟨rfl, -⟩ | ⟨held, hm, ho, rfl⟩
      · exact .inl h1
      · exact .inr hc
      · exact .inr (hh held hm ho).2
    · -- what the list holds afterwards
      have hsil : isSilence c = false := Bool.eq_false_iff.2 fun e => by
        obtain ⟨k, hk⟩ := (isSilence_iff c).1 e
        exact hs k hk
      rcases hcalm with hq | hq
      · by_cases hce : isEvacuating c = true ∧ c.owner = .cause dz
        · have hheld : ∀ h, claimOf c.owner s.lists[z] = some h → isEvacuating h = false := fun h hh => by
            obtain ⟨hm, ho⟩ := claimOf_some hh
            exact Bool.eq_false_iff.2 fun e => hq h hm (ho.trans hce.2) ((isEvacuating_iff h).1 e).2
          rcases hev hce.1 hheld with h1 | h1
          · exact .inr fun d hd => (mem_afterEntry.1 hd).2 h1
          · exact .inl fun d hd => hq d (h1 ▸ (mem_afterEntry.1 hd).1)
        · refine .inl fun d hd ho hst => ?_
          rcases ht.gain d (mem_afterEntry.1 hd).1 with h1 | ⟨rfl, -⟩ | ⟨held, -, -, rfl⟩
          · exact hq d h1 ho hst
          · exact hce ⟨(isEvacuating_iff d).2 ⟨⟨dz, ho⟩, hst⟩, ho⟩
          · exact hce ⟨(isEvacuating_iff c).2 ⟨⟨dz, ho⟩, hst⟩, ho⟩
      · refine .inr fun d hd => ?_
        rcases ht.gain d (mem_afterEntry.1 hd).1 with h1 | ⟨rfl, -⟩ | ⟨held, -, -, rfl⟩
        · exact hq d h1
        · exact hsil
        · exact hsil

/-- A claim that is not a SILENCE claim and is not gone stays offered. -/
theorem offered (h : Turns new evac gone z s t) {c : Claim} (hg : gone c = false)
    (hs : ∀ k, c.owner ≠ .silence k) (hc : Offered z c s) : Offered z c t := by
  rcases hc with hc | hc | hc
  · rcases h.kept c hc hg with h1 | h1 | ⟨⟨k, hk⟩, -⟩
    · exact .inl h1
    · exact .inr (.inl h1)
    · exact absurd hk (hs k)
  · exact .inr (.inl (hc.later h.later))
  · exact .inr (.inr (hc.later h.later))

end Turns

/-- An offer of a claim of an owner that holds none leaves it offered. -/
theorem offerCore_offered {z : Zone} {c : Claim} {s : State} (hu : s.work.spk[z].inUse = true)
    (hn : ∀ d ∈ s.lists[z], d.owner ≠ c.owner) (hs : ∀ k, c.owner ≠ .silence k) :
    Offered z c (offerCore z c s).1 := by
  obtain ⟨b, t, ht, -, -, e⟩ := offerCore_entered c hu
  rw [e]
  rcases ht.fresh hn with h | h
  · refine .inl (mem_afterEntry.2 ⟨h, fun _ => Bool.eq_false_iff.2 fun hc => ?_⟩)
    obtain ⟨k, hk⟩ := (isSilence_iff c).1 hc
    exact hs k hk
  · exact .inr (.inr (h.later (afterEntry_later b z t)))

/-! ### The refill (R86) -/

/-- A claim that a refill of zone `z` may bring: the merged claim of a record, or the OVERFLOW claim while its
condition holds. -/
def Brings (s : State) (z : Zone) (d : Claim) : Prop :=
  (∃ r ∈ s.acts, mergeClaim s.work s.now r z = some d) ∨ (claimCondition s = true ∧ d = overflowClaim s)

/-- A record's merged claim for the zone is at EVACUATE stage. -/
def Evacuates (s : State) (z : Zone) : Prop :=
  ∃ r ∈ s.acts, ∃ c, mergeClaim s.work s.now r z = some c ∧ c.stage = some .evacuate

theorem SameGrounds.brings {s t : State} (h : SameGrounds s t) (z : Zone) (d : Claim) :
    Brings t z d ↔ Brings s z d := by
  unfold Brings
  rw [h.acts, h.work, h.now, h.condition, overflowClaim_eq h.work h.now]

theorem SameGrounds.evacuates {s t : State} (h : SameGrounds s t) (z : Zone) : Evacuates t z ↔ Evacuates s z := by
  unfold Evacuates
  rw [h.acts, h.work, h.now]

theorem overflowClaim_owner (s : State) : (overflowClaim s).owner = .overflow := rfl

theorem overflowClaim_quiet (s : State) : isEvacuating (overflowClaim s) = false := rfl

theorem mergeClaim_silent {t : Tables} {now : Nat} {r : ActRecord} {z : Zone} {c : Claim}
    (h : mergeClaim t now r z = some c) (k : Fin 8) : c.owner ≠ .silence k := by
  rw [mergeClaim_owner h]
  nofun

theorem holds_iff (o : Owner) (l : List Claim) : holds o l = true ↔ ∃ d ∈ l, d.owner = o := by
  simp [holds]

section refill
variable {z : Zone} {gone : Claim → Bool}

theorem refillRecord_grounds (r : ActRecord) (p : State × Bool) : SameGrounds p.1 (refillRecord z r p).1 :=
  (refillRecord_onlyZones z r p).grounds

theorem refillRecords_grounds (l : List ActRecord) (p : State × Bool) :
    SameGrounds p.1 (l.foldl (fun p r => refillRecord z r p) p).1 := by
  induction l generalizing p with
  | nil => exact .refl _
  | cons r l ih => exact (refillRecord_grounds r p).trans (ih _)

/-- A record's part of a refill. -/
theorem refillRecord_turns (s : State) {r : ActRecord} (hr : r ∈ s.acts) {p : State × Bool}
    (hp : SameGrounds s p.1) :
    Turns (Brings s z) (Evacuates s z) gone z p.1 (refillRecord z r p).1 := by
  unfold refillRecord
  split
  · exact .refl _
  next hh =>
    split
    · exact .refl _
    next c hc =>
      have hc' : mergeClaim s.work s.now r z = some c := by rw [← hp.work, ← hp.now]; exact hc
      refine .core (.inl ⟨r, hr, hc'⟩) (mergeClaim_silent hc) (fun he => ⟨r, hr, c, hc', ((isEvacuating_iff c).1 he).2⟩)
        fun held hm ho => absurd ((holds_iff _ _).2 ⟨held, hm, ho.trans (mergeClaim_owner hc)⟩) hh

theorem refillRecords_turns (s : State) {l : List ActRecord} (hl : ∀ r ∈ l, r ∈ s.acts) {p : State × Bool}
    (hp : SameGrounds s p.1) :
    Turns (Brings s z) (Evacuates s z) gone z p.1 (l.foldl (fun p r => refillRecord z r p) p).1 := by
  induction l generalizing p with
  | nil => exact .refl _
  | cons r l ih =>
    exact (refillRecord_turns s (hl r (List.mem_cons_self ..)) hp).trans
      (ih (fun x hx => hl x (List.mem_cons_of_mem _ hx)) (hp.trans (refillRecord_grounds r p)))

theorem refillOverflow_turns (s : State) {p : State × Bool} (hp : SameGrounds s p.1) :
    Turns (Brings s z) (Evacuates s z) gone z p.1 (refillOverflow z p).1 := by
  unfold refillOverflow
  split
  next hc =>
    simp only [Bool.and_eq_true, Bool.not_eq_true'] at hc
    refine .core (.inr ⟨hp.condition ▸ hc.1, overflowClaim_eq hp.work hp.now⟩) (fun k => nofun)
      (fun he => absurd he (by rw [overflowClaim_quiet]; nofun)) fun held hm ho => ?_
    have := (holds_iff .overflow p.1.lists[z]).2 ⟨held, hm, ho⟩
    rw [hc.2] at this
    cases this
  · exact .refl _

theorem refillPass_grounds (s : State) : SameGrounds s (refillPass z s).1 := (refillPass_onlyZones z s).grounds

theorem refillPass_turns (s : State) : Turns (Brings s z) (Evacuates s z) gone z s (refillPass z s).1 :=
  (refillRecords_turns s (fun _ h => h) (p := (s, false)) (.refl s)).trans
    (refillOverflow_turns s (refillRecords_grounds s.acts (s, false)))

/-- A refill brings merged claims of the records and the OVERFLOW claim, and displaces claims with a report. -/
theorem refill_turns (s : State) : Turns (Brings s z) (Evacuates s z) gone z s (refill z s) := by
  unfold refill
  dsimp only
  split
  · have hg := refillPass_grounds (z := z) s
    refine (refillPass_turns s).trans ((refillPass_turns (refillPass z s).1).mono ?_ ?_ fun _ h => h)
    · exact fun d => (hg.brings z d).1
    · exact (hg.evacuates z).1
  · exact refillPass_turns s

/-- The records' parts of a refill offer the merged claim of each that holds none. -/
theorem refillRecords_offers {s : State} {l : List ActRecord} (hd : l.Pairwise fun a b => a.dz ≠ b.dz)
    (hl : ∀ r ∈ l, r ∈ s.acts) {p : State × Bool} (hp : SameGrounds s p.1) {r : ActRecord} (hr : r ∈ l)
    (hn : ∀ d ∈ p.1.lists[z], d.owner ≠ .cause r.dz) {c : Claim}
    (hc : mergeClaim s.work s.now r z = some c) :
    Offered z c (l.foldl (fun p r => refillRecord z r p) p).1 := by
  induction l generalizing p with
  | nil => cases hr
  | cons x l ih =>
    obtain ⟨hx, hd⟩ := List.pairwise_cons.1 hd
    have hp' := hp.trans (refillRecord_grounds (z := z) x p)
    have hl' : ∀ r ∈ l, r ∈ s.acts := fun y hy => hl y (List.mem_cons_of_mem _ hy)
    rcases List.mem_cons.1 hr with rfl | hr
    · have hoff : Offered z c (refillRecord z r p).1 := by
        have hnh : holds (.cause r.dz) p.1.lists[z] = false := Bool.eq_false_iff.2 fun h => by
          obtain ⟨d, hd, ho⟩ := (holds_iff _ _).1 h
          exact hn d hd ho
        unfold refillRecord
        rw [hnh, if_neg Bool.false_ne_true, hp.work, hp.now, hc]
        refine offerCore_offered ?_ ?_ (mergeClaim_silent hc)
        · rw [hp.work]; exact mergeClaim_inUse hc
        · rw [mergeClaim_owner hc]; exact hn
      exact (refillRecords_turns (gone := fun _ => false) s hl' hp').offered rfl (mergeClaim_silent hc) hoff
    · refine ih hd hl' hp' hr fun d hd' => ?_
      -- what the record before brings is its own
      have one : Turns (fun d => d.owner = .cause x.dz) True (fun _ => false) z p.1 (refillRecord z x p).1 := by
        unfold refillRecord
        split
        · exact .refl _
        next hh =>
          split
          · exact .refl _
          next y hy =>
            exact .core (mergeClaim_owner hy) (mergeClaim_silent hy) (fun _ => trivial) fun held hm ho =>
              absurd ((holds_iff _ _).2 ⟨held, hm, ho.trans (mergeClaim_owner hy)⟩) hh
      rcases one.fresh d hd' with h | h
      · exact hn d h
      · rw [h]
        intro e
        exact hx r hr (Owner.cause.inj e)

theorem refillPass_offers {s : State} (hd : s.acts.Pairwise fun a b => a.dz ≠ b.dz) {r : ActRecord}
    (hr : r ∈ s.acts) (hn : ∀ d ∈ s.lists[z], d.owner ≠ .cause r.dz) {c : Claim}
    (hc : mergeClaim s.work s.now r z = some c) : Offered z c (refillPass z s).1 :=
  (refillOverflow_turns (gone := fun _ => false) s (refillRecords_grounds s.acts (s, false))).offered rfl
    (mergeClaim_silent hc)
    (refillRecords_offers hd (fun _ h => h) (p := (s, false)) (.refl s) hr hn hc)

theorem refillPass_offersOverflow {s : State} (hu : s.work.spk[z].inUse = true) (hc : claimCondition s = true)
    (hn : ∀ d ∈ s.lists[z], d.owner ≠ .overflow) : Offered z (overflowClaim s) (refillPass z s).1 := by
  have hg := refillRecords_grounds (z := z) s.acts (s, false)
  have ht := refillRecords_turns (z := z) (gone := fun _ => false) s (fun _ h => h) (p := (s, false)) (.refl s)
  unfold refillPass
  generalize hp : s.acts.foldl (fun p r => refillRecord z r p) (s, false) = p at hg ht ⊢
  cases hh : holds .overflow p.1.lists[z] with
  | false =>
    unfold refillOverflow
    rw [hh, hg.condition, hc]
    show Offered z (overflowClaim s) (offerCore z (overflowClaim p.1) p.1).1
    rw [overflowClaim_eq hg.work hg.now]
    refine offerCore_offered (by rw [hg.work]; exact hu) (fun d hd ho => ?_) fun k => nofun
    have := (holds_iff .overflow p.1.lists[z]).2 ⟨d, hd, ho⟩
    rw [hh] at this
    cases this
  | true =>
    obtain ⟨d, hd, ho⟩ := (holds_iff _ _).1 hh
    unfold refillOverflow
    rw [hh, Bool.not_true, Bool.and_false, if_neg Bool.false_ne_true]
    rcases ht.fresh d hd with h | ⟨r, -, hr⟩ | ⟨-, h⟩
    · exact absurd ho (hn d h)
    · rw [mergeClaim_owner hr] at ho
      cases ho
    · exact .inl (h ▸ hd)

/-- A refill keeps what its first pass has offered. -/
theorem refill_keepsOffer {s : State} {c : Claim} (hs : ∀ k, c.owner ≠ .silence k)
    (h : Offered z c (refillPass z s).1) : Offered z c (refill z s) := by
  unfold refill
  dsimp only
  split
  · exact (refillPass_turns (gone := fun _ => false) _).offered rfl hs h
  · exact h

/-- With no record and no OVERFLOW claim called for, a refill changes nothing. -/
theorem refill_idle {s : State} (ha : s.acts = []) (hc : claimCondition s = false) : refill z s = s := by
  have h : refillPass z s = (s, false) := by
    unfold refillPass refillOverflow
    rw [ha, List.foldl_nil, hc]
    rfl
  unfold refill
  dsimp only
  rw [h]
  rfl

end refill

end Sys2Proof.Machine

namespace Sys2Proof.Machine

/-! ## Offers and removals at one zone, and what the others leave -/

/-- From `s` to `t` zone `z` keeps its claim list, what claims are built from stands, and reports have at most
been added. -/
structure Elsewhere (z : Zone) (s t : State) : Prop where
  later   : Later s t
  grounds : SameGrounds s t
  list    : t.lists[z] = s.lists[z]

namespace Elsewhere
variable {z : Zone} {s t u : State}

theorem refl (z : Zone) (s : State) : Elsewhere z s s := ⟨.refl s, .refl s, rfl⟩

theorem trans (h : Elsewhere z s t) (g : Elsewhere z t u) : Elsewhere z s u :=
  ⟨h.later.trans g.later, h.grounds.trans g.grounds, g.list.trans h.list⟩

theorem turns {new : Claim → Prop} {evac : Prop} {gone : Claim → Bool} (h : Elsewhere z s t) :
    Turns new evac gone z s t := .same h.later h.list

theorem offered {c : Claim} (h : Elsewhere z s t) (hc : Offered z c s) : Offered z c t := by
  rcases hc with hc | hc | hc
  · exact .inl (h.list ▸ hc)
  · exact .inr (.inl (hc.later h.later))
  · exact .inr (.inr (hc.later h.later))

end Elsewhere

/-- The hand-over and the lock that end a settlement leave the list it has made. -/
theorem settle_elsewhere (z y : Zone) (f : State → State) (s : State) {v : State} (hv : f s = v) :
    Elsewhere y v (settle z f s) := by
  subst hv
  have hl : Elsewhere y (f s) (handOver z (f s)) :=
    ⟨handOver_later z _, (handOver_onlyZones z _).grounds, by rw [(handOver_hands z _).lists]⟩
  have hu : ∀ u, Elsewhere y u (updateLock u) := fun u =>
    ⟨updateLock_later u, (updateLock_onlyZones u).grounds, by rw [updateLock_lists]⟩
  unfold settle
  dsimp only
  split
  · exact hu _
  · exact hl.trans (hu _)

/-- A change of one zone's list leaves every other zone's. -/
theorem ListOnly.elsewhere {z y : Zone} (hy : y ≠ z) {s t : State} (h : ListOnly z s t) (hl : Later s t) :
    Elsewhere y s t := by
  refine ⟨hl, ?_, h.2 y hy⟩
  constructor <;> rw [h.1]

/-- What the list of a zone becomes by an offer in full. -/
theorem offer_settles (z : Zone) (c : Claim) (s : State) :
    Elsewhere z (if (offerCore z c s).2 then refill z (offerCore z c s).1 else (offerCore z c s).1)
      (offer z c s) := by
  unfold offer
  exact settle_elsewhere z z _ s rfl

theorem offer_elsewhere {z y : Zone} (hy : y ≠ z) (c : Claim) (s : State) : Elsewhere y s (offer z c s) := by
  unfold offer
  exact (((listOnly_listRel z).offered c s).elsewhere hy ((later_zoneRel.list z).offered c s)).trans
    (settle_elsewhere z y _ s rfl)

/-- What the list of a zone becomes by a removal in full. -/
theorem removal_settles {z : Zone} {p : Claim → Bool} {s : State} (h : s.lists[z].any p = true) :
    Elsewhere z (refill z (setList z (s.lists[z].filter fun c => !p c) s)) (removal z p s) := by
  unfold removal
  rw [if_pos h]
  exact settle_elsewhere z z _ s rfl

theorem removal_idle {z : Zone} {p : Claim → Bool} {s : State} (h : ∀ c ∈ s.lists[z], p c = false) :
    removal z p s = s := by
  unfold removal
  rw [if_neg]
  simpa using h

theorem removal_elsewhere {z y : Zone} (hy : y ≠ z) (p : Claim → Bool) (s : State) :
    Elsewhere y s (removal z p s) := by
  unfold removal
  split
  · exact (((listOnly_listRel z).removed p s).elsewhere hy ((later_zoneRel.list z).removed p s)).trans
      (settle_elsewhere z y _ s rfl)
  · exact .refl y s

/-- A walk over zones without repetitions comes to each of them once. -/
theorem zones_visit {f : Zone → State → State} (hf : ∀ (z y : Zone), y ≠ z → ∀ s, Elsewhere y s (f z s))
    {l : List Zone} (hl : l.Nodup) {z : Zone} (hz : z ∈ l) (s : State) :
    ∃ a, Elsewhere z s a ∧ Elsewhere z (f z a) (l.foldl (fun t z => f z t) s) :=
  foldl_visits (f := fun t z => f z t) (Elsewhere.refl z) Elsewhere.trans
    (fun u y hy => hf y z (Ne.symm hy) u) hl hz s

theorem zones_leave {f : Zone → State → State} (hf : ∀ (z y : Zone), y ≠ z → ∀ s, Elsewhere y s (f z s))
    {l : List Zone} {z : Zone} (hz : z ∉ l) (s : State) : Elsewhere z s (l.foldl (fun t z => f z t) s) :=
  foldl_leaves (f := fun t z => f z t) (Elsewhere.refl z) Elsewhere.trans
    (fun u y hy => hf y z (Ne.symm hy) u) l hz s

/-! ## Removals -/

section removal
variable {z : Zone} {p : Claim → Bool} {a u : State}

/-- A removal lets the named claims go, and its refill brings what it brings. -/
theorem removal_turns (z : Zone) (p : Claim → Bool) (a : State) :
    Turns (Brings a z) (Evacuates a z) p z a (removal z p a) := by
  cases h : a.lists[z].any p with
  | false =>
    rw [removal_idle (by simpa using h)]
    exact .refl a
  | true =>
    have hg : SameGrounds a (setList z (a.lists[z].filter fun c => !p c) a) := ⟨rfl, rfl, rfl, rfl, rfl⟩
    refine ((Turns.cut z p a).trans ?_).trans (removal_settles h).turns
    exact (refill_turns _).mono (fun d => (hg.brings z d).1) (hg.evacuates z).1 fun _ h => h

/-- One of the named claims that stands after a removal has come by its refill. -/
theorem removal_anew {d : Claim} (hd : d ∈ (removal z p a).lists[z]) (hp : p d = true) : Brings a z d := by
  cases h : a.lists[z].any p with
  | false =>
    have h : ∀ c ∈ a.lists[z], p c = false := by simpa using h
    rw [removal_idle h] at hd
    rw [h d hd] at hp
    cases hp
  | true =>
    have hg : SameGrounds a (setList z (a.lists[z].filter fun c => !p c) a) := ⟨rfl, rfl, rfl, rfl, rfl⟩
    rw [(removal_settles h).list] at hd
    rcases (refill_turns (gone := p) _).fresh d hd with h1 | h1
    · rw [setList_self] at h1
      have := (List.mem_filter.1 h1).2
      rw [hp] at this
      cases this
    · exact (hg.brings z d).1 h1

theorem brings_iff (a : State) (z : Zone) (d : Claim) : Brings a z d ↔
    (∃ r ∈ a.acts, mergeClaim a.work a.now r z = some d) ∨
      (d = overflowClaim a ∧ (a.overflow = true ∨ (a.defaultMode = true ∧ a.acts ≠ []))) := by
  unfold Brings
  rw [claimCondition_iff, and_comm]

end removal

/-- What a relation about a zone's claims is said of: `s` has the list, tables and moment that `a` begins
with, and `u` the list that `b` ends with, its reports after those of `b`, and what claims are built from. -/
structure Between (z : Zone) (s a b u : State) : Prop where
  work : a.work = s.work
  now  : a.now = s.now
  list : a.lists[z] = s.lists[z]
  runs : SameGrounds a b
  ends : Elsewhere z b u

namespace Between
variable {z : Zone} {s a b u : State}

theorem acts (h : Between z s a b u) : u.acts = a.acts := h.ends.grounds.acts.trans h.runs.acts

theorem brings (h : Between z s a b u) {d : Claim} (hd : Brings a z d) :
    (∃ r ∈ u.acts, mergeClaim s.work s.now r z = some d) ∨
      (d = overflowClaim s ∧ (u.overflow = true ∨ (u.defaultMode = true ∧ u.acts ≠ []))) := by
  have hg := h.runs.trans h.ends.grounds
  rw [brings_iff, h.work, h.now, overflowClaim_eq h.work h.now, ← hg.acts, ← hg.overflow, ← hg.mode] at hd
  exact hd

theorem evacuates (h : Between z s a b u) (he : Evacuates a z) :
    ∃ r ∈ u.acts, ∃ c, mergeClaim s.work s.now r z = some c ∧ c.stage = some .evacuate := by
  unfold Evacuates at he
  rwa [h.work, h.now, ← h.acts] at he

/-- The claims of others are kept where those that come are a refill's (R84, R86, R101). -/
theorem othersKept (h : Between z s a b u) {mine : Claim → Bool}
    (ht : Turns (fun d => mine d = true ∨ Brings a z d) (Evacuates a z) mine z a b) :
    OthersKept u.acts mine s u z := by
  refine ⟨fun d hd hm => ?_, fun d hd hm => ?_⟩
  · rcases ht.kept d (h.list ▸ hd) hm with h1 | h1 | ⟨hs, he⟩
    · exact .inl (h.ends.list ▸ h1)
    · exact .inr (.inl (h1.later h.ends.later))
    · exact .inr (.inr ⟨hs, h.evacuates he⟩)
  · rw [h.ends.list] at hd
    rcases ht.fresh d hd with h1 | h1 | h1
    · exact .inl (h.list ▸ h1)
    · rw [hm] at h1
      cases h1
    · exact .inr (h.brings h1)

end Between

/-- The claims that leave with a removal are gone from the zone, and the others kept (R85, R86). -/
theorem removal_claimsKept {z : Zone} {p : Claim → Bool} {s a u : State}
    (h : Between z s a (removal z p a) u) : ClaimsKept u.acts p s u z where
  toOthersKept := h.othersKept ((removal_turns z p a).mono (fun _ => .inr) id fun _ h => h)
  whole hn := by
    rw [h.ends.list, removal_idle (h.list ▸ hn), h.list]
  anew d hd hp := h.brings (removal_anew (h.ends.list ▸ hd) hp)

/-- The zone is refilled after a removal (R86). -/
theorem removal_refilled {z : Zone} {p : Claim → Bool} {s a u : State}
    (h : Between z s a (removal z p a) u) (hd : a.acts.Pairwise fun x y => x.dz ≠ y.dz) :
    Refilled p s u z := by
  have hg : SameGrounds a (setList z (a.lists[z].filter fun c => !p c) a) := ⟨rfl, rfl, rfl, rfl, rfl⟩
  have hag := h.runs.trans h.ends.grounds
  have hany : (∃ d ∈ s.lists[z], p d = true) → a.lists[z].any p = true := by
    rw [← h.list]
    exact List.any_eq_true.2
  have hleft : ∀ o, (∀ d ∈ s.lists[z], d.owner = o → p d = true) →
      ∀ d ∈ (setList z (a.lists[z].filter fun c => !p c) a).lists[z], d.owner ≠ o := by
    intro o ho d hd he
    rw [setList_self, h.list] at hd
    obtain ⟨hd, hp⟩ := List.mem_filter.1 hd
    rw [ho d hd he] at hp
    cases hp
  refine ⟨fun hacts hov => ?_, fun hex r hr hn c hc => ?_, fun hex hu hcond hn => ?_⟩
  · have hc : claimCondition a = false := by
      rw [← hag.condition]
      simp [claimCondition, hacts, hov]
    rw [h.ends.list]
    cases hb : a.lists[z].any p with
    | false =>
      have hb : ∀ c ∈ a.lists[z], p c = false := by simpa using hb
      rw [removal_idle hb, h.list]
      exact (List.filter_eq_self.2 fun d hd => by rw [hb d (h.list ▸ hd)]; rfl).symm
    | true =>
      rw [(removal_settles hb).list, refill_idle (hag.acts ▸ hacts) (hg.condition ▸ hc), setList_self, h.list]
  · have hb := hany hex
    refine h.ends.offered ((removal_settles hb).offered ?_)
    refine refill_keepsOffer (mergeClaim_silent hc) (refillPass_offers (s := setList z _ a) hd (r := r) ?_
      (hleft _ hn) ?_)
    · exact hag.acts ▸ hr
    · show mergeClaim a.work a.now r z = some c
      rw [h.work, h.now]
      exact hc
  · have hb := hany hex
    refine h.ends.offered ((removal_settles hb).offered ?_)
    rw [← overflowClaim_eq h.work h.now]
    refine refill_keepsOffer (fun k => nofun) (refillPass_offersOverflow (s := setList z _ a) ?_ ?_
      (hleft _ hn))
    · show a.work.spk[z].inUse = true
      rw [h.work]
      exact hu
    · show claimCondition a = true
      rw [← hag.condition]
      exact (claimCondition_iff u).2 hcond

theorem removal_grounds (z : Zone) (p : Claim → Bool) (s : State) : SameGrounds s (removal z p s) :=
  (removal_onlyZones z p s).grounds

/-- A removal at several zones comes to each of them once. -/
theorem removals_between {p : Zone → Claim → Bool} {l : List Zone} (hl : l.Nodup) {z : Zone} (hz : z ∈ l)
    (s : State) : ∃ a, Elsewhere z s a ∧
      Between z s a (removal z (p z) a) (l.foldl (fun t z => removal z (p z) t) s) := by
  obtain ⟨a, h1, h2⟩ := zones_visit (f := fun z s => removal z (p z) s)
    (fun z y hy s => removal_elsewhere hy (p z) s) hl hz s
  exact ⟨a, h1, h1.grounds.work, h1.grounds.now, h1.list, removal_grounds z (p z) a, h2⟩

/-- What a refill brings is a cause claim or the OVERFLOW claim. -/
theorem Brings.owner {s : State} {z : Zone} {d : Claim} (h : Brings s z d) :
    (∃ dz, d.owner = .cause dz) ∨ d.owner = .overflow := by
  rcases h with ⟨r, -, hr⟩ | ⟨-, rfl⟩
  · exact .inl ⟨r.dz, mergeClaim_owner hr⟩
  · exact .inr rfl

/-! ## Offers -/

theorem offer_turns {new : Claim → Prop} {evac : Prop} {gone : Claim → Bool} {z : Zone} {c : Claim} {s : State}
    (hc : new c) (hs : ∀ k, c.owner ≠ .silence k) (he : isEvacuating c = true → evac)
    (hh : ∀ held ∈ s.lists[z], held.owner = c.owner → gone held = true ∧ new { c with placed := held.placed })
    (hb : ∀ d, Brings s z d → new d) (hv : Evacuates s z → evac) :
    Turns new evac gone z s (offer z c s) := by
  refine Turns.trans ?_ (offer_settles z c s).turns
  have h1 : Turns new evac gone z s (offerCore z c s).1 := .core hc hs he hh
  split
  · have hg := (offerCore_onlyZones z c s).grounds
    exact h1.trans ((refill_turns _).mono (fun d hd => hb d ((hg.brings z d).1 hd))
      (fun h => hv ((hg.evacuates z).1 h)) fun _ h => h)
  · exact h1

/-- An offer that lets no SILENCE claim go settles by the cases of R80–R83. -/
theorem offer_offerSettled {z : Zone} {c : Claim} {s u : State} (hu : s.work.spk[z].inUse = true)
    (hq : isEvacuating c = true → ∀ d ∈ s.lists[z], isSilence d = false)
    (he : Elsewhere z (offer z c s) u) : OfferSettled z c s u := by
  have hz : (!zoneInUse s z) = false := by rw [zoneInUse, spk, hu]; rfl
  -- with no SILENCE claim to leave, the list is what the offer makes of it
  have idle : ∀ (b : Bool) (t : State), offerCore z c s = afterEntry b z t →
      (b = true → ∀ d ∈ t.lists[z], isSilence d = false) → u.lists[z] = t.lists[z] ∧ Later t u := by
    intro b t ht hb
    have h1 := afterEntry_idle hb
    have h2 := offer_settles z c s
    rw [ht, h1.2, if_neg Bool.false_ne_true] at h2
    exact ⟨he.list.trans (h2.list.trans h1.1),
      ((afterEntry_later b z t).trans h2.later).trans he.later⟩
  have quiet : isEvacuating c = true → isSilence c = false := fun h => by
    obtain ⟨⟨dz, hdz⟩, -⟩ := (isEvacuating_iff c).1 h
    exact Bool.eq_false_iff.2 fun hs => by
      obtain ⟨k, hk⟩ := (isSilence_iff c).1 hs
      rw [hdz] at hk
      cases hk
  have inserted : ∀ l : List Claim, (∀ d ∈ l, d ∈ s.lists[z]) → isEvacuating c = true →
      ∀ d ∈ insertClaim c l, isSilence d = false := by
    intro l hl hev d hd
    rcases mem_insertClaim.1 hd with rfl | hd
    · exact quiet hev
    · exact hq hev d (hl d hd)
  have joined : ∀ l : List Claim, Joined c l (insertClaim c l) := fun l =>
    ⟨mem_insertClaim.2 (.inl rfl), insertClaim_length c l, fun d hd => mem_insertClaim.2 (.inr hd)⟩
  refine ⟨fun hn hr => ?_, fun hn last h6 hg => ⟨fun hp => ?_, fun hp => ?_⟩, fun held hm ho hok => ?_⟩
  · have e : offerCore z c s = afterEntry (isEvacuating c) z (setList z (insertClaim c s.lists[z]) s) := by
      unfold offerCore
      dsimp only
      rw [hz, if_neg Bool.false_ne_true, claimOf_none.2 hn]
      exact if_pos hr
    rw [(idle _ _ e fun hb => by rw [setList_self]; exact inserted _ (fun _ h => h) hb).1, setList_self]
    exact joined _
  · have e : offerCore z c s = afterEntry (isEvacuating c) z
        (report (.claimDisplaced z last.owner last.prio)
          (setList z (insertClaim c s.lists[z].dropLast) s)) := by
      unfold offerCore
      dsimp only
      rw [hz, if_neg Bool.false_ne_true, claimOf_none.2 hn]
      dsimp only
      rw [if_neg (by rw [h6]; decide), hg]
      exact if_pos hp
    have h := idle _ _ e fun hb => by
      rw [report_lists, setList_self]
      exact inserted _ (fun _ h => List.mem_of_mem_dropLast h) hb
    rw [h.1, report_lists, setList_self]
    exact ⟨joined _, (report_told _ _).later h.2⟩
  · have e : offerCore z c s = afterEntry false z (report (.claimRejected z c.owner c.prio) s) := by
      unfold offerCore
      dsimp only
      rw [hz, if_neg Bool.false_ne_true, claimOf_none.2 hn]
      dsimp only
      rw [if_neg (by rw [h6]; decide), hg]
      exact if_neg (Nat.not_lt.2 hp)
    have h := idle _ _ e nofun
    rw [h.1, report_lists]
    exact ⟨rfl, (report_told _ _).later h.2⟩
  · have hcl : claimOf c.owner s.lists[z] = some held := ho ▸ claimOf_eq hok hm
    have e : offerCore z c s = afterEntry (isEvacuating c && !isEvacuating held) z
        (setList z (replaceClaim c held s.lists[z]) s) := by
      unfold offerCore
      dsimp only
      rw [hz, if_neg Bool.false_ne_true, hcl]
    have h := idle _ _ e fun hb d hd => by
      simp only [Bool.and_eq_true] at hb
      rw [setList_self] at hd
      rcases (mem_replaceClaim hm ho).1 hd with h1 | rfl
      · exact hq hb.1 d h1.1
      · exact quiet hb.1
    rw [h.1, setList_self]
    refine ⟨fun hp => ?_, fun hp => ?_⟩
    · unfold replaceClaim
      simp only [if_pos hp, beq_iff_eq]
    · unfold replaceClaim
      rw [if_neg hp]
      exact ⟨mem_insertClaim.2 (.inl rfl), insertClaim_length _ _, fun d hd => mem_insertClaim.2 (.inr hd)⟩

/-- An offer settled is said of states that agree with its own on the zone. -/
theorem OfferSettled.of {z : Zone} {c : Claim} {s s' u : State} (h : OfferSettled z c s' u)
    (hl : s'.lists[z] = s.lists[z]) : OfferSettled z c s u := by
  obtain ⟨h1, h2, h3⟩ := h
  rw [hl] at h1 h2 h3
  exact ⟨h1, h2, h3⟩

end Sys2Proof.Machine

namespace Sys2Proof.Machine

/-! ## Commands on zone sets (O42, O44) -/

theorem mem_keptZones (s : State) (cls : Class) (zs : ZoneSet) (z : Zone) :
    z ∈ keptZones s cls zs ↔ Stays s cls zs z := by
  unfold keptZones trimmed reachOf zoneInUse spk
  simp only [List.mem_filter, mem_allZones, true_and, Bool.and_eq_true, Bool.not_eq_true', Bool.or_eq_false_iff,
    Bool.not_eq_false']
  exact ⟨fun h => ⟨h.1, h.2.1, h.2.2⟩, fun h => ⟨h.named, h.reach, h.inUse⟩⟩

theorem nodup_keptZones (s : State) (cls : Class) (zs : ZoneSet) : (keptZones s cls zs).Nodup :=
  nodup_allZones.filter _

theorem replyTrimmed_places (s : State) (q : Request) (b : CmdBody) (zs : ZoneSet) (v : State) :
    replyTrimmed ⟨q, b⟩ (trimCount s q.cls zs) v = place (trimReply s q (codeOf b) zs) v := by
  have hn : trimCount s q.cls zs = (allZones.filter fun z =>
      inSet zs z && !(inSet s.work.orig[q.cls].reach z && s.work.spk[z].inUse)).length := by
    unfold trimCount trimmed reachOf zoneInUse spk
    simp only [Bool.not_and]
  unfold replyTrimmed trimReply
  rw [hn]
  dsimp only
  split <;> rfl

/-- The state that a command leaves has nothing reserved any more. -/
theorem Elsewhere.released (z : Zone) (v : State) : Elsewhere z v { v with reserved := 0 } :=
  ⟨.same rfl rfl, ⟨rfl, rfl, rfl, rfl, rfl⟩, rfl⟩

theorem OnlyZones.released {own : Nat} {s v : State} (h : OnlyZones (inHand own s) v) :
    OnlyZones (leftQueue s) { v with reserved := 0 } := by
  obtain ⟨hf, hq⟩ := h
  refine ⟨?_, hq.out, hq.held, hq.quiet⟩
  rw [hf]
  rfl

theorem OnlyCauses.released {own : Nat} {s v : State} (h : OnlyCauses (inHand own s) v) :
    OnlyCauses (leftQueue s) { v with reserved := 0 } := by
  obtain ⟨hf, hq⟩ := h
  refine ⟨?_, hq.out, hq.held, hq.quiet⟩
  rw [hf]
  rfl

/-- What an admitted command on a zone set leaves, before its reply: each kept zone settled in turn (R94). -/
def zonesSettled (q : Request) (zs : ZoneSet) (f : Zone → State → State) (s : State) : State :=
  { (keptZones s q.cls zs).foldl (fun t z => f z t) (inHand 1 s) with reserved := 0 }

theorem onZones_leaves {s : State} {q : Request} {b : CmdBody} {zs : ZoneSet} {f : Zone → State → State}
    {act : State → State} (h : Admitted s q b 1) (ha : act (inHand 1 s) = onZones ⟨q, b⟩ zs f (inHand 1 s)) :
    command ⟨q, b⟩ oneReply act s =
      .next (place (trimReply s q (codeOf b) zs) (zonesSettled q zs f s)) := by
  refine (commandWith_acts (extra := noExtra) (own := oneReply) h ha).trans ?_
  unfold onZones
  rw [show trimCount (inHand 1 s) q.cls zs = trimCount s q.cls zs from rfl, replyTrimmed_places]
  rfl

section zonesSettled
variable {q : Request} {zs : ZoneSet} {f : Zone → State → State} {s : State} {z : Zone}

theorem zonesSettled_onlyZones (hf : ∀ z t, OnlyZones t (f z t)) :
    OnlyZones (leftQueue s) (zonesSettled q zs f s) :=
  OnlyZones.released (.foldl (fun t z => f z t) (fun t z => hf z t) _ (inHand 1 s))

/-- A zone that stays is settled once, on its list and the tables as they stand. -/
theorem zonesSettled_stays (hf : ∀ (z y : Zone), y ≠ z → ∀ s, Elsewhere y s (f z s))
    (hz : Stays s q.cls zs z) :
    ∃ a, Elsewhere z (inHand 1 s) a ∧ Elsewhere z (f z a) (zonesSettled q zs f s) := by
  obtain ⟨a, h1, h2⟩ := zones_visit hf (nodup_keptZones s q.cls zs) ((mem_keptZones s q.cls zs z).2 hz)
    (inHand 1 s)
  exact ⟨a, h1, h2.trans (.released z _)⟩

theorem zonesSettled_leaves (hf : ∀ (z y : Zone), y ≠ z → ∀ s, Elsewhere y s (f z s))
    (hz : ¬Stays s q.cls zs z) : (zonesSettled q zs f s).lists[z] = s.lists[z] :=
  (zones_leave hf (fun h => hz ((mem_keptZones s q.cls zs z).1 h)) (inHand 1 s)).list

end zonesSettled

/-- Settles O44: a SILENCE claim lets no SILENCE claim go, so that its offer settles by R80–R83. -/
theorem silencePlaces : Obligations.SilencePlaces := by
  intro s q zs h
  refine ⟨zonesSettled q zs (fun z => offer z (silenceClaim q.cls s.now)) s,
    onZones_leaves h rfl, zonesSettled_onlyZones fun z t => offer_onlyZones z _ t,
    fun z hz => zonesSettled_leaves (fun z y hy s => offer_elsewhere hy _ s) hz, fun z hz => ?_⟩
  obtain ⟨a, h1, h2⟩ := zonesSettled_stays (f := fun z => offer z (silenceClaim q.cls s.now))
    (fun z y hy s => offer_elsewhere hy _ s) hz
  refine OfferSettled.of (offer_offerSettled (c := silenceClaim q.cls s.now) ?_ nofun h2) h1.list
  rw [h1.grounds.work]
  exact hz.inUse

/-! ### ZONE SET (O42) -/

theorem commandClaim_eq (s : State) (cls : Class) {m : Template}
    (h : templateInUse s.work s.work.orig[cls].preset = some m) :
    commandClaim s cls = some (claimFrom (.command cls) m none s.now) := by
  rw [commandClaim, h]
  rfl

/-- In a list in order the first claim of another owner has the highest priority of those (R79, R96). -/
theorem yieldPasses_iff {c : Claim} {l : List Claim} (h : l.Pairwise Before) :
    yieldPasses c l = true ↔ ∀ d ∈ l, d.owner ≠ c.owner → d.prio < c.prio := by
  unfold yieldPasses
  induction l with
  | nil => simp
  | cons x l ih =>
    obtain ⟨hx, hl⟩ := List.pairwise_cons.1 h
    by_cases ho : x.owner = c.owner
    · rw [List.find?_cons_of_neg (by simpa using ho), ih hl]
      simp [ho]
    · rw [List.find?_cons_of_pos (by simpa using ho)]
      simp only [decide_eq_true_eq, List.mem_cons, forall_eq_or_imp]
      refine ⟨fun hp => ⟨fun _ => hp, fun d hd _ => ?_⟩, fun hp => hp.1 ho⟩
      have := hx d hd
      unfold Before at this
      omega

theorem zoneSetAt_elsewhere {z y : Zone} (hy : y ≠ z) (c : Claim) (b : Bool) (s : State) :
    Elsewhere y s (zoneSetAt c b z s) := by
  unfold zoneSetAt
  split
  · exact .refl y s
  · exact offer_elsewhere hy c s

/-- Settles O42: where the command does not yield, its offer settles by R80–R83. -/
theorem zoneSetPlaces : Obligations.ZoneSetPlaces := by
  intro s q zs yield h
  refine ⟨fun hn => ?_, fun m hm hok => ?_⟩
  · have hc : commandClaim (inHand 1 s) q.cls = none := by
      show Option.map _ (templateInUse s.work s.work.orig[q.cls].preset) = none
      rw [hn]
      rfl
    exact (commandWith_leaves (s := s) (extra := noExtra) (own := oneReply) (v := inHand 1 s)
      (r := .badArgument) (d := .none) h (by rw [show oneReply s = 1 from rfl, hc])).trans rfl
  · intro c
    have hc : commandClaim (inHand 1 s) q.cls = some c := commandClaim_eq (inHand 1 s) q.cls hm
    have hother : ∀ (z y : Zone), y ≠ z → ∀ s, Elsewhere y s (zoneSetAt c yield z s) :=
      fun z y hy s => zoneSetAt_elsewhere hy c yield s
    refine ⟨zonesSettled q zs (zoneSetAt c yield) s, onZones_leaves h (by rw [hc]),
      zonesSettled_onlyZones fun z t => ?_, fun z hz => zonesSettled_leaves hother hz,
      fun z hy ⟨d, hd, ho, hp⟩ => ?_, fun z hz hy => ?_⟩
    · unfold zoneSetAt
      split
      · exact .refl t
      · exact offer_onlyZones z c t
    · by_cases hz : Stays s q.cls zs z
      · obtain ⟨a, h1, h2⟩ := zonesSettled_stays hother hz
        have ha : a.lists[z] = s.lists[z] := h1.list
        have hn : yieldPasses c a.lists[z] = false := Bool.eq_false_iff.2 fun e => by
          rw [ha] at e
          exact Nat.not_lt.2 hp ((yieldPasses_iff (hok z).2.1).1 e d hd ho)
        have e : zoneSetAt c yield z a = a := if_pos (by rw [hy, hn]; rfl)
        rw [h2.list, e, ha]
      · exact zonesSettled_leaves hother hz
    · obtain ⟨a, h1, h2⟩ := zonesSettled_stays hother hz
      have ha : a.lists[z] = s.lists[z] := h1.list
      have e : zoneSetAt c yield z a = offer z c a := if_neg (by
        rcases hy with rfl | hy
        · exact Bool.false_ne_true
        · rw [ha, (yieldPasses_iff (hok z).2.1).2 hy, Bool.not_true, Bool.and_false]
          exact Bool.false_ne_true)
      rw [e] at h2
      refine OfferSettled.of (offer_offerSettled ?_ nofun h2) ha
      rw [h1.grounds.work]
      exact hz.inUse

end Sys2Proof.Machine

namespace Sys2Proof.Machine

/-! ## ZONE CLEAR, RESOUND and the Originator Table (O43) -/

/-! ### A refill with room for all -/

section room
variable {z : Zone}

theorem claimOf_holds {o : Owner} {l : List Claim} (h : holds o l = false) : claimOf o l = none :=
  claimOf_none.2 fun d hd ho => by
    rw [(holds_iff o l).2 ⟨d, hd, ho⟩] at h
    cases h

/-- With room, a claim of an owner that holds none joins the list, and only SILENCE claims leave it. -/
theorem offerCore_room {c : Claim} {s : State} (hu : s.work.spk[z].inUse = true)
    (hn : holds c.owner s.lists[z] = false) (hr : s.lists[z].length < 6) :
    (offerCore z c s).1.lists[z].length ≤ s.lists[z].length + 1 ∧
      ∀ d, d = c ∨ d ∈ s.lists[z] → isSilence d = false → d ∈ (offerCore z c s).1.lists[z] := by
  have hz : (!zoneInUse s z) = false := by rw [zoneInUse, spk, hu]; rfl
  have e : offerCore z c s = afterEntry (isEvacuating c) z (setList z (insertClaim c s.lists[z]) s) := by
    unfold offerCore
    dsimp only
    rw [hz, if_neg Bool.false_ne_true, claimOf_holds hn]
    exact if_pos hr
  rw [e]
  refine ⟨?_, fun d hd hs => mem_afterEntry.2 ⟨?_, fun _ => hs⟩⟩
  · have hlen : (setList z (insertClaim c s.lists[z]) s).lists[z].length = s.lists[z].length + 1 := by
      rw [setList_self, insertClaim_length]
    cases isEvacuating c with
    | false => exact hlen.le
    | true =>
      have h1 : (afterEntry true z (setList z (insertClaim c s.lists[z]) s)).1.lists[z] =
          (setList z (insertClaim c s.lists[z]) s).lists[z].filter fun c => !isSilence c := setList_self _ _ _
      rw [h1]
      exact List.length_filter_le _ _ |>.trans hlen.le
  · rw [setList_self]
    exact mem_insertClaim.2 hd

/-- From `s` to `t` the list has grown by `n` claims at most, and only SILENCE claims have left it. -/
structure Grows (z : Zone) (n : Nat) (s t : State) : Prop where
  length : t.lists[z].length ≤ s.lists[z].length + n
  keeps  : ∀ d ∈ s.lists[z], isSilence d = false → d ∈ t.lists[z]

theorem Grows.holds {n : Nat} {s t : State} (h : Grows z n s t) {o : Owner} (ho : ∀ k, o ≠ .silence k)
    (hh : Machine.holds o s.lists[z] = true) : Machine.holds o t.lists[z] = true := by
  obtain ⟨d, hd, rfl⟩ := (holds_iff _ _).1 hh
  refine (holds_iff _ _).2 ⟨d, h.keeps d hd (Bool.eq_false_iff.2 fun e => ?_), rfl⟩
  obtain ⟨k, hk⟩ := (isSilence_iff d).1 e
  exact ho k hk

theorem Grows.trans {m n : Nat} {s t u : State} (h : Grows z m s t) (g : Grows z n t u) : Grows z (m + n) s u :=
  ⟨by have := h.length; have := g.length; omega, fun d hd hs => g.keeps d (h.keeps d hd hs) hs⟩

/-- With room a record's part of a refill leaves it with its merged claim, where it has one. -/
theorem refillRecord_room (r : ActRecord) {p : State × Bool} (hr : p.1.lists[z].length < 6) :
    Grows z 1 p.1 (refillRecord z r p).1 ∧
      (mergeClaim p.1.work p.1.now r z ≠ none → holds (.cause r.dz) (refillRecord z r p).1.lists[z] = true) := by
  unfold refillRecord
  split
  next hh => exact ⟨⟨Nat.le_succ _, fun _ h _ => h⟩, fun _ => hh⟩
  next hh =>
    split
    next hc => exact ⟨⟨Nat.le_succ _, fun _ h _ => h⟩, fun h => absurd hc h⟩
    next c hc =>
      have ho := mergeClaim_owner hc
      have h := offerCore_room (mergeClaim_inUse hc) (by rw [ho]; exact Bool.eq_false_iff.2 hh) hr
      refine ⟨⟨h.1, fun d hd hs => h.2 d (.inr hd) hs⟩, fun _ => (holds_iff _ _).2 ⟨c, h.2 c (.inl rfl) ?_, ho⟩⟩
      exact Bool.eq_false_iff.2 fun e => by
        obtain ⟨k, hk⟩ := (isSilence_iff c).1 e
        exact mergeClaim_silent hc k hk

theorem refillRecords_room {l : List ActRecord} {p : State × Bool}
    (hr : l.length + p.1.lists[z].length ≤ 6) :
    Grows z l.length p.1 (l.foldl (fun p r => refillRecord z r p) p).1 ∧
      ∀ r ∈ l, mergeClaim p.1.work p.1.now r z ≠ none →
        holds (.cause r.dz) (l.foldl (fun p r => refillRecord z r p) p).1.lists[z] = true := by
  induction l generalizing p with
  | nil => exact ⟨⟨Nat.le_refl _, fun _ h _ => h⟩, nofun⟩
  | cons x l ih =>
    rw [List.length_cons] at hr
    obtain ⟨h1, h2⟩ := refillRecord_room (z := z) x (p := p) (by omega)
    have hg := refillRecord_grounds (z := z) x p
    obtain ⟨h3, h4⟩ := ih (p := refillRecord z x p) (by have := h1.length; omega)
    refine ⟨by rw [List.length_cons, Nat.add_comm]; exact h1.trans h3, fun r hr hm => ?_⟩
    rcases List.mem_cons.1 hr with rfl | hr
    · exact h3.holds nofun (h2 hm)
    · exact h4 r hr (by rw [hg.work, hg.now]; exact hm)

/-- Records of distinct detection zones: the zone names the record. -/
theorem records_unique {l : List ActRecord} (h : l.Pairwise fun a b => a.dz ≠ b.dz) {a b : ActRecord}
    (ha : a ∈ l) (hb : b ∈ l) (e : a.dz = b.dz) : a = b := by
  have hall : l.Pairwise fun a b => a.dz = b.dz → a = b := h.imp fun hn e => absurd e hn
  exact hall.forall_of_forall_of_flip (fun _ _ _ => rfl) (h.imp fun hn e => absurd e.symm hn) ha hb e

/-- A refill with room for all brings each record's merged claim and the OVERFLOW claim. -/
theorem refill_room {s : State} (hu : s.work.spk[z].inUse = true)
    (hr : s.acts.length + s.lists[z].length < 6)
    (hpw : s.acts.Pairwise fun a b => a.dz ≠ b.dz) {d : Claim} (hd : Brings s z d)
    (hn : ∀ x ∈ s.lists[z], x.owner ≠ d.owner) : d ∈ (refill z s).lists[z] := by
  have hsil : isSilence d = false := Bool.eq_false_iff.2 fun e => by
    obtain ⟨k, hk⟩ := (isSilence_iff d).1 e
    rcases hd.owner with ⟨dz, h⟩ | h <;> rw [h] at hk <;> cases hk
  obtain ⟨h1, h2⟩ := refillRecords_room (z := z) (l := s.acts) (p := (s, false)) (Nat.le_of_lt hr)
  have hg := refillRecords_grounds (z := z) s.acts (s, false)
  have ht := refillRecords_turns (z := z) (gone := fun _ => false) s (fun _ h => h) (p := (s, false)) (.refl s)
  -- what the OVERFLOW claim's part adds
  have h3 : Grows z 1 (s.acts.foldl (fun p r => refillRecord z r p) (s, false)).1 (refillPass z s).1 ∧
      (claimCondition s = true → holds .overflow (refillPass z s).1.lists[z] = true) := by
    unfold refillPass
    generalize s.acts.foldl (fun p r => refillRecord z r p) (s, false) = p at h1 hg ⊢
    unfold refillOverflow
    rw [hg.condition]
    cases hc : claimCondition s with
    | false => exact ⟨⟨Nat.le_succ _, fun _ h _ => h⟩, nofun⟩
    | true =>
      cases hh : holds .overflow p.1.lists[z] with
      | true => exact ⟨⟨Nat.le_succ _, fun _ h _ => h⟩, fun _ => hh⟩
      | false =>
        have h := offerCore_room (c := overflowClaim p.1) (by rw [hg.work]; exact hu) hh
          (by have := h1.length; dsimp only at this; omega)
        exact ⟨⟨h.1, fun d hd hs => h.2 d (.inr hd) hs⟩, fun _ => (holds_iff _ _).2 ⟨_, h.2 _ (.inl rfl) rfl, rfl⟩⟩
  have hp := refillPass_grounds (z := z) s
  have hpt := refillPass_turns (z := z) (gone := fun _ => false) s
  -- the claim stands after the first pass
  have hfirst : d ∈ (refillPass z s).1.lists[z] := by
    have hheld : holds d.owner (refillPass z s).1.lists[z] = true := by
      rcases hd with ⟨r, hr, hm⟩ | ⟨hc, rfl⟩
      · rw [mergeClaim_owner hm]
        exact h3.1.holds nofun (h2 r hr (by rw [hm]; nofun))
      · exact h3.2 hc
    obtain ⟨x, hx, ho⟩ := (holds_iff _ _).1 hheld
    rcases hpt.fresh x hx with h | h
    · exact absurd ho (hn x h)
    · have : x = d := by
        rcases hd with ⟨r, hr, hm⟩ | ⟨-, rfl⟩ <;> rcases h with ⟨y, hy, hx'⟩ | ⟨-, rfl⟩
        · have e : r.dz = y.dz := by
            rw [mergeClaim_owner hm, mergeClaim_owner hx'] at ho
            exact (Owner.cause.inj ho).symm
          rw [records_unique hpw hy hr e.symm, hm] at hx'
          exact (Option.some.inj hx').symm
        · rw [mergeClaim_owner hm] at ho
          cases ho
        · rw [mergeClaim_owner hx'] at ho
          cases ho
        · rfl
      exact this ▸ hx
  -- and a second one finds every record and the OVERFLOW claim in place
  unfold refill
  dsimp only
  split
  · have still : (refillPass z (refillPass z s).1).1 = (refillPass z s).1 := by
      generalize hq : (refillPass z s).1 = u at hp h3
      have hrec : ∀ l : List ActRecord, (∀ r ∈ l, r ∈ s.acts) →
          l.foldl (fun p r => refillRecord z r p) (u, false) = (u, false) := by
        intro l hl
        induction l with
        | nil => rfl
        | cons x l ih =>
          have hx : refillRecord z x (u, false) = (u, false) := by
            unfold refillRecord
            dsimp only
            rw [hp.work, hp.now]
            cases hm : mergeClaim s.work s.now x z with
            | none => split <;> rfl
            | some y =>
              rw [if_pos]
              exact h3.1.holds nofun (h2 x (hl x (List.mem_cons_self ..)) (by rw [hm]; nofun))
          rw [List.foldl_cons, hx]
          exact ih fun r hr => hl r (List.mem_cons_of_mem _ hr)
      unfold refillPass
      rw [hp.acts, hrec s.acts fun _ h => h]
      unfold refillOverflow
      dsimp only
      rw [hp.condition]
      cases hc : claimCondition s with
      | false => rfl
      | true => rw [h3.2 hc]; rfl
    rw [still]
    exact hfirst
  · exact hfirst

end room

/-! ### The zones cleared -/

/-- What a removal of the claims `mine` at one zone leaves there. -/
structure ZoneCleared (mine : Claim → Bool) (s u : State) (z : Zone) : Prop where
  kept     : ClaimsKept s.acts mine s u z
  refilled : RecordsOk s → Refilled mine s u z
  bare     : s.acts = [] → s.overflow = false → u.lists[z] = s.lists[z].filter fun c => !mine c
  clear    : (∀ c, mine c = true → (∀ dz, c.owner ≠ .cause dz) ∧ c.owner ≠ .overflow) →
    ∀ c ∈ u.lists[z], mine c = false

theorem removal_cleared {z : Zone} {p : Claim → Bool} {s a u : State}
    (h : Between z s a (removal z p a) u) (ha : a.acts = s.acts) (ho : a.overflow = s.overflow) :
    ZoneCleared p s u z := by
  have hacts : u.acts = s.acts := h.acts.trans ha
  refine ⟨hacts ▸ removal_claimsKept h, fun hr => removal_refilled h (ha ▸ hr.2.1), fun h1 h2 => ?_,
    fun hp c hc => Bool.eq_false_iff.2 fun e => ?_⟩
  · refine (removal_refilled h ?_).bare (hacts.trans h1) ?_
    · rw [ha, h1]
      exact .nil
    · exact (h.runs.trans h.ends.grounds).overflow.trans (ho.trans h2)
  · rw [h.ends.list] at hc
    rcases (removal_anew hc e).owner with ⟨dz, hd⟩ | hd
    · exact (hp c e).1 dz hd
    · exact (hp c e).2 hd

/-- A removal with room for all refills the zone with every claim that it calls for. -/
theorem removal_room {z : Zone} {p : Claim → Bool} {s a u : State} (h : Between z s a (removal z p a) u)
    (ha : a.acts = s.acts) (hr : RecordsOk s) (hu : s.work.spk[z].inUse = true)
    (hroom : s.acts.length + s.lists[z].length ≤ 6) (hex : ∃ c ∈ s.lists[z], p c = true) {d : Claim}
    (hd : Brings a z d) (hn : ∀ x ∈ s.lists[z], x.owner ≠ d.owner) : d ∈ u.lists[z] := by
  have hb : a.lists[z].any p = true := by
    rw [h.list]
    exact List.any_eq_true.2 hex
  have hg : SameGrounds a (setList z (a.lists[z].filter fun c => !p c) a) := ⟨rfl, rfl, rfl, rfl, rfl⟩
  have hlt : (a.lists[z].filter fun c => !p c).length < a.lists[z].length := by
    obtain ⟨c, hc, hp⟩ := hex
    exact List.length_filter_lt_length_iff_exists.2 ⟨c, h.list ▸ hc, by simpa using hp⟩
  rw [h.ends.list, (removal_settles hb).list]
  refine refill_room ?_ ?_ ?_ ((hg.brings z d).2 hd) fun x hx => ?_
  · rw [hg.work, h.work]
    exact hu
  · rw [hg.acts, ha, setList_self]
    rw [h.list] at hlt ⊢
    omega
  · rw [hg.acts, ha]
    exact hr.2.1
  · rw [setList_self, h.list] at hx
    exact hn x (List.mem_filter.1 hx).1

theorem zonesCleared {q : Request} {zs : ZoneSet} {mine : Claim → Bool} {s : State}
    (hm : ∀ c, mine c = true → (∀ dz, c.owner ≠ .cause dz) ∧ c.owner ≠ .overflow) :
    let u := zonesSettled q zs (fun z => removal z mine) s
    OnlyZones (leftQueue s) u ∧
    (∀ z : Zone, ¬Stays s q.cls zs z → u.lists[z] = s.lists[z]) ∧
    (∀ z : Zone, (∀ c ∈ s.lists[z], mine c = false) → u.lists[z] = s.lists[z]) ∧
    (∀ z : Zone, Stays s q.cls zs z → ∀ c ∈ u.lists[z], mine c = false) ∧
    (s.acts = [] → s.overflow = false → ∀ z : Zone, Stays s q.cls zs z →
      u.lists[z] = s.lists[z].filter fun c => !mine c) ∧
    (∀ z : Zone, RecordsOk s → Stays s q.cls zs z → s.acts.length + s.lists[z].length ≤ 6 →
      (∃ c ∈ s.lists[z], mine c = true) →
      (∀ r ∈ s.acts, ∀ c, (∀ d ∈ s.lists[z], d.owner ≠ .cause r.dz) →
        mergeClaim s.work s.now r z = some c → c ∈ u.lists[z]) ∧
      (s.overflow = true → (∀ d ∈ s.lists[z], d.owner ≠ .overflow) → overflowClaim s ∈ u.lists[z])) ∧
    ∀ z : Zone, Stays s q.cls zs z →
      ClaimsKept s.acts mine s u z ∧ (RecordsOk s → Refilled mine s u z) := by
  intro u
  have hother : ∀ (z y : Zone), y ≠ z → ∀ s, Elsewhere y s (removal z mine s) :=
    fun z y hy s => removal_elsewhere hy mine s
  have hleave : ∀ z : Zone, ¬Stays s q.cls zs z → u.lists[z] = s.lists[z] :=
    fun z hz => zonesSettled_leaves hother hz
  have hbetween : ∀ z, Stays s q.cls zs z → ∃ a, a.acts = s.acts ∧ a.overflow = s.overflow ∧
      a.defaultMode = s.defaultMode ∧ Between z s a (removal z mine a) u := fun z hz => by
    obtain ⟨a, h1, h2⟩ := zonesSettled_stays hother hz
    exact ⟨a, h1.grounds.acts, h1.grounds.overflow, h1.grounds.mode, h1.grounds.work, h1.grounds.now, h1.list,
      removal_grounds z mine a, h2⟩
  have hcl : ∀ z, Stays s q.cls zs z → ZoneCleared mine s u z := fun z hz => by
    obtain ⟨a, ha, ho, -, hb⟩ := hbetween z hz
    exact removal_cleared hb ha ho
  refine ⟨zonesSettled_onlyZones fun z t => removal_onlyZones z mine t, hleave, fun z hn => ?_,
    fun z hz => (hcl z hz).clear hm, fun h1 h2 z hz => (hcl z hz).bare h1 h2, fun z hr hz hroom hex => ?_,
    fun z hz => ⟨(hcl z hz).kept, (hcl z hz).refilled⟩⟩
  · by_cases hz : Stays s q.cls zs z
    · exact (hcl z hz).kept.whole hn
    · exact hleave z hz
  · obtain ⟨a, ha, ho, hmode, hb⟩ := hbetween z hz
    refine ⟨fun r hrm c hn hc => ?_, fun hov hn => ?_⟩
    · refine removal_room hb ha hr hz.inUse hroom hex (.inl ⟨r, ha ▸ hrm, ?_⟩)
        (by rw [mergeClaim_owner hc]; exact hn)
      rw [hb.work, hb.now]
      exact hc
    · refine removal_room hb ha hr hz.inUse hroom hex (.inr ⟨?_, (overflowClaim_eq hb.work hb.now).symm⟩) hn
      exact (claimCondition_iff a).2 (.inl (ho.trans hov))

theorem outOfReach_iff (k : Class) (old new : OrigEntry) (z : Zone) (c : Claim) :
    outOfReach k old new z c = true ↔
      (c.owner = .command k ∧ ((inSet old.reach z = true ∧ inSet new.reach z = false) ∨
        (old.perms.zone = true ∧ new.perms.zone = false))) ∨
      (c.owner = .silence k ∧ ((inSet old.reach z = true ∧ inSet new.reach z = false) ∨
        (old.perms.silence = true ∧ new.perms.silence = false))) ∨
      (c.owner = .warden ∧ (inSet old.reach z = true ∧ inSet new.reach z = false) ∧ k = 5) := by
  unfold outOfReach
  cases c.owner <;> simp [and_comm]

theorem origWritten_between (k : Class) (old new : OrigEntry) (s : State) (z : Zone) :
    ∃ a, Elsewhere z s a ∧ Between z s a (removal z (outOfReach k old new z) a) (origWritten k old new s) :=
  removals_between (p := outOfReach k old new) nodup_allZones (mem_allZones z) s

theorem OnlyZones.written {i : Nat} {c : Contents} {s v : State} (h : OnlyZones (inWriting i c s) v) :
    OnlyZones (written i c s) { v with reserved := 0 } := by
  obtain ⟨hf, hq⟩ := h
  refine ⟨?_, hq.out, hq.held, hq.quiet⟩
  rw [hf]
  rfl

/-- A written Originator Table entry's removals, with its command's room given back. -/
theorem origWrite_leaves {s : State} {q : Request} {k : Fin 8} {e e' : OrigEntry}
    (h : WriteTaken s q 6 k.val (.originator e) (.originator e')) :
    writeLeaves s q 6 k.val (.originator e)
      { origWritten k s.work.orig[k] e' (inWriting k.val (.originator e') s) with reserved := 0 } := by
  refine h.leaves ?_
  unfold writeEffects
  dsimp only
  rw [atIndex_fin]

/-- Settles O43: ZONE CLEAR and RESOUND remove at the zones that stay, a write of the Originator Table at each
zone in its turn. -/
theorem zonesClearedAndResounded : Obligations.ZonesClearedAndResounded := by
  unfold Obligations.ZonesClearedAndResounded
  intro cleared
  refine ⟨fun s q zs h => ?_, fun s q zs h => ?_, fun s q k e e' h => ?_⟩
  · refine ⟨_, onZones_leaves (f := fun z => removal z (ownedBy (.command q.cls))) h rfl, ?_⟩
    exact zonesCleared (mine := ownedBy (.command q.cls)) fun c hc => by
      have : c.owner = .command q.cls := by simpa [ownedBy] using hc
      rw [this]
      exact ⟨nofun, nofun⟩
  · refine ⟨_, onZones_leaves (f := fun z => removal z isSilence) h rfl, ?_⟩
    exact zonesCleared (mine := isSilence) fun c hc => by
      obtain ⟨j, hj⟩ := (isSilence_iff c).1 hc
      rw [hj]
      exact ⟨nofun, nofun⟩
  · intro old w
    have hw := origWritten_onlyZones k old e' (inWriting k.val (.originator e') s)
    refine ⟨_, origWrite_leaves h, hw.written, fun z => ?_⟩
    obtain ⟨a, h1, h2⟩ := origWritten_between k old e' (inWriting k.val (.originator e') s) z
    have hb : Between z w a (removal z (outOfReach k old e' z) a)
        { origWritten k old e' (inWriting k.val (.originator e') s) with reserved := 0 } :=
      ⟨h2.work, h2.now, h2.list, h2.runs, h2.ends.trans (.released z _)⟩
    have hcl : ZoneCleared (outOfReach k old e' z) w _ z :=
      removal_cleared hb h1.grounds.acts h1.grounds.overflow
    have hgone := hcl.clear fun c hc => by
      rcases (outOfReach_iff k old e' z c).1 hc with ⟨h, -⟩ | ⟨h, -⟩ | ⟨h, -⟩ <;> rw [h] <;> exact ⟨nofun, nofun⟩
    have hnot : ∀ {c : Claim}, c ∈ ({ origWritten k old e' (inWriting k.val (.originator e') s) with
        reserved := 0 } : State).lists[z] → outOfReach k old e' z c = true → False := fun hc e =>
      Bool.false_ne_true ((hgone _ hc).symm.trans e)
    intro gone noZone noSilence
    refine ⟨fun hg c hc ho => hnot hc ((outOfReach_iff ..).2 (.inl ⟨ho, hg⟩)),
      fun hg c hc ho => hnot hc ((outOfReach_iff ..).2 (.inr (.inl ⟨ho, hg⟩))),
      fun hg hk c hc ho => hnot hc ((outOfReach_iff ..).2 (.inr (.inr ⟨ho, hg, hk⟩))),
      fun h1 h2 h3 => hcl.kept.whole fun c _ => Bool.eq_false_iff.2 fun e => ?_, fun removed hr => ?_⟩
    · rcases (outOfReach_iff k old e' z c).1 e with ⟨-, h | h⟩ | ⟨-, h | h⟩ | ⟨-, h, -⟩
      · exact h1 h
      · exact h2 h
      · exact h1 h
      · exact h3 h
      · exact h1 h
    · have : removed = outOfReach k old e' z := funext fun c =>
        Bool.eq_iff_iff.2 ((hr c).trans (outOfReach_iff k old e' z c).symm)
      rw [this]
      exact ⟨hcl.kept, hcl.refilled, hcl.bare⟩

end Sys2Proof.Machine

namespace Sys2Proof.Machine

/-! ## The removal of a record (O36, O37) -/

/-- `a` has the records, the tables, the moment and the claim lists of `s`. -/
structure SameClaims (s a : State) : Prop where
  grounds : SameGrounds s a
  lists   : a.lists = s.lists

theorem SameClaims.inHand (own : Nat) (s : State) : SameClaims s (inHand own s) := ⟨⟨rfl, rfl, rfl, rfl, rfl⟩, rfl⟩

theorem SameClaims.refl (s : State) : SameClaims s s := ⟨.refl s, rfl⟩

/-- The records left by the removal of those of a zone. -/
def withoutRecord (dz : Nat) (s : State) : List ActRecord := s.acts.filter fun r => r.dz != dz

/-- The state in which the claims of a record leave the zones: the record is gone, and with the last one
ACTIVATION OVERFLOW (R26). -/
def recordDropped (dz : Nat) (s : State) : State :=
  updateLock { s with
    acts := withoutRecord dz s, overflow := s.overflow && !(withoutRecord dz s).isEmpty }

/-- What the removal of a record leaves of the records and of ACTIVATION OVERFLOW. -/
structure Dropped (dz : Nat) (s a : State) : Prop where
  work     : a.work = s.work
  now      : a.now = s.now
  acts     : a.acts = withoutRecord dz s
  overflow : a.overflow = (s.overflow && !(withoutRecord dz s).isEmpty)

theorem Dropped.of {dz : Nat} {s a b : State} (h : Dropped dz s a) (g : SameGrounds a b) : Dropped dz s b :=
  ⟨g.work.trans h.work, g.now.trans h.now, g.acts.trans h.acts, g.overflow.trans h.overflow⟩

theorem recordDropped_dropped (dz : Nat) (s : State) : Dropped dz s (recordDropped dz s) :=
  Dropped.of (a := { s with
    acts := withoutRecord dz s, overflow := s.overflow && !(withoutRecord dz s).isEmpty })
    ⟨rfl, rfl, rfl, rfl⟩ (updateLock_onlyZones _).grounds

theorem recordDropped_lists (dz : Nat) (s : State) : (recordDropped dz s).lists = s.lists := updateLock_lists _

theorem recordDropped_later (dz : Nat) (s : State) : Later s (recordDropped dz s) :=
  Later.trans (t := { s with
    acts := withoutRecord dz s, overflow := s.overflow && !(withoutRecord dz s).isEmpty })
    (.same rfl rfl) (updateLock_later _)

theorem removeRecord_dropped (dz : Nat) (s : State) : Dropped dz s (removeRecord dz s) :=
  (recordDropped_dropped dz s).of (removalAll_onlyZones _ _).grounds

/-- At each zone the record's removal is one removal of claims, after the records have gone. -/
theorem removeRecord_between {dz : Nat} {s u : State} {z : Zone} (hu : Elsewhere z (removeRecord dz s) u) :
    ∃ a, Dropped dz s a ∧ Later s a ∧
      Between z s a (removal z (leavesWith dz (withoutRecord dz s).isEmpty) a) u := by
  obtain ⟨a, h1, h2⟩ := removals_between (p := fun _ => leavesWith dz (withoutRecord dz s).isEmpty)
    nodup_allZones (mem_allZones z) (recordDropped dz s)
  have hd := (recordDropped_dropped dz s).of h1.grounds
  exact ⟨a, hd, (recordDropped_later dz s).trans h1.later, hd.work, hd.now,
    by rw [h1.list, recordDropped_lists], h2.runs, h2.ends.trans hu⟩

theorem leavesWith_iff (dz : Nat) (b : Bool) (c : Claim) :
    leavesWith dz b c = true ↔ c.owner = .cause dz ∨ (b = true ∧ c.owner = .overflow) := by
  simp [leavesWith, ownedBy]

/-- A record's removal settles as R26 gives, also where the state about it has changed before or after. -/
theorem recordGone_of {dz : Nat} {s a u : State} (h : SameClaims s a)
    (hu : ∀ z, Elsewhere z (removeRecord dz a) u) : RecordGone s u dz := by
  have hrest : withoutRecord dz a = s.acts.filter fun x => x.dz != dz := by
    unfold withoutRecord
    rw [h.grounds.acts]
  have hd : Dropped dz a u := (removeRecord_dropped dz a).of (hu 0).grounds
  have hacts : u.acts = s.acts.filter fun x => x.dz != dz := hd.acts.trans hrest
  have hov := hd.overflow
  rw [← hd.acts, h.grounds.overflow] at hov
  unfold RecordGone
  intro gone
  have hgone : leavesWith dz (withoutRecord dz a).isEmpty = gone := by
    rw [← hd.acts]
    rfl
  refine ⟨hacts, fun he => ?_, fun he => ?_, fun z => ?_⟩
  · rw [hov, he]
    exact Bool.and_false _
  · rw [hov, show u.acts.isEmpty = false from by simpa using he]
    exact Bool.and_true _
  · obtain ⟨b, hb, -, h2⟩ := removeRecord_between (hu z)
    have h2 : Between z s b (removal z (leavesWith dz (withoutRecord dz a).isEmpty) b) u :=
      ⟨h2.work.trans h.grounds.work, h2.now.trans h.grounds.now, h2.list.trans (by rw [h.lists]), h2.runs, h2.ends⟩
    rw [hgone] at h2
    refine ⟨removal_claimsKept h2, fun hr => removal_refilled h2 ?_⟩
    rw [hb.acts, hrest]
    exact hr.2.1.sublist List.filter_sublist

section bounded
variable {s v : State} {q : Request} {b : CmdBody} {dz : Nat} {f : State → State}

/-- A command on a detection zone above 511 is refused (R18, R27, R28, R63). -/
theorem zoneCommand_refused (h : Admitted s q b 1) (hdz : 511 < dz) :
    command ⟨q, b⟩ oneReply
      (fun s => if 511 < dz then reply ⟨q, b⟩ .badArgument .none s else replyDone ⟨q, b⟩ (f s)) s =
      .next (repliedWith s q b .badArgument .none) :=
  (commandWith_leaves (s := s) (extra := noExtra) (own := oneReply) (v := inHand 1 s)
    (act := fun s => if 511 < dz then reply ⟨q, b⟩ .badArgument .none s else replyDone ⟨q, b⟩ (f s))
    (r := .badArgument) (d := .none) h (if_pos hdz)).trans rfl

/-- Any other leaves what it makes of the state in hand, its DONE placed last. -/
theorem zoneCommand_done (h : Admitted s q b 1) (hdz : dz ≤ 511) (hv : f (inHand 1 s) = v) :
    command ⟨q, b⟩ oneReply
      (fun s => if 511 < dz then reply ⟨q, b⟩ .badArgument .none s else replyDone ⟨q, b⟩ (f s)) s =
      .next (place (replyMsg q (codeOf b) .done .none) { v with reserved := 0 }) :=
  (commandWith_leaves (s := s) (extra := noExtra) (own := oneReply) (v := v)
    (act := fun s => if 511 < dz then reply ⟨q, b⟩ .badArgument .none s else replyDone ⟨q, b⟩ (f s))
    (r := .done) (d := .none) h
    ((if_neg (Nat.not_lt.2 hdz)).trans (congrArg (replyDone ⟨q, b⟩) hv))).trans rfl

end bounded

/-! ### CAUSE OFF -/

section causeOff
variable {s : State} {dz : Nat}

theorem causeOff_none (h : recordOf s dz = none) : causeOff dz s = s := by
  unfold causeOff
  rw [h]

theorem causeOff_latched {r : ActRecord} (h : recordOf s dz = some r) (hl : r.latched = true) :
    causeOff dz s = mapRecord dz (fun r => { r with restored := true }) s := by
  unfold causeOff
  rw [h]
  exact if_pos hl

theorem causeOff_removes {r : ActRecord} (h : recordOf s dz = some r) (hl : r.latched = false) :
    causeOff dz s = removeRecord dz s := by
  unfold causeOff
  rw [h]
  exact if_neg (by rw [hl]; exact Bool.false_ne_true)

end causeOff

/-- Settles O36: the case split is CAUSE OFF's own. -/
theorem causeOffActs : Obligations.CauseOffActs := by
  intro s q dz h
  refine ⟨fun hdz => zoneCommand_refused h hdz, fun hdz hn => ?_, fun r hdz hr hl => ?_, fun r hdz hr hl => ?_⟩
  · exact (zoneCommand_done h hdz (causeOff_none (s := inHand 1 s) hn)).trans rfl
  · exact (zoneCommand_done h hdz (causeOff_latched (s := inHand 1 s) hr hl)).trans rfl
  · exact ⟨_, zoneCommand_done h hdz (causeOff_removes (s := inHand 1 s) hr hl),
      (removeRecord_onlyCauses dz (inHand 1 s)).released,
      recordGone_of (.inHand 1 s) fun z => .released z _⟩

/-! ### CAUSE RESET and CAUSE RESET ALL -/

/-- From `s` to `t` records of `R` have been removed one by one, as far as zone `z` sees it: what came was a claim
of one of them or the OVERFLOW claim, and none of a removed one is left. -/
structure Resetting (R : List ActRecord) (gone : Claim → Bool) (z : Zone) (s t : State) : Prop where
  turns : Turns (fun d => gone d = true)
    (∃ r ∈ R, ∃ c, mergeClaim s.work s.now r z = some c ∧ c.stage = some .evacuate) gone z s t
  whole : (∀ d ∈ s.lists[z], gone d = false) → t.lists[z] = s.lists[z]
  work  : t.work = s.work
  now   : t.now = s.now
  acts  : ∀ r ∈ t.acts, r ∈ R
  done  : ∀ r ∈ R, (∀ x ∈ t.acts, x.dz ≠ r.dz) → ∀ d ∈ t.lists[z], d.owner ≠ .cause r.dz

theorem Resetting.step {R : List ActRecord} {gone : Claim → Bool} {z : Zone} {s t : State} {dz : Nat}
    (hR : ∀ c, gone c = true ↔ c.owner = .overflow ∨ ∃ r ∈ R, c.owner = .cause r.dz)
    (hdz : ∃ r ∈ R, r.dz = dz) (h : Resetting R gone z s t) : Resetting R gone z s (removeRecord dz t) := by
  obtain ⟨a, hd, hla, hb⟩ := removeRecord_between (dz := dz) (Elsewhere.refl z (removeRecord dz t))
  have hrest : ∀ r ∈ a.acts, r ∈ t.acts ∧ r.dz ≠ dz := fun r hr => by
    rw [hd.acts] at hr
    obtain ⟨h1, h2⟩ := List.mem_filter.1 hr
    exact ⟨h1, by simpa using h2⟩
  have hfin : (removeRecord dz t).acts = a.acts := hb.acts
  have hleaves : ∀ d, leavesWith dz (withoutRecord dz t).isEmpty d = true → gone d = true := fun d hd' => by
    rcases (leavesWith_iff _ _ _).1 hd' with h1 | ⟨-, h1⟩
    · obtain ⟨r, hr, e⟩ := hdz
      exact (hR d).2 (.inr ⟨r, hr, e ▸ h1⟩)
    · exact (hR d).2 (.inl h1)
  have hbrings : ∀ d, Brings a z d → gone d = true := fun d hd' => by
    rcases hd' with ⟨r, hr, hm⟩ | ⟨-, rfl⟩
    · exact (hR d).2 (.inr ⟨r, h.acts r (hrest r hr).1, mergeClaim_owner hm⟩)
    · exact (hR _).2 (.inl rfl)
  have hone : Turns (Brings a z) (Evacuates a z) (leavesWith dz (withoutRecord dz t).isEmpty) z t
      (removeRecord dz t) :=
    (Turns.same hla hb.list).trans ((removal_turns z _ a).trans hb.ends.turns)
  refine ⟨h.turns.trans (hone.mono hbrings (fun ⟨r, hr, c, hm, he⟩ => ?_) hleaves), fun hn => ?_,
    (removeRecord_dropped dz t).work.trans h.work, (removeRecord_dropped dz t).now.trans h.now,
    fun r hr => h.acts r (hrest r (hfin ▸ hr)).1, fun r hr hx d hd' ho => ?_⟩
  · rw [hb.work, hb.now, h.work, h.now] at hm
    exact ⟨r, h.acts r (hrest r hr).1, c, hm, he⟩
  · have hw := h.whole hn
    rw [hb.ends.list, removal_idle, hb.list, hw]
    intro c hc
    rw [hb.list, hw] at hc
    exact Bool.eq_false_iff.2 fun e => Bool.false_ne_true ((hn c hc).symm.trans (hleaves c e))
  · have hnb : ¬Brings a z d := by
      intro hbr
      rcases hbr with ⟨x, hx', hm⟩ | ⟨-, hov⟩
      · rw [mergeClaim_owner hm] at ho
        exact hx x (by rw [hfin]; exact hx') (Owner.cause.inj ho)
      · rw [hov, overflowClaim_owner] at ho
        cases ho
    have hdt := (hone.fresh d hd').resolve_right hnb
    by_cases e : r.dz = dz
    · refine hnb (removal_anew (hb.ends.list ▸ hd') ((leavesWith_iff _ _ _).2 (.inl (e ▸ ho))))
    · refine h.done r hr (fun x hx' hxr => ?_) d hdt ho
      refine hx x ?_ hxr
      rw [hfin, hd.acts]
      exact List.mem_filter.2 ⟨hx', by simpa [hxr] using e⟩

/-- The removal of every record, at one zone. -/
theorem causeResetAll_resetting {s : State} {gone : Claim → Bool} {z : Zone}
    (hR : ∀ c, gone c = true ↔ c.owner = .overflow ∨ ∃ r ∈ s.acts, c.owner = .cause r.dz) :
    Resetting s.acts gone z s (causeResetAll s) := by
  have all : ∀ (l : List Nat) (t : State), (∀ dz ∈ l, ∃ r ∈ s.acts, r.dz = dz) →
      Resetting s.acts gone z s t → Resetting s.acts gone z s (l.foldl (fun t dz => removeRecord dz t) t) := by
    intro l
    induction l with
    | nil => exact fun _ _ h => h
    | cons dz l ih =>
      intro t hl h
      rw [List.foldl_cons]
      exact ih (removeRecord dz t) (fun x hx => hl x (List.mem_cons_of_mem _ hx))
        (h.step hR (hl dz (List.mem_cons_self ..)))
  have h0 : Resetting s.acts gone z s s :=
    ⟨.refl s, fun _ => rfl, rfl, rfl, fun _ h => h, fun r hr hx => absurd rfl (hx r hr)⟩
  unfold causeResetAll
  exact all (s.acts.map fun r => r.dz) s (fun dz hdz => List.mem_map.1 hdz) h0

/-- The removal of records leaves those of other zones, and with the last ACTIVATION OVERFLOW goes. -/
theorem removals_acts (l : List Nat) (s : State) :
    (l.foldl (fun t dz => removeRecord dz t) s).acts = s.acts.filter fun r => !l.contains r.dz := by
  induction l generalizing s with
  | nil => simp
  | cons dz l ih =>
    rw [List.foldl_cons, ih, (removeRecord_dropped dz s).acts]
    unfold withoutRecord
    rw [List.filter_filter]
    refine List.filter_congr fun r _ => ?_
    rw [List.contains_cons, Bool.not_or, bne, Bool.and_comm]

theorem causeResetAll_acts (s : State) : (causeResetAll s).acts = [] := by
  unfold causeResetAll
  rw [removals_acts, List.filter_eq_nil_iff]
  intro r hr
  simpa using ⟨r, hr, rfl⟩

/-- Once every record has gone, no condition calls for the OVERFLOW claim and none stands. -/
theorem causeResetAll_bare {s : State} (h : s.acts ≠ []) :
    (causeResetAll s).overflow = false ∧ ∀ (z : Zone), ∀ d ∈ (causeResetAll s).lists[z], d.owner ≠ .overflow := by
  have hlast : ∃ dz t, causeResetAll s = removeRecord dz t := by
    unfold causeResetAll
    obtain ⟨l, dz, hl⟩ := (List.eq_nil_or_concat (s.acts.map fun r => r.dz)).resolve_left (by simpa using h)
    exact ⟨dz, l.foldl (fun t dz => removeRecord dz t) s, by
      rw [hl, List.concat_eq_append, List.foldl_append, List.foldl_cons, List.foldl_nil]⟩
  obtain ⟨dz, t, he⟩ := hlast
  have hd := removeRecord_dropped dz t
  have hrest : withoutRecord dz t = [] := by
    rw [← hd.acts, ← he]
    exact causeResetAll_acts s
  refine ⟨by rw [he, hd.overflow, hrest]; exact Bool.and_false _, fun z d hd' ho => ?_⟩
  obtain ⟨a, ha, -, hb⟩ := removeRecord_between (dz := dz) (Elsewhere.refl z (removeRecord dz t))
  rw [he, hb.ends.list] at hd'
  rcases removal_anew hd' ((leavesWith_iff _ _ _).2 (.inr ⟨by rw [hrest]; rfl, ho⟩)) with ⟨r, hr, -⟩ | ⟨hc, -⟩
  · rw [ha.acts, hrest] at hr
    cases hr
  · rcases (claimCondition_iff a).1 hc with h1 | ⟨-, h1⟩
    · rw [ha.overflow, hrest, List.isEmpty_nil, Bool.not_true, Bool.and_false] at h1
      cases h1
    · exact h1 (ha.acts.trans hrest)

theorem causeReset_none {s : State} {dz : Nat} (h : recordOf s dz = none) : causeReset dz s = s := by
  unfold causeReset
  rw [h]
  rfl

theorem causeReset_removes {s : State} {dz : Nat} {r : ActRecord} (h : recordOf s dz = some r) :
    causeReset dz s = removeRecord dz s := by
  unfold causeReset
  rw [h]
  rfl

/-- What CAUSE RESET ALL leaves of the claims (R29): none of a cause and no OVERFLOW claim, the others kept. -/
theorem causeResetAll_claims {s a u : State} (h : SameClaims s a) (ha : s.acts ≠ [])
    (hu : ∀ z, Elsewhere z (causeResetAll a) u) (z : Zone) :
    (∀ c ∈ u.lists[z], c.owner ≠ .overflow ∧ (∀ r ∈ s.acts, c.owner ≠ .cause r.dz) ∧ c ∈ s.lists[z]) ∧
      ClaimsKept s.acts (fun c => c.owner == .overflow || s.acts.any fun r => c.owner == .cause r.dz) s u z := by
  have hR : ∀ c : Claim, (c.owner == .overflow || s.acts.any fun r => c.owner == .cause r.dz) = true ↔
      c.owner = .overflow ∨ ∃ r ∈ a.acts, c.owner = .cause r.dz := by
    intro c
    rw [h.grounds.acts]
    simp
  have hz := causeResetAll_resetting (z := z) hR
  have hno := fun c hc => (causeResetAll_bare (h.grounds.acts ▸ ha)).2 z c hc
  have hl : a.lists[z] = s.lists[z] := by rw [h.lists]
  have hgone : ∀ c ∈ u.lists[z], c.owner ≠ .overflow ∧ ∀ r ∈ s.acts, c.owner ≠ .cause r.dz := by
    intro c hc
    rw [(hu z).list] at hc
    refine ⟨hno c hc, fun r hr => hz.done r (h.grounds.acts ▸ hr) ?_ c hc⟩
    rw [causeResetAll_acts]
    nofun
  have hnot : ∀ c ∈ u.lists[z],
      (c.owner == .overflow || s.acts.any fun r => c.owner == .cause r.dz) = true → False := by
    intro c hc e
    rcases (hR c).1 e with h1 | ⟨r, hr, h1⟩
    · exact (hgone c hc).1 h1
    · exact (hgone c hc).2 r (h.grounds.acts ▸ hr) h1
  have hold : ∀ c ∈ u.lists[z], c ∈ s.lists[z] := by
    intro c hc
    have hc' := hc
    rw [(hu z).list] at hc'
    rcases hz.turns.fresh c hc' with h1 | h1
    · exact hl ▸ h1
    · exact (hnot c hc h1).elim
  refine ⟨fun c hc => ⟨(hgone c hc).1, (hgone c hc).2, hold c hc⟩, ⟨⟨fun d hd hm => ?_, fun d hd _ => ?_⟩, fun hn => ?_,
    fun d hd e => (hnot d hd e).elim⟩⟩
  · rcases hz.turns.kept d (hl ▸ hd) hm with h1 | h1 | ⟨hs, he⟩
    · exact .inl ((hu z).list ▸ h1)
    · exact .inr (.inl (h1.later (hu z).later))
    · rw [h.grounds.acts, h.grounds.work, h.grounds.now] at he
      exact .inr (.inr ⟨hs, he⟩)
  · exact .inl (hold d hd)
  · rw [(hu z).list, hz.whole (by rw [hl]; exact hn), hl]

/-- Settles O37: one record as CAUSE OFF removes it, or every record in turn. -/
theorem causeResets : Obligations.CauseResets := by
  refine ⟨fun s q dz h => ⟨fun hdz => zoneCommand_refused h hdz, fun hdz hn => ?_, fun r hdz hr => ?_⟩,
    fun s q h => ?_⟩
  · exact (zoneCommand_done h hdz (causeReset_none (s := inHand 1 s) hn)).trans rfl
  · exact ⟨_, zoneCommand_done h hdz (causeReset_removes (s := inHand 1 s) hr),
      (removeRecord_onlyCauses dz (inHand 1 s)).released,
      recordGone_of (.inHand 1 s) fun z => .released z _⟩
  · have leaves : ∀ v, causeResetAll (inHand 1 s) = v → exec (.causeResetAll q) s =
        .next (place (replyMsg q .causeReset .done .none) { v with reserved := 0 }) := fun v hv =>
      (commandWith_leaves (s := s) (extra := noExtra) (own := oneReply) (v := v) (r := .done) (d := .none)
        (act := fun s => replyDone ⟨q, .causeResetAll⟩ (causeResetAll s)) h
        (congrArg (replyDone ⟨q, .causeResetAll⟩) hv)).trans rfl
    refine ⟨fun ha => (leaves (inHand 1 s) ?_).trans rfl, fun ha => ?_⟩
    · unfold causeResetAll
      rw [show (inHand 1 s).acts = [] from ha]
      rfl
    · have hlate : ∀ z, Elsewhere z (causeResetAll (inHand 1 s)) { causeResetAll (inHand 1 s) with reserved := 0 } :=
        fun z => .released z _
      exact ⟨_, leaves _ rfl, (causeResetAll_onlyCauses (inHand 1 s)).released,
        causeResetAll_acts (inHand 1 s), (causeResetAll_bare (s := inHand 1 s) ha).1,
        fun z => causeResetAll_claims (.inHand 1 s) ha hlate z⟩

end Sys2Proof.Machine

namespace Sys2Proof.Machine

/-! ## The end of a step (O46) -/

/-- From `s` to `t` a channel of a ONCE program that is ENDED stays so (R136, R137). -/
structure EndedStays (n : Fin 4) (s t : State) : Prop where
  work : t.work = s.work
  keep : s.work.progs[n].mode = .named .once → s.chans[n].state = .ended → t.chans[n].state = .ended

namespace EndedStays
variable {n : Fin 4} {s t u : State}

theorem same (hw : t.work = s.work) (hc : t.chans = s.chans) : EndedStays n s t :=
  ⟨hw, fun _ h => by rw [hc]; exact h⟩

theorem trans (h : EndedStays n s t) (g : EndedStays n t u) : EndedStays n s u :=
  ⟨g.work.trans h.work, fun hm he => g.keep (by rw [h.work]; exact hm) (h.keep hm he)⟩

end EndedStays

/-- A listener count starts no ONCE program that is ENDED (R136). -/
theorem chanCount_endedStays (n m : Fin 4) (k : Nat) (s : State) : EndedStays n s (chanCount m k s) := by
  have h1 : EndedStays n s (setChan m (fun c => { c with listeners := k }) s) := by
    refine ⟨rfl, fun _ he => ?_⟩
    by_cases hm : n = m
    · subst hm
      rw [setChan_self']
      exact he
    · rw [setChan_other' hm]
      exact he
  -- a start concerns another channel, or a program that is not ONCE, or a channel that is not ENDED
  have start : (n = m → s.work.progs[n].mode = .named .once → s.chans[n].state ≠ .ended) →
      EndedStays n s (startChan m (setChan m (fun c => { c with listeners := k }) s)) := by
    intro hno
    refine h1.trans ⟨(startChan_onlyZones m _).work, fun ho he => ?_⟩
    by_cases hm : n = m
    · subst hm
      rw [setChan_self'] at he
      exact absurd he (hno rfl ho)
    · rw [startChan_other hm]
      exact he
  unfold chanCount
  dsimp only
  split
  · split
    next hd =>
      split
      · exact h1
      · exact start fun hm ho => by
          subst hm
          rw [hd] at ho
          cases ho
    · split
      next hi =>
        exact start fun hm _ => by
          subst hm
          rw [hi]
          nofun
      · exact h1
    · exact h1
  · exact h1

theorem countSource_endedStays (n : Fin 4) (src : Source) (f : Nat → Nat) (s : State) :
    EndedStays n s (countSource src f s) := by
  unfold countSource
  split
  · unfold countCad
    split <;> exact .same rfl rfl
  · unfold countChan
    split
    · exact chanCount_endedStays n _ _ s
    · exact .same rfl rfl
  · exact .same rfl rfl

theorem handOver_endedStays (n : Fin 4) (z : Zone) (s : State) : EndedStays n s (handOver z s) := by
  have h : ∀ a b o, EndedStays n s (listenerChange a b (setOut z o s)) := by
    intro a b o
    refine EndedStays.trans (t := setOut z o s) (.same rfl rfl) ?_
    unfold listenerChange
    split
    · exact .same rfl rfl
    · exact (countSource_endedStays n _ _ _).trans (countSource_endedStays n _ _ _)
  have ha : ∀ u, EndedStays n u (arbiter u) := fun u => by
    have hp := arbiter_pool u
    exact .same (by rw [hp]) (by rw [hp])
  unfold handOver
  dsimp only
  split
  · exact (h _ _ _).trans (ha _)
  · exact h _ _ _

theorem endedStays_zoneRel (n : Fin 4) : ZoneRel (EndedStays n) where
  list z := {
    refl := fun _ => .same rfl rfl
    trans := .trans
    core := fun c s => by
      have h := (offerCore_listOnly z c s).1
      exact .same (by rw [h]) (by rw [h])
    cut := fun _ _ => .same rfl rfl }
  hand := handOver_endedStays n
  lock s := .same (updateLock_work s) (updateLock_chans s)

/-! ### The four ways a step ends -/

section stepEnds
variable {s : State} {n : Fin 4}

theorem stepEnds_waits (hm : s.work.progs[n].mode = .named .demand) (hl : s.chans[n].listeners = 0) :
    stepEnds n s = stopped s n .waiting := if_pos ⟨hm, hl⟩

theorem stepEnds_next (hd : ¬(s.work.progs[n].mode = .named .demand ∧ s.chans[n].listeners = 0))
    (hk : s.chans[n].step + 1 < s.work.progs[n].steps.length) :
    stepEnds n s = beginStep n (s.chans[n].step + 1) s := by
  unfold stepEnds
  dsimp only
  rw [if_neg hd, if_pos hk]

theorem stepEnds_again (hd : ¬(s.work.progs[n].mode = .named .demand ∧ s.chans[n].listeners = 0))
    (hk : s.work.progs[n].steps.length ≤ s.chans[n].step + 1) (ho : s.work.progs[n].mode ≠ .named .once) :
    stepEnds n s = beginStep n 0 s := by
  unfold stepEnds
  dsimp only
  rw [if_neg hd, if_neg (Nat.not_lt.2 hk), if_neg ho]

theorem stepEnds_ends (ho : s.work.progs[n].mode = .named .once)
    (hk : s.work.progs[n].steps.length ≤ s.chans[n].step + 1) : stepEnds n s = onceEnds n s := by
  unfold stepEnds
  dsimp only
  rw [if_neg (fun h => by rw [ho] at h; cases h.1), if_neg (Nat.not_lt.2 hk), if_pos ho]

/-- Where the program goes on, the step it goes on with begins (R131). -/
theorem stepEnds_begun {k : Nat}
    (h : ¬(s.work.progs[n].mode = .named .demand ∧ s.chans[n].listeners = 0) ∧
      ((s.chans[n].step + 1 < s.work.progs[n].steps.length ∧ k = s.chans[n].step + 1) ∨
        (s.work.progs[n].steps.length ≤ s.chans[n].step + 1 ∧ s.work.progs[n].mode ≠ .named .once ∧ k = 0))) :
    Begun s n k s.chans[n].owed (stepEnds n s) := by
  obtain ⟨hd, ⟨hk, rfl⟩ | ⟨hk, ho, rfl⟩⟩ := h
  · rw [stepEnds_next hd hk]
    exact beginStep_isBegun n _ s
  · rw [stepEnds_again hd hk ho]
    exact beginStep_isBegun n 0 s

end stepEnds

/-! ### The end of a ONCE program (R137) -/

/-- A ONCE program has ended: the channel is ENDED, and the claims that name it have left the zones. -/
structure OnceLeft (s : State) (n : Fin 4) (t : State) (z : Zone) : Prop where
  cleared : ZoneCleared (namesChannel n) s t z
  placed  : ∀ d ∈ t.lists[z], d.source = .playout n.val → (∃ dz, d.owner = .cause dz) ∨ d.owner = .overflow

theorem namesChannel_iff (n : Fin 4) (c : Claim) : namesChannel n c = true ↔ c.source = .playout n.val := by
  simp [namesChannel]

theorem onceEnds_left {s b u : State} {n : Fin 4} {z : Zone} (h : SameClaims s b)
    (hu : Elsewhere z (onceEnds n b) u) : OnceLeft s n u z := by
  obtain ⟨a, h1, h2⟩ := removals_between (p := fun _ => namesChannel n) nodup_allZones (mem_allZones z)
    (stopChan n .ended b)
  have hb : Between z s a (removal z (namesChannel n) a) u :=
    ⟨h2.work.trans h.grounds.work, h2.now.trans h.grounds.now,
      h2.list.trans (show b.lists[z] = s.lists[z] by rw [h.lists]), h2.runs, h2.ends.trans hu⟩
  refine ⟨removal_cleared hb (h1.grounds.acts.trans h.grounds.acts) (h1.grounds.overflow.trans h.grounds.overflow),
    fun d hd hs => ?_⟩
  rw [hb.ends.list] at hd
  exact (removal_anew hd ((namesChannel_iff n d).2 hs)).owner

theorem onceEnds_ended {s : State} {n : Fin 4} (hm : s.work.progs[n].mode = .named .once) :
    (onceEnds n s).chans[n].state = .ended := by
  refine ((endedStays_zoneRel n).removalAll (namesChannel n) (stopChan n .ended s)).keep hm ?_
  show (setChan n _ s).chans[n].state = .ended
  rw [setChan_self']

/-! ### The write of a phrase (R125) -/

theorem plays_iff (s : State) (p : Nat) (n : Fin 4) : plays s p n = true ↔
    s.chans[n].state = .running ∧ s.chans[n].kind = .phrase ∧
      s.work.progs[n].steps[s.chans[n].step]? = some (.named (.phrase p)) := by
  simp [plays, and_assoc]

/-- A write of a phrase that no channel plays ends no step. -/
theorem phraseWritten_none {p : Nat} {s : State} (h : ∀ m, plays s p m = false) : phraseWritten p s = s := by
  have all : ∀ l : List (Fin 4), l.foldl (fun t n => if plays s p n then stepEnds n t else t) s = s := by
    intro l
    induction l with
    | nil => rfl
    | cons n l ih => rw [List.foldl_cons, h n, if_neg Bool.false_ne_true]; exact ih
  exact all _

/-- One that a single channel plays ends the step of that channel alone. -/
theorem phraseWritten_one {p : Nat} {s : State} {n : Fin 4} (hn : plays s p n = true)
    (h : ∀ m, m ≠ n → plays s p m = false) : phraseWritten p s = stepEnds n s := by
  have rest : ∀ (l : List (Fin 4)) (t : State), n ∉ l →
      l.foldl (fun t m => if plays s p m then stepEnds m t else t) t = t := by
    intro l
    induction l with
    | nil => exact fun _ _ => rfl
    | cons m l ih =>
      intro t hl
      obtain ⟨hm, hl⟩ := not_or.1 fun e => hl (List.mem_cons.2 e)
      rw [List.foldl_cons, h m (Ne.symm hm), if_neg Bool.false_ne_true]
      exact ih t hl
  have all : ∀ l : List (Fin 4), l.Nodup → n ∈ l →
      l.foldl (fun t m => if plays s p m then stepEnds m t else t) s = stepEnds n s := by
    intro l
    induction l with
    | nil => exact fun _ h => nomatch h
    | cons m l ih =>
      intro hl hmem
      obtain ⟨hm, hl⟩ := List.nodup_cons.1 hl
      rw [List.foldl_cons]
      by_cases e : m = n
      · subst e
        rw [hn, if_pos rfl]
        exact rest l _ hm
      · rw [h m e, if_neg Bool.false_ne_true]
        exact ih hl ((List.mem_cons.1 hmem).resolve_left (Ne.symm e))
  exact all _ (List.nodup_finRange 4) (List.mem_finRange n)

theorem phraseWrite_leaves {s u : State} {q : Request} {i : Nat} {e e' : Phrase}
    (h : WriteTaken s q 8 i (.phrase e) (.phrase e'))
    (hu : { phraseWritten i (inWriting i (.phrase e') s) with reserved := 0 } = u) :
    writeLeaves s q 8 i (.phrase e) u := by
  refine h.leaves ?_
  unfold writeEffects
  dsimp only
  exact hu

theorem released_chans (v : State) : ({ v with reserved := 0 } : State).chans = v.chans := rfl

theorem stepOver_of {c : ChanRun} (hr : c.state = .running) (hp : c.kind = .phrase → c.due = true)
    (hq : c.kind ≠ .phrase → c.remaining = 0 ∧ c.late = 0) : stepOver c = true := by
  unfold stepOver
  rw [hr]
  cases hk : c.kind with
  | phrase => exact hp hk
  | gap =>
    obtain ⟨h1, h2⟩ := hq (by rw [hk]; nofun)
    rw [h1, h2]
    rfl
  | missing =>
    obtain ⟨h1, h2⟩ := hq (by rw [hk]; nofun)
    rw [h1, h2]
    rfl

/-- Settles O46: the end of a step is the same from its command and from the write of its phrase. -/
theorem playoutStepEnds : Obligations.PlayoutStepEnds := by
  unfold Obligations.PlayoutStepEnds
  intro onceLeft goesOn
  have once : ∀ (s b u : State) (n : Fin 4), SameClaims s b → b.work.progs[n].mode = .named .once →
      (∀ z, Elsewhere z (onceEnds n b) u) → u.chans = (onceEnds n b).chans →
      onceLeft s n u := by
    intro s b u n hs hm hu hc
    refine ⟨by rw [hc]; exact onceEnds_ended hm, fun z => ?_⟩
    have hz := onceEnds_left hs (hu z)
    refine ⟨fun hn => hz.cleared.kept.whole fun d hd => Bool.eq_false_iff.2 fun e =>
      hn d hd ((namesChannel_iff n d).1 e), hz.cleared.bare, hz.placed, hz.cleared.kept, hz.cleared.refilled⟩
  refine ⟨fun s n hrun hst hp hq => ?_, fun s q i e e' h => ?_⟩
  · have leaves : ∀ t, stepEnds n s = t → exec (.playoutStepEnd n) s = .next t := fun t ht =>
      whenever_leaves (o := execPlayoutStepEnd n s) rfl
        (by rw [State.running, hrun, stepOver_of hst hp hq]; rfl) ht
    refine ⟨fun hm hl => leaves _ (stepEnds_waits hm hl), fun k hk => ⟨_, leaves _ rfl, stepEnds_begun hk⟩,
      fun hm hk => ⟨_, leaves _ rfl, stepEnds_onlyZones n s, ?_⟩⟩
    rw [stepEnds_ends hm hk]
    exact once s s _ n (.refl s) hm (fun z => .refl z _) rfl
  · intro w playing
    have hiff : ∀ m, plays (inWriting i (.phrase e') s) i m = true ↔ playing m := fun m => plays_iff _ i m
    have hnot : ∀ m, ¬playing m → plays (inWriting i (.phrase e') s) i m = false := fun m hm =>
      Bool.eq_false_iff.2 fun e => hm ((hiff m).1 e)
    refine ⟨fun hno => phraseWrite_leaves h (by rw [phraseWritten_none fun m => hnot m (hno m)]; rfl),
      fun n hn hone => ?_⟩
    have leaves : ∀ u, { stepEnds n (inWriting i (.phrase e') s) with reserved := 0 } = u →
        writeLeaves s q 8 i (.phrase e) u := fun u hu =>
      phraseWrite_leaves h (by rw [phraseWritten_one ((hiff n).2 hn) fun m hm => hnot m (hone m hm)]; exact hu)
    refine ⟨fun hm hl => leaves _ ?_, fun k hk => ⟨_, leaves _ rfl, ?_⟩, fun hm hk => ⟨_, leaves _ rfl, ?_, ?_⟩⟩
    · rw [stepEnds_waits (s := inWriting i (.phrase e') s) hm hl]
      rfl
    · exact (stepEnds_begun (s := inWriting i (.phrase e') s) hk).settled 0
    · exact (stepEnds_onlyZones n _).written
    · rw [stepEnds_ends (s := inWriting i (.phrase e') s) hm hk]
      exact once w (inWriting i (.phrase e') s) _ n ⟨⟨rfl, rfl, rfl, rfl, rfl⟩, rfl⟩ hm
        (fun z => .released z _) (released_chans _)

end Sys2Proof.Machine

namespace Sys2Proof.Machine

/-! ## The warden's press and its end (O50, O51) -/

/-- Every WARDEN claim leaves the zones, also where the state about it has changed before or after (R149). -/
theorem wardenGone_of {s a u : State} (h : SameClaims s a)
    (hu : ∀ z, Elsewhere z (removalAll (ownedBy .warden) a) u) : WardenGone s u := by
  unfold WardenGone
  intro gone z
  obtain ⟨b, h1, h2⟩ := removals_between (p := fun _ => ownedBy .warden) nodup_allZones (mem_allZones z) a
  have hb : Between z s b (removal z (ownedBy .warden) b) u :=
    ⟨h2.work.trans h.grounds.work, h2.now.trans h.grounds.now,
      h2.list.trans (show a.lists[z] = s.lists[z] by rw [h.lists]), h2.runs, h2.ends.trans (hu z)⟩
  have hcl : ZoneCleared gone s u z :=
    removal_cleared hb (h1.grounds.acts.trans h.grounds.acts) (h1.grounds.overflow.trans h.grounds.overflow)
  refine ⟨fun c hc ho => ?_, hcl.kept, hcl.refilled⟩
  have hg : ∀ c, gone c = true → c.owner = .warden := fun c => by simp [gone]
  refine Bool.false_ne_true ((hcl.clear (fun c hc => ?_) c hc).symm.trans (show gone c = true from by simp [gone, ho]))
  rw [hg c hc]
  exact ⟨nofun, nofun⟩

/-! ### The end of a press -/

/-- The slot record after a release (R153). -/
def slotAfter : SlotState → SlotState
  | .requested d => .cancelled d
  | .holding _ _ => .none
  | x => x

theorem slotRelease_warden (s : State) :
    (slotRelease s).warden = { s.warden with slot := slotAfter s.warden.slot } := by
  unfold slotRelease
  split
  next h => rw [h]; rfl
  next h =>
    rw [h]
    unfold sendRelease
    split <;> rfl
  next h1 h2 =>
    have : slotAfter s.warden.slot = s.warden.slot := by
      unfold slotAfter
      split
      next h => exact absurd h (h1 _)
      next h => exact absurd h (h2 _ _)
      · rfl
    rw [this]

/-- A slot held is released by a message where there is room for it (R153). -/
theorem slotRelease_sends {s : State} {n l : Nat} (h : s.warden.slot = .holding n l) (hr : 0 < s.room) :
    slotRelease s =
      place { dest := 253, content := .command true (.slotRelease l) } (setSlot .none s) := by
  unfold slotRelease
  rw [h]
  exact if_pos hr

theorem slotRelease_idle {s : State} (h : s.warden.slot = .none ∨ ∃ d, s.warden.slot = .cancelled d) :
    slotRelease s = s := by
  unfold slotRelease
  rcases h with h | ⟨d, h⟩ <;> rw [h]

theorem OnlyWarden.elsewhere {s t : State} (h : OnlyWarden s t) (hl : t.lists = s.lists) (hr : Later s t) (z : Zone) :
    Elsewhere z s t := by
  refine ⟨hr, ?_, by rw [hl]⟩
  constructor <;> rw [h.frame]

theorem slotRelease_elsewhere (z : Zone) (s : State) : Elsewhere z s (slotRelease s) := by
  have hs : ∀ l u, Elsewhere z u (sendRelease l u) := fun l u => by
    unfold sendRelease
    split
    · exact ⟨.same rfl rfl, ⟨rfl, rfl, rfl, rfl, rfl⟩, rfl⟩
    · exact .refl z u
  have hset : ∀ x, Elsewhere z s (setSlot x s) := fun x => ⟨.same rfl rfl, ⟨rfl, rfl, rfl, rfl, rfl⟩, rfl⟩
  unfold slotRelease
  split
  · exact hset _
  · exact (hset _).trans (hs _ _)
  · exact .refl z s

/-- What ends a press (R149): the talk timer and the WARDEN claims go, the slot is given up. -/
structure PressOver (s t : State) : Prop where
  gone  : ∃ a, SameClaims s a ∧ ∀ z, Elsewhere z (removalAll (ownedBy .warden) a) t
  warden : t.warden.talk = none ∧ t.warden.slot = slotAfter s.warden.slot
  sent  : ∀ n l, s.warden.slot = .holding n l → 0 < s.room → s.capture = none →
    t.outbound = s.outbound ++ [{ dest := 253, content := .command true (.slotRelease l) }]
  only  : OnlyWarden s t

theorem endPress_warden (s : State) :
    (endPress s).warden = { s.warden with talk := none, slot := slotAfter s.warden.slot } := by
  unfold endPress
  rw [slotRelease_warden, (removalAll_onlyZones _ _).warden]
  rfl

theorem endPress_elsewhere (z : Zone) (s : State) :
    Elsewhere z (removalAll (ownedBy .warden) (setWarden (fun w => { w with talk := none }) s)) (endPress s) :=
  slotRelease_elsewhere z _

theorem endPress_sent {s : State} {n l : Nat} (h : s.warden.slot = .holding n l) (hr : 0 < s.room)
    (hc : s.capture = none) : (endPress s).outbound =
      s.outbound ++ [{ dest := 253, content := .command true (.slotRelease l) }] := by
  have hz := removalAll_onlyZones (ownedBy .warden) (setWarden (fun w => { w with talk := none }) s)
  have hout := (hz.queues.quiet hc).2.1
  unfold endPress
  have hroom : (removalAll (ownedBy .warden) (setWarden (fun w => { w with talk := none }) s)).room = s.room := by
    unfold State.room
    rw [hout, hz.reserved]
    rfl
  rw [slotRelease_sends (n := n) (l := l) (by rw [hz.warden]; exact h) (by rw [hroom]; exact hr)]
  have hsend : ∀ m v, (place m (setSlot .none v)).outbound = v.outbound ++ [m] := fun _ _ => rfl
  rw [hsend, hout]
  rfl

theorem slotAfter_requested {x : SlotState} {d : Nat} (h : x = .requested d) :
    slotAfter x = .cancelled d := by rw [h]; rfl

theorem slotAfter_holding {x : SlotState} {n l : Nat} (h : x = .holding n l) : slotAfter x = .none := by
  rw [h]; rfl

theorem slotAfter_idle {x : SlotState} (h : x = .none ∨ ∃ d, x = .cancelled d) : slotAfter x = x := by
  rcases h with h | ⟨d, h⟩ <;> rw [h] <;> rfl

/-- What the text of O51 says of the end of a press, from what ends it. -/
theorem PressOver.ended {s t : State} (h : PressOver s t) :
    t.warden.talk = none ∧ WardenGone s t ∧
    (∀ d, s.warden.slot = .requested d → t.warden.slot = .cancelled d) ∧
    (∀ n l, s.warden.slot = .holding n l → t.warden.slot = .none ∧
      (0 < s.room → s.capture = none →
        t.outbound = s.outbound ++ [{ dest := 253, content := .command true (.slotRelease l) }])) ∧
    ((s.warden.slot = .none ∨ ∃ d, s.warden.slot = .cancelled d) →
      t.warden.slot = s.warden.slot) ∧
    OnlyWarden s t :=
  ⟨h.warden.1, h.gone.elim fun _ ha => wardenGone_of ha.1 ha.2, fun _ hd => h.warden.2.trans (slotAfter_requested hd),
    fun n l hh => ⟨h.warden.2.trans (slotAfter_holding hh), h.sent n l hh⟩,
    fun hi => h.warden.2.trans (slotAfter_idle hi), h.only⟩

/-- A press ends from a state `a` that agrees with `s` but for the warden's record, its end followed by
changes that neither zones nor slot see. -/
theorem pressOver_of {s a u : State} (h : SameClaims s a) (hslot : a.warden.slot = s.warden.slot)
    (hroom : ∀ n l, s.warden.slot = .holding n l → 0 < s.room → 0 < a.room)
    (hcap : a.capture = s.capture) (hout : a.outbound = s.outbound)
    (hu : ∀ z, Elsewhere z (endPress a) u) (hwt : u.warden.talk = (endPress a).warden.talk)
    (hws : u.warden.slot = (endPress a).warden.slot) (huo : u.outbound = (endPress a).outbound)
    (honly : OnlyWarden s u) : PressOver s u := by
  refine ⟨⟨setWarden (fun w => { w with talk := none }) a, ⟨h.grounds.trans ⟨rfl, rfl, rfl, rfl, rfl⟩, h.lists⟩,
    fun z => (endPress_elsewhere z a).trans (hu z)⟩, ⟨?_, ?_⟩, fun n l hh hr hc => ?_, honly⟩
  · rw [hwt, endPress_warden]
  · rw [hws, endPress_warden, ← hslot]
  · rw [huo, endPress_sent (hslot.trans hh) (hroom n l hh hr) (hcap.trans hc), hout]

theorem report_elsewhere (z : Zone) (b : ReportBody) (s : State) : Elsewhere z s (report b s) :=
  ⟨report_later b s, (report_onlyZones b s).grounds, by rw [report_lists]⟩

theorem setWarden_elsewhere (z : Zone) (f : Warden → Warden) (s : State) : Elsewhere z s (setWarden f s) :=
  ⟨.same rfl rfl, ⟨rfl, rfl, rfl, rfl, rfl⟩, rfl⟩

theorem setWarden_sameClaims (f : Warden → Warden) (s : State) : SameClaims s (setWarden f s) :=
  ⟨⟨rfl, rfl, rfl, rfl, rfl⟩, rfl⟩

theorem SameClaims.trans {s t u : State} (h : SameClaims s t) (g : SameClaims t u) : SameClaims s u :=
  ⟨h.grounds.trans g.grounds, g.lists.trans h.lists⟩

theorem endPress_pressOver (s : State) : PressOver s (endPress s) :=
  pressOver_of (.refl s) rfl (fun _ _ _ h => h) rfl rfl (fun z => .refl z _) rfl rfl rfl (endPress_onlyWarden s)

/-- A press ends from a state in which the warden's record alone has changed. -/
theorem endPress_over {f : Warden → Warden} {s : State} (hf : (f s.warden).slot = s.warden.slot) :
    PressOver s (endPress (setWarden f s)) :=
  pressOver_of (setWarden_sameClaims f s) hf (fun _ _ _ h => h) rfl rfl (fun z => .refl z _) rfl rfl rfl
    ((setWarden_onlyWarden f s).trans (endPress_onlyWarden _))

end Sys2Proof.Machine

namespace Sys2Proof.Machine

/-! ## PressEnds (O51) -/

section exec
variable {s : State}

theorem keyDue_of {d : Nat} (hd : s.warden.due = some d) (hle : d ≤ s.now) : keyDue s = true := by
  unfold keyDue
  rw [hd]
  exact decide_eq_true hle

theorem freshDue_of {f : FreshTake} (hf : s.warden.fresh = some f) (hle : f.deadline ≤ s.now) :
    freshDue s = true := by
  unfold freshDue
  rw [hf]
  exact decide_eq_true hle

theorem freshClosed_of {f : FreshTake} (hf : s.warden.fresh = some f) :
    freshClosed s = (f.closed && s.pins.keyClosed) := by
  unfold freshClosed
  rw [hf]

theorem exec_keyRelease {d : Nat} (hp : s.phase = .running) (hd : s.warden.due = some d) (hle : d ≤ s.now)
    (hk : s.pins.keyClosed = false) : exec .keyRelease s = .next (releaseTaken s) :=
  whenever_leaves (o := execKeyRelease s) rfl (by rw [State.running, hp, keyDue_of hd hle, hk]; rfl) rfl

theorem exec_keyPress {d : Nat} (hp : s.phase = .running) (hd : s.warden.due = some d) (hle : d ≤ s.now)
    (hk : s.pins.keyClosed = true) : exec .keyPress s = .next (pressTaken s) :=
  whenever_leaves (o := execKeyPress s) rfl (by rw [State.running, hp, keyDue_of hd hle, hk]; rfl) rfl

theorem exec_forcedRelease {e : Nat} (hp : s.phase = .running)
    (hc : (s.warden.key = .pressed ∧ s.work.warden.enabled = true) ∨ s.warden.fresh ≠ none)
    (ht : s.warden.talk = some e) (hle : s.work.warden.maxTalk * 1000 ≤ e) :
    exec .forcedRelease s = .next (forceRelease s) := by
  refine whenever_leaves (o := execForcedRelease s) rfl ?_ rfl
  have h1 : talkCounts s = true := by
    unfold talkCounts
    rcases hc with ⟨hk, he⟩ | hf
    · rw [hk, he]
      rfl
    · rw [Option.isSome_iff_ne_none.2 hf, Bool.or_true]
  unfold talkOver
  rw [State.running, hp, h1, ht]
  exact decide_eq_true hle

theorem exec_wardenFreshTake {f : FreshTake} (hp : s.phase = .running) (hf : s.warden.fresh = some f)
    (hle : f.deadline ≤ s.now) : exec .wardenFreshTake s =
      .next (if f.closed && s.pins.keyClosed then freshPress (setWarden (fun w => { w with fresh := none }) s)
        else observeKey (endPress (setWarden (fun w => { w with fresh := none }) s))) := by
  refine whenever_leaves (o := execWardenFreshTake s) rfl
    (by rw [State.running, hp, freshDue_of hf hle]; rfl) ?_
  dsimp only
  rw [freshClosed_of hf]

end exec

theorem endPress_pins (s : State) : (endPress s).pins = s.pins := by rw [(endPress_onlyWarden s).frame]
theorem endPress_now (s : State) : (endPress s).now = s.now := (endPress_elsewhere 0 s).grounds.now.trans
  (removalAll_onlyZones _ (setWarden _ s)).grounds.now

theorem observeKey_outbound (s : State) : (observeKey s).outbound = s.outbound := rfl

theorem observeKey_onlyWarden (s : State) : OnlyWarden s (observeKey s) := setWarden_onlyWarden _ s

/-- A key's observation changes its pending change alone. -/
theorem observeKey_warden (s : State) : (observeKey s).warden = { s.warden with
    due := if s.pins.keyClosed = s.warden.taken then none else some (s.warden.due.getD (s.now + 50)) } := by
  unfold observeKey setWarden
  dsimp only
  split <;> rfl

/-- A forced release: the press ends, and its report is the last (R150). -/
theorem forceRelease_over (s : State) : PressOver s (forceRelease s) ∧
    (forceRelease s).warden = { s.warden with
      key := if s.warden.key = .pressed then .lockedOut else s.warden.key
      talk := none, slot := slotAfter s.warden.slot } ∧
    ToldLast (.forcedRelease s.work.warden.maxTalk) (forceRelease s) := by
  have hrep : ∀ b u, (report b u).warden = u.warden ∧ (report b u).outbound = u.outbound := fun b u => by
    unfold report
    split <;> exact ⟨rfl, rfl⟩
  unfold forceRelease
  refine ⟨pressOver_of (a := setWarden (fun w => { w with key := if w.key = .pressed then .lockedOut else w.key }) s)
    (setWarden_sameClaims _ s) rfl (fun _ _ _ h => h) rfl rfl (fun z => report_elsewhere z _ _)
    (by rw [(hrep _ _).1]) (by rw [(hrep _ _).1]) (hrep _ _).2
    ((setWarden_onlyWarden _ s).trans ((endPress_onlyWarden _).trans (report_onlyZones _ _).onlyWarden)), ?_,
    report_toldLast _ _⟩
  rw [(hrep _ _).1, endPress_warden]
  rfl

/-! ### The write of Warden Settings (R157) -/

theorem released_warden (v : State) : ({ v with reserved := 0 } : State).warden = v.warden := rfl

theorem ToldLast.released {b : ReportBody} {v : State} (h : ToldLast b v) : ToldLast b { v with reserved := 0 } := h

theorem OnlyWarden.written {i : Nat} {c : Contents} {s v : State} (h : OnlyWarden (inWriting i c s) v) :
    OnlyWarden (written i c s) { v with reserved := 0 } := by
  obtain ⟨hf, hq⟩ := h
  refine ⟨?_, hq⟩
  rw [hf]
  rfl

theorem inWriting_sameClaims (i : Nat) (c : Contents) (s : State) :
    SameClaims (written i c s) (inWriting i c s) := ⟨⟨rfl, rfl, rfl, rfl, rfl⟩, rfl⟩

/-- With a slot held, a write of Warden Settings has room for a SLOT RELEASE beside its reply (R196). -/
theorem wardenWrite_room {s : State} {q : Request} {e e' : WardenSettings} {n l : Nat}
    (h : WriteTaken s q 11 0 (.warden e) (.warden e')) (hs : s.warden.slot = .holding n l) :
    0 < (inWriting 0 (.warden e') s).room := by
  have hins : (insertionSlot s).isSome = true := by
    unfold insertionSlot
    rw [hs]
    rfl
  have hb := h.begins.room
  rw [if_pos ⟨rfl, hins⟩] at hb
  unfold mayBegin at hb
  simp only [Bool.and_eq_true, decide_eq_true_eq] at hb
  have hroom := hb.1.1.2
  unfold State.room at hroom ⊢
  show 0 < Config.outMax - s.outbound.length - 1
  omega

/-- A press ends in a write: what its own state says of it, the command's state says too. -/
theorem PressOver.written {s v : State} {q : Request} {e e' : WardenSettings}
    (ht : WriteTaken s q 11 0 (.warden e) (.warden e')) (h : PressOver (inWriting 0 (.warden e') s) v) :
    PressOver (Machine.written 0 (.warden e') s) { v with reserved := 0 } := by
  obtain ⟨a, ha, hz⟩ := h.gone
  exact ⟨⟨a, (inWriting_sameClaims 0 _ s).trans ha, fun z => (hz z).trans (.released z v)⟩, h.warden,
    fun n l hh _ hc => h.sent n l hh (wardenWrite_room ht hh) hc, h.only.written⟩

theorem wardenWrite_leaves {s v : State} {q : Request} {e e' : WardenSettings}
    (h : WriteTaken s q 11 0 (.warden e) (.warden e'))
    (hv : wardenWritten s.work.warden e' (inWriting 0 (.warden e') s) = v) :
    writeLeaves s q 11 0 (.warden e) { v with reserved := 0 } := by
  refine h.leaves ?_
  unfold writeEffects
  dsimp only
  rw [hv]

section wardenWritten
variable {s : State} {old new : WardenSettings}

theorem wardenWritten_unpressed (h : s.warden.key ≠ .pressed) : wardenWritten old new s = s := if_neg h

theorem wardenWritten_disabled (h : s.warden.key = .pressed) (ho : old.enabled = true)
    (hn : new.enabled = false) : wardenWritten old new s = endPress s := by
  unfold wardenWritten
  rw [if_pos h, ho, hn]
  exact if_pos rfl

theorem wardenWritten_goesOn (h : s.warden.key = .pressed) (hn : (old.enabled && !new.enabled) = false) :
    wardenWritten old new s = announceChange old new (maxTalkChange old new s) := by
  unfold wardenWritten
  rw [if_pos h, hn]
  exact if_neg Bool.false_ne_true

theorem maxTalkChange_forces {k : Nat} (ht : s.warden.talk = some k) (hm : old.maxTalk ≠ new.maxTalk)
    (hk : new.maxTalk * 1000 ≤ k) : maxTalkChange old new s = forceRelease s := by
  unfold maxTalkChange
  rw [ht]
  exact if_pos ⟨hm, hk⟩

theorem maxTalkChange_idle
    (h : old.maxTalk = new.maxTalk ∨ ∀ k, s.warden.talk = some k → k < new.maxTalk * 1000) :
    maxTalkChange old new s = s := by
  unfold maxTalkChange
  split
  next k hk =>
    rw [if_neg]
    rintro ⟨h1, h2⟩
    rcases h with h | h
    · exact h1 h
    · exact Nat.not_lt.2 h2 (h k hk)
  · rfl

theorem announceChange_idle (h : (old.announce = false ∨ new.announce = true) ∨
    s.warden.slot = .none ∨ ∃ d, s.warden.slot = .cancelled d) : announceChange old new s = s := by
  unfold announceChange
  split
  next hc =>
    refine slotRelease_idle (h.resolve_left ?_)
    simp only [Bool.and_eq_true, Bool.not_eq_true'] at hc
    rw [hc.1, hc.2]
    decide
  · rfl

theorem announceChange_withdraws (ho : old.announce = true) (hn : new.announce = false) :
    announceChange old new s = slotRelease s := by
  unfold announceChange
  rw [ho, hn]
  rfl

end wardenWritten

theorem slotAfter_settled (x : SlotState) : slotAfter x = .none ∨ ∃ d, slotAfter x = .cancelled d := by
  cases x with
  | none => exact .inl rfl
  | requested d => exact .inr ⟨d, rfl⟩
  | cancelled d => exact .inr ⟨d, rfl⟩
  | holding n l => exact .inl rfl

/-- Settles O51: a release, a forced release, a fresh take with the key open and the write of Warden Settings
all end the press by the one `endPress`. -/
theorem pressEnds : Obligations.PressEnds := by
  unfold Obligations.PressEnds
  intro ended
  refine ⟨fun s d hp hd hle hk => ⟨fun hn => ?_, fun hk' => ?_⟩, fun s e hp hc ht hle => ?_, fun s f hp hf hle ho => ?_,
    fun s q e e' h => ?_⟩
  · rw [exec_keyRelease hp hd hle hk]
    unfold releaseTaken
    dsimp only
    rw [if_neg hn]
    rfl
  · have hrt : releaseTaken s =
        endPress (setWarden (fun w => { w with taken := false, due := none, key := .released }) s) := by
      unfold releaseTaken
      dsimp only
      rw [if_pos hk']
    refine ⟨_, (exec_keyRelease hp hd hle hk).trans (congrArg _ hrt),
      (endPress_over (f := fun w => { w with taken := false, due := none, key := .released }) rfl).ended, ?_, ?_, ?_⟩ <;>
      rw [endPress_warden] <;> rfl
  · obtain ⟨h1, h2, h3⟩ := forceRelease_over s
    exact ⟨_, exec_forcedRelease hp hc ht hle, h1.ended, by rw [h2], by rw [h2], by rw [h2], by rw [h2], h3⟩
  · have hcl : (f.closed && s.pins.keyClosed) = false := by
      rcases ho with h | h <;> rw [h] <;> simp
    have hex := exec_wardenFreshTake hp hf hle
    rw [hcl, if_neg Bool.false_ne_true] at hex
    have hw := observeKey_warden (endPress (setWarden (fun w => { w with fresh := none }) s))
    rw [endPress_warden, endPress_pins, endPress_now] at hw
    refine ⟨_, hex, (pressOver_of (a := setWarden (fun w => { w with fresh := none }) s)
      (setWarden_sameClaims _ s) rfl (fun _ _ _ h => h) rfl rfl (fun z => setWarden_elsewhere z _ _) ?_ ?_
      (observeKey_outbound _)
      ((setWarden_onlyWarden _ s).trans ((endPress_onlyWarden _).trans (observeKey_onlyWarden _)))).ended, ?_, ?_, ?_, ?_⟩
    · exact (congrArg Warden.talk hw).trans (by rw [endPress_warden])
    · exact (congrArg Warden.slot hw).trans (by rw [endPress_warden])
    · rw [hw]; rfl
    · rw [hw]; rfl
    · rw [hw]; rfl
    · rw [hw]; rfl
  · intro w old slotGiven
    refine ⟨fun hn => wardenWrite_leaves h (wardenWritten_unpressed (s := inWriting 0 (.warden e') s) hn),
      fun hk => ⟨fun ho hn => ?_, fun ho ht hs => ?_, fun k ho hn hm ht hle => ?_, fun ho hn hm => ⟨fun ha => ?_,
        fun ha ha' => ⟨fun d hs => ?_, fun n l hs => ?_, fun hs => ?_⟩⟩⟩⟩
    · refine ⟨_, wardenWrite_leaves h (wardenWritten_disabled (s := inWriting 0 (.warden e') s) hk ho hn),
        (PressOver.written h (endPress_pressOver (inWriting 0 (.warden e') s))).ended, ?_⟩
      rw [released_warden, endPress_warden]
      exact hk
    · have hgo := wardenWritten_goesOn (s := inWriting 0 (.warden e') s) (old := old) (new := e') hk (by rw [ho]; rfl)
      rw [maxTalkChange_idle (.inr fun k hk => by rw [show s.warden.talk = some k from hk] at ht; cases ht),
        announceChange_idle (s := inWriting 0 (.warden e') s) (.inr (.inl hs))] at hgo
      exact wardenWrite_leaves h hgo
    · have hgo := wardenWritten_goesOn (s := inWriting 0 (.warden e') s) (old := old) (new := e') hk
        (by rw [hn]; exact Bool.and_false _)
      obtain ⟨h1, h2, h3⟩ := forceRelease_over (inWriting 0 (.warden e') s)
      rw [maxTalkChange_forces (s := inWriting 0 (.warden e') s) ht hm hle,
        announceChange_idle (.inr (by rw [h2]; exact slotAfter_settled _))] at hgo
      refine ⟨_, wardenWrite_leaves h hgo, (PressOver.written h h1).ended, ?_,
        ToldLast.released h3⟩
      rw [released_warden, h2]
      exact if_pos hk
    all_goals
      have hgo := wardenWritten_goesOn (s := inWriting 0 (.warden e') s) (old := old) (new := e') hk
        (by rw [hn]; exact Bool.and_false _)
      rw [maxTalkChange_idle (s := inWriting 0 (.warden e') s) hm] at hgo
    · rw [announceChange_idle (s := inWriting 0 (.warden e') s) (.inl ha)] at hgo
      exact wardenWrite_leaves h hgo
    · rw [announceChange_withdraws ha ha'] at hgo
      have hr : slotRelease (inWriting 0 (.warden e') s) = setSlot (.cancelled d) (inWriting 0 (.warden e') s) := by
        unfold slotRelease
        rw [show (inWriting 0 (.warden e') s).warden.slot = .requested d from hs]
      exact wardenWrite_leaves h (hgo.trans hr)
    · rw [announceChange_withdraws ha ha',
        slotRelease_sends (s := inWriting 0 (.warden e') s) hs (wardenWrite_room h hs)] at hgo
      exact wardenWrite_leaves h hgo
    · rw [announceChange_idle (s := inWriting 0 (.warden e') s) (.inr hs)] at hgo
      exact wardenWrite_leaves h hgo

end Sys2Proof.Machine

namespace Sys2Proof.Machine

/-! ## PressTaken (O50) -/

/-- From `s` to `t`, where the outbound queue has no room nothing is placed. -/
structure FullStays (s t : State) : Prop where
  reserved : t.reserved = s.reserved
  outbound : s.room = 0 → t.outbound = s.outbound

theorem FullStays.same {s t : State} (hr : t.reserved = s.reserved) (ho : t.outbound = s.outbound) :
    FullStays s t := ⟨hr, fun _ => ho⟩

theorem FullStays.room {s t : State} (h : FullStays s t) (hr : s.room = 0) : t.room = 0 := by
  unfold State.room at hr ⊢
  rw [h.outbound hr, h.reserved]
  exact hr

theorem FullStays.trans {s t u : State} (h : FullStays s t) (g : FullStays t u) : FullStays s u :=
  ⟨g.reserved.trans h.reserved, fun hr => (g.outbound (h.room hr)).trans (h.outbound hr)⟩

/-- Without room the reply of an aborted capture is held, not placed (R142, R197). -/
theorem updateLock_fullStays (s : State) : FullStays s (updateLock s) := by
  have ha : ∀ u, FullStays u (abortCapture u) := fun u => by
    unfold abortCapture
    split
    · exact .same rfl rfl
    · unfold placeOrDefer
      split
      next hc =>
        refine ⟨rfl, fun hr => ?_⟩
        simp only [Bool.and_eq_true, decide_eq_true_eq] at hc
        exact absurd hr (Nat.ne_of_gt hc.2)
      · exact .same rfl rfl
  unfold updateLock
  dsimp only
  split
  · exact FullStays.trans (t := { s with alarmLock := lockCondition s }) (.same rfl rfl) (ha _)
  · exact .same rfl rfl

theorem fullStays_zoneRel : ZoneRel FullStays where
  list z := {
    refl := fun _ => .same rfl rfl
    trans := .trans
    core := fun c s => by
      have h := (offerCore_listOnly z c s).1
      exact .same (by rw [h]) (by rw [h])
    cut := fun _ _ => .same rfl rfl }
  hand z s := by
    have h := handOver_hands z s
    exact .same (by rw [h]) (by rw [h])
  lock := updateLock_fullStays

/-! ### The WARDEN claim offered -/

section offerWarden
variable {s : State} {m : Template}

/-- The WARDEN claim built from a template (R148). -/
def wardenClaimOf (m : Template) (now : Nat) : Claim :=
  { owner := .warden, source := .warden, fallback := none, prio := m.prio, atten := m.atten
    stage := none, placed := now }

theorem wardenClaim_none (h : templateInUse s.work s.work.orig[(5 : Fin 8)].preset = none) :
    wardenClaim s = none := by
  unfold wardenClaim
  rw [h]
  rfl

theorem wardenClaim_some (h : templateInUse s.work s.work.orig[(5 : Fin 8)].preset = some m) :
    wardenClaim s = some (wardenClaimOf m s.now) := by
  unfold wardenClaim
  rw [h]
  rfl

theorem offerWarden_none (h : templateInUse s.work s.work.orig[(5 : Fin 8)].preset = none) :
    offerWarden s = s := by
  unfold offerWarden
  rw [wardenClaim_none h]

/-- The zones that the WARDEN claim is offered to. -/
def wardenZones (s : State) : List Zone := allZones.filter fun z => reachOf s.work 5 z

theorem nodup_wardenZones (s : State) : (wardenZones s).Nodup := nodup_allZones.filter _

theorem mem_wardenZones (z : Zone) : z ∈ wardenZones s ↔ inSet s.work.orig[(5 : Fin 8)].reach z = true := by
  unfold wardenZones reachOf
  simp [mem_allZones]

theorem offerWarden_some (h : templateInUse s.work s.work.orig[(5 : Fin 8)].preset = some m) :
    offerWarden s = (wardenZones s).foldl (fun t z => offer z (wardenClaimOf m s.now) t) s := by
  unfold offerWarden
  rw [wardenClaim_some h]
  rfl

theorem offerWarden_zoneRel {R : State → State → Prop} (hR : ZoneRel R) (s : State) : R s (offerWarden s) := by
  unfold offerWarden
  split
  · exact hR.refl s
  · exact hR.foldl _ (fun t z => hR.offer z _ t) _ s

/-- A zone outside the reach, or not in use, keeps its list. -/
theorem offerWarden_away {z : Zone}
    (hz : inSet s.work.orig[(5 : Fin 8)].reach z = false ∨ s.work.spk[z].inUse = false) :
    (offerWarden s).lists[z] = s.lists[z] := by
  cases hm : templateInUse s.work s.work.orig[(5 : Fin 8)].preset with
  | none => rw [offerWarden_none hm]
  | some m =>
    rw [offerWarden_some hm]
    by_cases hmem : z ∈ wardenZones s
    · obtain ⟨a, h1, h2⟩ := zones_visit (f := fun z s' => offer z (wardenClaimOf m s.now) s')
        (fun z y hy s => offer_elsewhere hy _ s) (nodup_wardenZones s) hmem s
      have hu : zoneInUse a z = false := by
        rcases hz with hz | hz
        · rw [(mem_wardenZones z).1 hmem] at hz
          cases hz
        · unfold zoneInUse spk
          rw [h1.grounds.work, hz]
      rw [h2.list, offer_unused hu, updateLock_lists, h1.list]
    · exact (zones_leave (f := fun z s' => offer z (wardenClaimOf m s.now) s')
        (fun z y hy s => offer_elsewhere hy _ s) hmem s).list

theorem offerWarden_settled {z : Zone} {u : State}
    (h : templateInUse s.work s.work.orig[(5 : Fin 8)].preset = some m)
    (hr : inSet s.work.orig[(5 : Fin 8)].reach z = true) (hu : s.work.spk[z].inUse = true)
    (he : Elsewhere z (offerWarden s) u) : OfferSettled z (wardenClaimOf m s.now) s u := by
  rw [offerWarden_some h] at he
  obtain ⟨a, h1, h2⟩ := zones_visit (f := fun z s' => offer z (wardenClaimOf m s.now) s')
    (fun z y hy s => offer_elsewhere hy _ s) (nodup_wardenZones s) ((mem_wardenZones z).2 hr) s
  refine OfferSettled.of (offer_offerSettled ?_ nofun (h2.trans he)) h1.list
  rw [h1.grounds.work]
  exact hu

end offerWarden

theorem announce_elsewhere (z : Zone) (s : State) : Elsewhere z s (announce s) :=
  (announce_onlyWarden s).elsewhere (announce_lists s) (announce_later s) z

theorem announce_slotOnly (s : State) :
    (announce s).warden = { s.warden with slot := (announce s).warden.slot } := by
  unfold announce
  split
  · split
    · unfold sendRequest
      split
      · rfl
      · rw [report_warden]
    · rfl
    · rfl
  · rfl

theorem announce_cancelled {s : State} {d : Nat} (h : mayRequest s = true) (hs : s.warden.slot = .cancelled d) :
    (announce s).warden.slot = .requested d := by
  unfold announce
  rw [if_pos h, hs]
  rfl

/-! ### A press taken with the warden enabled -/

/-- The warden's record as a press taken while enabled leaves it, but for the slot (R147, R148). -/
def pressedBy (w : Warden) : Warden :=
  { w with taken := true, due := none, key := .pressed, talk := some 0, cleared := false }

/-- What a press leaves of the warden's record and its slot, from the tables and the ring of `s`, with the
record `w` (R147, R148, R152). -/
structure PressLeaves (s : State) (w : Warden) (t : State) : Prop where
  warden   : t.warden = { pressedBy w with slot := t.warden.slot }
  requests : s.work.warden.announce = true → s.rif.ring = .locked → w.slot = .none →
    0 < s.room → s.capture = none → t.warden.slot = .requested (s.now + 100) ∧
      t.outbound = s.outbound ++ [{ dest := 253, content := .command true (.slotRequest 1) }]
  noRoom   : s.work.warden.announce = true → s.rif.ring = .locked → w.slot = .none → s.room = 0 →
    t.warden.slot = .none ∧ t.outbound = s.outbound ∧ ToldLast (.wardenLocalOnly .noRoom) t
  serves   : ∀ d, s.work.warden.announce = true → s.rif.ring = .locked → w.slot = .cancelled d →
    t.warden.slot = .requested d
  quiet    : (s.work.warden.announce = false ∨ s.rif.ring ≠ .locked) → t.warden.slot = w.slot

/-- A press announces as the state before its offers says. -/
theorem announce_pressLeaves {s v : State} {w : Warden} (he : s.work.warden.enabled = true)
    (hw : v.warden = pressedBy w) (hv : OnlyWarden s v)
    (hq : s.capture = none → v.outbound = s.outbound) (hf : FullStays s v) : PressLeaves s w (announce v) := by
  have hwork : v.work = s.work := hv.work
  have hrif : v.rif = s.rif := by rw [hv.frame]
  have hnow : v.now = s.now := by rw [hv.frame]
  have hmay : s.work.warden.announce = true → s.rif.ring = .locked → mayRequest v = true := fun ha hr =>
    (mayRequest_iff v).2 ⟨by rw [hw]; rfl, by rw [hw]; nofun, by rw [hwork, he], by rw [hwork, ha],
      by rw [hw]; rfl, by rw [hrif, hr]⟩
  have hslot : v.warden.slot = w.slot := by rw [hw]; rfl
  refine ⟨?_, fun ha hr hs hroom hc => ?_, fun ha hr hs hroom => ?_, fun d ha hr hs => ?_, fun hn => ?_⟩
  · rw [announce_slotOnly, hw]
  · have hvroom : 0 < v.room := by
      unfold State.room at hroom ⊢
      rw [hq hc, hf.reserved]
      exact hroom
    obtain ⟨h1, h2⟩ := (announce_requests (hmay ha hr) (hslot.trans hs)).1 hvroom
    exact ⟨by rw [h1, hnow], by rw [h2, hq hc]⟩
  · obtain ⟨h1, h2, h3⟩ := (announce_requests (hmay ha hr) (hslot.trans hs)).2 (hf.room hroom)
    exact ⟨by rw [h1, hslot, hs], by rw [h2, hf.outbound hroom], h3⟩
  · exact announce_cancelled (hmay ha hr) (hslot.trans hs)
  · have hno : mayRequest v = false := Bool.eq_false_iff.2 fun e => by
      obtain ⟨-, -, -, h1, -, h2⟩ := (mayRequest_iff v).1 e
      rw [hwork] at h1
      rw [hrif] at h2
      rcases hn with hn | hn
      · rw [h1] at hn
        cases hn
      · exact hn h2
    rw [announce_not hno, hslot]

/-- A press taken with the warden enabled from `b`, which is `s` with the record `w` after changes of zones. -/
theorem pressTaken_pressLeaves {s b : State} {w : Warden} (he : s.work.warden.enabled = true)
    (hz : OnlyZones { s with warden := w } b) (hf : FullStays { s with warden := w } b) :
    PressLeaves s w (pressTaken b) := by
  have hb : b.work.warden.enabled = true := by rw [hz.work]; exact he
  have hbw : b.warden = w := hz.warden
  rw [pressTaken_enabled hb]
  have hset : OnlyZones { b with warden := pressedBy b.warden } (offerWarden { b with warden := pressedBy b.warden }) :=
    offerWarden_onlyZones _
  have hfull : FullStays { b with warden := pressedBy b.warden } (offerWarden { b with warden := pressedBy b.warden }) :=
    offerWarden_zoneRel fullStays_zoneRel _
  refine announce_pressLeaves he (v := offerWarden { b with warden := pressedBy b.warden })
    (by rw [hset.warden, hbw]) ?_ (fun hc => ?_) ?_
  · exact ((setWarden_onlyWarden (fun _ => w) s).trans hz.onlyWarden).trans
      ((setWarden_onlyWarden pressedBy b).trans hset.onlyWarden)
  · obtain ⟨h1, h2, -⟩ := hz.queues.quiet hc
    exact (hset.queues.quiet h1).2.1.trans h2
  · exact FullStays.trans (t := { s with warden := w }) (.same rfl rfl)
      (hf.trans (FullStays.trans (t := { b with warden := pressedBy b.warden }) (.same rfl rfl) hfull))

/-- What a press taken with the warden enabled leaves of the zones. -/
theorem pressTaken_elsewhere {b : State} (he : b.work.warden.enabled = true) (z : Zone) :
    Elsewhere z (offerWarden { b with warden := pressedBy b.warden }) (pressTaken b) := by
  rw [pressTaken_enabled he]
  exact announce_elsewhere z _

/-- The zones after a press taken from `b`. -/
theorem pressTaken_away {b : State} (he : b.work.warden.enabled = true) {z : Zone}
    (hz : inSet b.work.orig[(5 : Fin 8)].reach z = false ∨ b.work.spk[z].inUse = false) :
    (pressTaken b).lists[z] = b.lists[z] := by
  rw [(pressTaken_elsewhere he z).list]
  exact offerWarden_away (s := { b with warden := pressedBy b.warden }) hz

theorem pressTaken_settled {s b : State} {m : Template} {z : Zone} (he : b.work.warden.enabled = true)
    (hw : b.work = s.work) (hn : b.now = s.now) (hl : b.lists[z] = s.lists[z])
    (hm : templateInUse s.work s.work.orig[(5 : Fin 8)].preset = some m)
    (hr : inSet s.work.orig[(5 : Fin 8)].reach z = true) (hu : s.work.spk[z].inUse = true) :
    OfferSettled z (wardenClaimOf m s.now) s (pressTaken b) := by
  rw [← hw] at hm hr hu
  rw [← hn]
  exact (offerWarden_settled (s := { b with warden := pressedBy b.warden }) hm hr hu
    (pressTaken_elsewhere he z)).of hl

/-- The warden's claims have gone before a fresh press that builds none (R158, log entry 29). -/
theorem freshPress_cases (s : State) :
    (s.work.warden.enabled = true ∧ templateInUse s.work s.work.orig[(5 : Fin 8)].preset ≠ none ∧
      freshPress s = pressTaken s) ∨
    ((s.work.warden.enabled = false ∨ templateInUse s.work s.work.orig[(5 : Fin 8)].preset = none) ∧
      freshPress s = pressTaken (removalAll (ownedBy .warden) s)) := by
  unfold freshPress
  cases hm : templateInUse s.work s.work.orig[(5 : Fin 8)].preset with
  | none =>
    rw [wardenClaim_none hm, Option.isSome_none, Bool.and_false, if_neg Bool.false_ne_true]
    exact .inr ⟨.inr rfl, rfl⟩
  | some m =>
    rw [wardenClaim_some hm, Option.isSome_some, Bool.and_true]
    cases he : s.work.warden.enabled with
    | true => exact .inl ⟨rfl, nofun, rfl⟩
    | false => exact .inr ⟨.inl rfl, rfl⟩

/-- Settles O50: a press taken from the state itself, or, where a fresh take builds no claim, from the state that the
interrupted press's claims have left. -/
theorem pressIsTaken : Obligations.PressTaken := by
  unfold Obligations.PressTaken
  intro pressed
  have core : ∀ (s b : State) (fresh : Option FreshTake) (i : Instr),
      OnlyZones { s with warden := { s.warden with fresh := fresh } } b →
      FullStays { s with warden := { s.warden with fresh := fresh } } b →
      (s.work.warden.enabled = true → templateInUse s.work s.work.orig[(5 : Fin 8)].preset ≠ none →
        b.lists = s.lists) →
      (∀ z : Zone, (∀ c ∈ s.lists[z], c.owner ≠ .warden) → b.lists[z] = s.lists[z]) →
      (s.work.warden.enabled = true → exec i s = .next (pressTaken b)) → pressed fresh i s := by
    intro s b fresh i hz hf hsome hnone hex
    have hbw : b.work = s.work := hz.work
    have hbn : b.now = s.now := hz.grounds.now
    intro he
    have heb : b.work.warden.enabled = true := by rw [hbw]; exact he
    have hp := pressTaken_pressLeaves (s := s) (w := { s.warden with fresh := fresh }) he hz hf
    refine ⟨_, hex he, ((setWarden_onlyWarden (fun _ => { s.warden with fresh := fresh }) s).trans
      hz.onlyWarden).trans (pressTaken_onlyWarden b), hp.warden, fun z hz hc => ?_, fun m z hm hr hu => ?_,
      hp.requests, hp.noRoom, hp.serves, hp.quiet⟩
    · rw [pressTaken_away heb (by rw [hbw]; exact hz)]
      rcases hc with hc | hc
      · rw [hsome he hc]
      · exact hnone z hc
    · exact pressTaken_settled heb hbw hbn (by rw [hsome he (by rw [hm]; nofun)]) hm hr hu
  refine ⟨fun s d hp hd hle hk => ⟨?_, fun he hn => ?_, fun he => ?_⟩, fun s f hp hf hle hfc hk => ?_⟩
  · exact core s s s.warden.fresh .keyPress (.refl _) (.same rfl rfl) (fun _ _ => rfl) (fun _ _ => rfl)
      fun _ => exec_keyPress hp hd hle hk
  · refine ⟨_, exec_keyPress hp hd hle hk, ?_⟩
    rw [pressTaken_enabled he, announce_lists]
    exact (congrArg State.lists (offerWarden_none (s := { s with warden := pressedBy s.warden }) hn)).trans rfl
  · rw [exec_keyPress hp hd hle hk, pressTaken_disabled he]
  · have hex := exec_wardenFreshTake hp hf hle
    rw [hfc, hk, Bool.and_true, if_pos rfl] at hex
    have hgone : ∀ u, (∀ z, Elsewhere z (removalAll (ownedBy .warden)
        (setWarden (fun w => { w with fresh := none }) s)) u) → WardenGone s u := fun u hu =>
      wardenGone_of (setWarden_sameClaims _ s) hu
    have hwork : (removalAll (ownedBy .warden) (setWarden (fun w => { w with fresh := none }) s)).work = s.work :=
      (removalAll_onlyZones _ _).work
    refine ⟨?_, fun he hn => ?_, fun he => ?_⟩
    · rcases freshPress_cases (setWarden (fun w => { w with fresh := none }) s) with ⟨-, hm, h⟩ | ⟨hno, h⟩
      · rw [h] at hex
        exact core s (setWarden (fun w => { w with fresh := none }) s) none _ (.refl _) (.same rfl rfl)
          (fun _ _ => rfl) (fun _ _ => rfl) fun _ => hex
      · rw [h] at hex
        refine core s (removalAll (ownedBy .warden) (setWarden (fun w => { w with fresh := none }) s)) none _
          (removalAll_onlyZones _ _) (fullStays_zoneRel.removalAll _ _) (fun he hm => ?_) (fun z hz => ?_) fun _ => hex
        · exact absurd (hno.resolve_left fun h => absurd (h.symm.trans he) nofun) hm
        · exact ((hgone _ (fun z => .refl z _)) z).2.1.whole fun d hd => by simpa using hz d hd
    · rcases freshPress_cases (setWarden (fun w => { w with fresh := none }) s) with ⟨-, hm, -⟩ | ⟨-, h⟩
      · exact absurd hn hm
      · rw [h] at hex
        refine ⟨_, hex, hgone _ fun z => ?_⟩
        generalize removalAll (ownedBy .warden) (setWarden (fun w => { w with fresh := none }) s) = b at hwork ⊢
        have heb : b.work.warden.enabled = true := by rw [hwork]; exact he
        have hset := pressTaken_elsewhere heb z
        rw [offerWarden_none (s := { b with warden := pressedBy b.warden }) (by rw [hwork]; exact hn)] at hset
        exact (setWarden_elsewhere z pressedBy b).trans hset
    · rcases freshPress_cases (setWarden (fun w => { w with fresh := none }) s) with ⟨he', -, -⟩ | ⟨-, h⟩
      · exact absurd (he'.symm.trans he) nofun
      · have hdis : (removalAll (ownedBy .warden)
          (setWarden (fun w => { w with fresh := none }) s)).work.warden.enabled = false := by rw [hwork]; exact he
        rw [h, pressTaken_disabled hdis] at hex
        refine ⟨_, hex, ?_, ?_, hgone _ fun z => setWarden_elsewhere z (fun w => { w with
          taken := true, due := none, key := .pressed, talk := none, cleared := false }) _⟩
        · exact ((setWarden_onlyWarden _ s).trans (removalAll_onlyZones _ _).onlyWarden).trans
            (setWarden_onlyWarden (fun w => { w with
              taken := true, due := none, key := .pressed, talk := none, cleared := false }) _)
        · dsimp only
          rw [(removalAll_onlyZones _ _).warden]
          rfl

end Sys2Proof.Machine

namespace Sys2Proof.Machine

/-! ## Stage timers expired one by one (O40, O41) -/

/-- A reference with its stage timer, where it has one, expired. -/
def refTimedOut (f : Ref) : Ref := if f.timer.isSome = true then refExpired f else f

theorem timedOut_refs (r : ActRecord) : (timedOut r).refs = r.refs.map refTimedOut := rfl

/-- A record with the stage timers of its first `k` references expired. -/
def timedUpTo (k : Nat) (r : ActRecord) : ActRecord :=
  { r with refs := (timedOut r).refs.take k ++ r.refs.drop k }

theorem timedUpTo_all {k : Nat} {r : ActRecord} (h : r.refs.length ≤ k) : timedUpTo k r = timedOut r := by
  unfold timedUpTo
  rw [List.drop_eq_nil_of_le h, List.take_of_length_le (by rw [timedOut_refs, List.length_map]; exact h),
    List.append_nil]
  rfl

theorem timedUpTo_get (k : Nat) (r : ActRecord) (i : Nat) :
    (timedUpTo k r).refs[i]? = if i < k then r.refs[i]?.map refTimedOut else r.refs[i]? := by
  show ((timedOut r).refs.take k ++ r.refs.drop k)[i]? = _
  rw [timedOut_refs, ← List.map_take, List.getElem?_append, List.length_map, List.length_take]
  by_cases hk : i < k
  · by_cases hl : i < r.refs.length
    · rw [if_pos (by omega), if_pos hk, List.getElem?_map, List.getElem?_take, if_pos hk]
    · rw [if_neg (by omega), if_pos hk, List.getElem?_drop, List.getElem?_eq_none (by omega),
        List.getElem?_eq_none (by omega)]
      rfl
  · rw [if_neg hk]
    by_cases hl : i < r.refs.length
    · rw [if_neg (by omega), List.getElem?_drop]
      congr 1
      omega
    · rw [List.getElem?_eq_none (by omega : r.refs.length ≤ i)]
      split
      · rw [List.getElem?_eq_none]
        rw [List.length_map, List.length_take]
        omega
      · rw [List.getElem?_eq_none]
        rw [List.length_drop]
        omega

/-- The reference at position `k` without a timer: nothing expires there. -/
theorem timedUpTo_succ_idle {k : Nat} {r : ActRecord} (h : ∀ f, r.refs[k]? = some f → f.timer.isSome = false) :
    timedUpTo (k + 1) r = timedUpTo k r := by
  have : (timedUpTo (k + 1) r).refs = (timedUpTo k r).refs := by
    refine List.ext_getElem? fun i => ?_
    rw [timedUpTo_get, timedUpTo_get]
    by_cases hi : i = k
    · subst hi
      rw [if_pos (Nat.lt_succ_self i), if_neg (Nat.lt_irrefl i)]
      cases hf : r.refs[i]? with
      | none => rfl
      | some f =>
        rw [Option.map_some, refTimedOut, h f hf]
        rfl
    · by_cases hk : i < k
      · rw [if_pos hk, if_pos (by omega)]
      · rw [if_neg hk, if_neg (by omega)]
  exact congrArg (fun l => { r with refs := l }) this

/-- The expiry at position `k`. -/
theorem timedUpTo_succ {k : Nat} {r : ActRecord} {f : Ref} (h : r.refs[k]? = some f) (ht : f.timer.isSome = true) :
    timedUpTo (k + 1) r = { timedUpTo k r with refs := (timedUpTo k r).refs.set k (refExpired f) } := by
  have : (timedUpTo (k + 1) r).refs = (timedUpTo k r).refs.set k (refExpired f) := by
    refine List.ext_getElem? fun i => ?_
    rw [timedUpTo_get, List.getElem?_set]
    by_cases hi : i = k
    · subst hi
      have hl : i < (timedUpTo i r).refs.length := by
        by_contra hn
        have := timedUpTo_get i r i
        rw [List.getElem?_eq_none (by omega), if_neg (Nat.lt_irrefl i), h] at this
        cases this
      rw [if_pos rfl, if_pos hl, if_pos (Nat.lt_succ_self i), h, Option.map_some, refTimedOut, if_pos ht]
    · rw [if_neg (show ¬k = i from fun h => hi h.symm), timedUpTo_get]
      by_cases hk : i < k
      · rw [if_pos hk, if_pos (by omega)]
      · rw [if_neg hk, if_neg (by omega)]
  exact congrArg (fun l => { r with refs := l }) this

/-! ### Reach and merge of a record with timers expired -/

/-- What a reference reaches depends on the record's place and class and on its effect alone. -/
theorem refReaches_congr {t : Tables} {r r' : ActRecord} {f f' : Ref} {z : Zone} (hl : r'.level = r.level)
    (hs : r'.sector = r.sector) (hc : r'.cls = r.cls) (he : effectOf t f' = effectOf t f) :
    refReaches t r' f' z = refReaches t r f z := by
  unfold refReaches effectReaches
  rw [he, hl, hs, hc]

theorem effectOf_expired (t : Tables) (f : Ref) : effectOf t (refExpired f) = effectOf t f := rfl

theorem effectOf_timedOut (t : Tables) (f : Ref) : effectOf t (refTimedOut f) = effectOf t f := by
  unfold refTimedOut
  split <;> rfl

/-- Two records of one cause that differ in a reference which reaches the zone in neither have the same merge
there. -/
theorem mergeClaim_set {t : Tables} {now : Nat} {r : ActRecord} {z : Zone} {k : Nat} {f g : Ref}
    (hf : r.refs[k]? = some f) (he : effectOf t g = effectOf t f) (hr : refReaches t r f z = false) :
    mergeClaim t now { r with refs := r.refs.set k g } z = mergeClaim t now r z := by
  have hstep : chooseStep t { r with refs := r.refs.set k g } z = chooseStep t r z := by
    funext b x
    unfold chooseStep
    rw [refReaches_congr (r := r) (r' := { r with refs := r.refs.set k g }) (f := x) (f' := x) rfl rfl rfl rfl]
  have hk : k < r.refs.length := by
    by_contra hn
    rw [List.getElem?_eq_none (by omega)] at hf
    cases hf
  have hsplit : r.refs = r.refs.take k ++ f :: r.refs.drop (k + 1) := by
    rw [List.getElem?_eq_getElem hk] at hf
    rw [← Option.some.inj hf, List.getElem_cons_drop, List.take_append_drop]
  have hchoose : chooseRef t { r with refs := r.refs.set k g } z = chooseRef t r z := by
    rw [chooseRef_eq, chooseRef_eq, hstep]
    show (r.refs.set k g).foldl _ none = r.refs.foldl _ none
    have idle : ∀ b x, refReaches t r x z = false → chooseStep t r z b x = b := fun b x hx => by
      unfold chooseStep
      rw [hx]
      rfl
    rw [List.set_eq_take_append_cons_drop, if_pos hk]
    conv => rhs; rw [hsplit]
    rw [List.foldl_append, List.foldl_append, List.foldl_cons, List.foldl_cons, idle _ f hr, idle _ g]
    rw [← hr]
    exact refReaches_congr rfl rfl rfl he
  unfold mergeClaim
  rw [hchoose]

/-- A merge at EVACUATE stage stays there while further timers of the record expire (R52, R60). -/
theorem mergeClaim_evacuate {t : Tables} {now : Nat} {r r' : ActRecord} {z : Zone} {c : Claim}
    (hl : r'.level = r.level) (hs : r'.sector = r.sector) (hc : r'.cls = r.cls)
    (hrefs : ∀ i : Nat, r'.refs[i]? = r.refs[i]? ∨ r'.refs[i]? = r.refs[i]?.map refTimedOut)
    (h : mergeClaim t now r z = some c) (he : c.stage = some .evacuate) :
    ∃ c', mergeClaim t now r' z = some c' ∧ c'.stage = some .evacuate := by
  obtain ⟨p, hp, rfl⟩ := Option.map_eq_some_iff.1 h
  have hst : p.1.stage = .evacuate := Option.some.inj he
  have hchosen := chooseRef_chosen t r z
  rw [hp] at hchosen
  obtain ⟨i, ⟨hi, hri, hti⟩, hmax⟩ := hchosen
  -- the reference chosen competes in the later record too
  have hi' : ∃ f', r'.refs[i]? = some f' ∧ f'.stage = .evacuate ∧ effectOf t f' = effectOf t p.1 := by
    rcases hrefs i with h1 | h1
    · exact ⟨p.1, h1.trans hi, hst, rfl⟩
    · refine ⟨refTimedOut p.1, by rw [h1, hi]; rfl, ?_, effectOf_timedOut t p.1⟩
      unfold refTimedOut
      split
      · rfl
      · exact hst
  obtain ⟨f', hf', hst', hef'⟩ := hi'
  have hcomp : Competes t r' z r'.refs i f' p.2 := by
    refine ⟨hf', (refReaches_congr hl hs hc hef').trans hri, ?_⟩
    rw [← hti]
    unfold stageTemplate
    rw [hef', hst', hst]
  have hchosen' := chooseRef_chosen t r' z
  cases hp' : chooseRef t r' z with
  | none =>
    rw [hp'] at hchosen'
    exact absurd hcomp (hchosen' i f' p.2)
  | some p' =>
    rw [hp'] at hchosen'
    obtain ⟨j, ⟨hj, hrj, htj⟩, hmax'⟩ := hchosen'
    refine ⟨claimFrom (.cause r'.dz) p'.2 (some p'.1.stage) now, by unfold mergeClaim; rw [hp']; rfl, ?_⟩
    show some p'.1.stage = some .evacuate
    cases hstage : p'.1.stage with
    | evacuate => rfl
    | alert =>
      -- a reference still at ALERT stood against the chosen one before
      have hj' : r.refs[j]? = some p'.1 := by
        rcases hrefs j with h1 | h1
        · exact h1.symm.trans hj
        · cases hfj : r.refs[j]? with
          | none =>
            rw [h1, hfj] at hj
            cases hj
          | some x =>
            rw [h1, hfj, Option.map_some, Option.some.injEq] at hj
            unfold refTimedOut at hj
            split at hj
            · rw [← hj] at hstage
              cases hstage
            · rw [hj]
      have h1 := hmax j p'.1 p'.2 ⟨hj', by rw [← hrj]; exact (refReaches_congr hl hs hc rfl).symm, htj⟩
      have h2 := hmax' i f' p.2 hcomp
      have hij : i = j := by omega
      subst hij
      rw [hf'] at hj
      rw [Option.some.inj hj, hstage] at hst'
      cases hst'

end Sys2Proof.Machine

namespace Sys2Proof.Machine

/-! ## The re-merge at one zone (R55) -/

section remerge
variable {r : ActRecord} {z : Zone} {s : State}

/-- A re-merge offers the record's merged claim, removes its claim, or finds nothing to do. -/
theorem remerge_cases (r : ActRecord) (z : Zone) (s : State) :
    (∃ c, mergeClaim s.work s.now r z = some c ∧ (remerge r z s = offer z c s ∨
      (remerge r z s = s ∧ ∃ held, claimOf (.cause r.dz) s.lists[z] = some held ∧
        { c with placed := held.placed } = held))) ∨
    (mergeClaim s.work s.now r z = none ∧ (remerge r z s = removal z (ownedBy (.cause r.dz)) s)) := by
  unfold remerge
  cases hm : mergeClaim s.work s.now r z with
  | some c =>
    cases hh : claimOf (.cause r.dz) s.lists[z] with
    | some held =>
      dsimp only
      by_cases he : ({ c with placed := held.placed } : Claim) = held
      · rw [if_pos he]
        exact .inl ⟨c, rfl, .inr ⟨rfl, held, rfl, he⟩⟩
      · rw [if_neg he]
        exact .inl ⟨c, rfl, .inl rfl⟩
    | none => exact .inl ⟨c, rfl, .inl rfl⟩
  | none =>
    cases hh : claimOf (.cause r.dz) s.lists[z] with
    | some held => exact .inr ⟨rfl, rfl⟩
    | none =>
      refine .inr ⟨rfl, (removal_idle fun c hc => ?_).symm⟩
      simpa [ownedBy] using claimOf_none.1 hh c hc

theorem remerge_elsewhere {y : Zone} (hy : y ≠ z) (r : ActRecord) (s : State) :
    Elsewhere y s (remerge r z s) := by
  rcases remerge_cases r z s with ⟨c, -, h | ⟨h, -⟩⟩ | ⟨-, h⟩
  · rw [h]; exact offer_elsewhere hy c s
  · rw [h]; exact .refl y s
  · rw [h]; exact removal_elsewhere hy _ s

theorem ownedBy_iff (o : Owner) (c : Claim) : ownedBy o c = true ↔ c.owner = o := by simp [ownedBy]

/-- A re-merge brings its merged claim, with the placement time of one held, and claims of others as a refill
does. -/
theorem remerge_brings {new : Claim → Prop} {evac : Prop} {gone : Claim → Bool}
    (hgone : ∀ d, d.owner = .cause r.dz → gone d = true)
    (hnew : ∀ c, mergeClaim s.work s.now r z = some c → new c)
    (hheld : ∀ c, mergeClaim s.work s.now r z = some c → ∀ held ∈ s.lists[z], held.owner = .cause r.dz →
      new { c with placed := held.placed })
    (hb : ∀ d, Brings s z d → new d) (hv : Evacuates s z → evac)
    (he : ∀ c, mergeClaim s.work s.now r z = some c → c.stage = some .evacuate → evac) :
    Turns new evac gone z s (remerge r z s) := by
  rcases remerge_cases r z s with ⟨c, hc, h | ⟨h, -⟩⟩ | ⟨-, h⟩
  · rw [h]
    have ho := mergeClaim_owner hc
    exact offer_turns (hnew c hc) (mergeClaim_silent hc) (fun hev => he c hc ((isEvacuating_iff c).1 hev).2)
      (fun held hm hho => ⟨hgone held (hho.trans ho), hheld c hc held hm (hho.trans ho)⟩) hb hv
  · rw [h]; exact .refl s
  · rw [h]
    exact (removal_turns z _ s).mono hb hv fun d hd => hgone d ((ownedBy_iff _ d).1 hd)

/-- A re-merge lets the record's claims come and go, and claims of others as a refill does. -/
theorem remerge_turns {new : Claim → Prop} {evac : Prop} {gone : Claim → Bool}
    (hmine : ∀ d, d.owner = .cause r.dz → new d ∧ gone d = true) (hb : ∀ d, Brings s z d → new d)
    (hv : Evacuates s z → evac)
    (he : ∀ c, mergeClaim s.work s.now r z = some c → c.stage = some .evacuate → evac) :
    Turns new evac gone z s (remerge r z s) :=
  remerge_brings (fun d hd => (hmine d hd).2) (fun c hc => (hmine c (mergeClaim_owner hc)).1)
    (fun c hc held _ _ => (hmine { c with placed := held.placed }
      (show c.owner = .cause r.dz from mergeClaim_owner hc)).1) hb hv he

/-- Where the record holds no claim, an offer of its merged claim leaves it offered. -/
theorem offerMerged_offers {c : Claim} (hc : mergeClaim s.work s.now r z = some c)
    (hn : ∀ d ∈ s.lists[z], d.owner ≠ .cause r.dz) : Offered z c (offer z c s) := by
  refine (offer_settles z c s).offered ?_
  have h1 : Offered z c (offerCore z c s).1 :=
    offerCore_offered (mergeClaim_inUse hc) (by rw [mergeClaim_owner hc]; exact hn) (mergeClaim_silent hc)
  split
  · exact (refill_turns (gone := fun _ => false) _).offered rfl (mergeClaim_silent hc) h1
  · exact h1

/-- After its offer the claim of the cause in the zone is its merged claim, or that was displaced or rejected with
a report. -/
theorem offerMerged_stands {c : Claim} (hc : mergeClaim s.work s.now r z = some c) :
    (∃ d ∈ (offer z c s).lists[z], d = { c with placed := d.placed }) ∨ Offered z c (offer z c s) := by
  by_cases hn : ∀ d ∈ s.lists[z], d.owner ≠ .cause r.dz
  · exact .inr (offerMerged_offers hc hn)
  have ⟨held, hh⟩ : ∃ held, claimOf (.cause r.dz) s.lists[z] = some held :=
    Option.ne_none_iff_exists'.1 fun e => hn (claimOf_none.1 e)
  have ho := mergeClaim_owner hc
  -- the claim stands in place of the held one; a refill keeps it or displaces it with a report
  obtain ⟨b, t, ht, -, -, e⟩ := offerCore_entered c (mergeClaim_inUse hc)
  have hin : { c with placed := held.placed } ∈ (offerCore z c s).1.lists[z] := by
    rw [e]
    refine mem_afterEntry.2 ⟨ht.held held (by rw [ho]; exact hh), fun _ => Bool.eq_false_iff.2 fun e => ?_⟩
    obtain ⟨k, hk⟩ := (isSilence_iff _).1 e
    exact mergeClaim_silent hc k hk
  have hoff : Offered z { c with placed := held.placed } (offer z c s) := by
    refine (offer_settles z c s).offered ?_
    split
    · exact (refill_turns (gone := fun _ => false) _).offered (c := { c with placed := held.placed }) rfl
        (fun k => mergeClaim_silent hc k) (.inl hin)
    · exact .inl hin
  rcases hoff with h1 | h1 | h1
  · exact .inl ⟨_, h1, rfl⟩
  · exact .inr (.inr (.inl h1))
  · exact .inr (.inr (.inr h1))

/-- An offer that lets no SILENCE claim go settles by the cases of R80–R83. -/
theorem offerMerged_settled {c : Claim} {t : State} (hc : mergeClaim s.work s.now r z = some c)
    (hq : c.stage ≠ some .evacuate ∨ ∀ d ∈ s.lists[z], ∀ k, d.owner ≠ .silence k)
    (he : Elsewhere z (offer z c s) t) : OfferSettled z c s t := by
  refine offer_offerSettled (mergeClaim_inUse hc) (fun hev d hd => Bool.eq_false_iff.2 fun hs => ?_) he
  obtain ⟨k, hk⟩ := (isSilence_iff d).1 hs
  rcases hq with hq | hq
  · exact hq ((isEvacuating_iff c).1 hev).2
  · exact hq d hd k hk

/-- The claim of the cause in the zone is its merged claim, or that was displaced or rejected with a report. -/
theorem remerge_merged {c : Claim} (hc : mergeClaim s.work s.now r z = some c) :
    (∃ d ∈ (remerge r z s).lists[z], d = { c with placed := d.placed }) ∨ Offered z c (remerge r z s) := by
  rcases remerge_cases r z s with ⟨c', hc', h | ⟨h, held', hh', he⟩⟩ | ⟨hc', -⟩
  · rw [hc] at hc'
    obtain rfl := Option.some.inj hc'
    rw [h]
    exact offerMerged_stands hc
  · rw [hc] at hc'
    obtain rfl := Option.some.inj hc'
    rw [h]
    exact .inl ⟨held', (claimOf_some hh').1, he.symm⟩
  · rw [hc] at hc'
    cases hc'

/-- Where the record holds no claim its merged claim is offered. -/
theorem remerge_offers {c : Claim} (hc : mergeClaim s.work s.now r z = some c)
    (hn : ∀ d ∈ s.lists[z], d.owner ≠ .cause r.dz) : Offered z c (remerge r z s) := by
  rcases remerge_cases r z s with ⟨c', hc', h | ⟨-, held, hh, -⟩⟩ | ⟨hc', -⟩
  · rw [hc] at hc'
    obtain rfl := Option.some.inj hc'
    rw [h]
    exact offerMerged_offers hc hn
  · obtain ⟨hm, ho⟩ := claimOf_some hh
    exact absurd ho (hn held hm)
  · rw [hc] at hc'
    cases hc'

/-- Without a merged claim the cause holds none there afterwards. -/
theorem remerge_clear (hc : mergeClaim s.work s.now r z = none)
    (hu : ∀ x ∈ s.acts, x.dz = r.dz → mergeClaim s.work s.now x z = none) :
    ∀ d ∈ (remerge r z s).lists[z], d.owner ≠ .cause r.dz := by
  intro d hd ho
  rcases remerge_cases r z s with ⟨c, hc', -⟩ | ⟨-, h⟩
  · rw [hc] at hc'
    cases hc'
  · rw [h] at hd
    rcases removal_anew hd ((ownedBy_iff _ d).2 ho) with ⟨x, hx, hm⟩ | ⟨-, hov⟩
    · have e : x.dz = r.dz := Owner.cause.inj ((mergeClaim_owner hm).symm.trans ho)
      rw [hu x hx e] at hm
      cases hm
    · rw [hov, overflowClaim_owner] at ho
      cases ho

/-- A lone claim of the cause is replaced in its place. -/
theorem remerge_lone {held c : Claim} (hl : s.lists[z] = [held]) (ho : held.owner = .cause r.dz)
    (hc : mergeClaim s.work s.now r z = some c) :
    (remerge r z s).lists[z] = [{ c with placed := held.placed }] := by
  have hco := mergeClaim_owner hc
  rcases remerge_cases r z s with ⟨c', hc', h | ⟨h, held', hh, he⟩⟩ | ⟨hc', -⟩
  · rw [hc] at hc'
    obtain rfl := Option.some.inj hc'
    have hsil : ∀ d ∈ s.lists[z], isSilence d = false := by
      intro d hd
      rw [hl, List.mem_singleton] at hd
      refine Bool.eq_false_iff.2 fun e => ?_
      obtain ⟨k, hk⟩ := (isSilence_iff d).1 e
      rw [hd, ho] at hk
      cases hk
    have hs := offer_offerSettled (mergeClaim_inUse hc) (fun _ => hsil) (.refl z (offer z c s))
    have hok : ListOk s.lists[z] := by
      rw [hl]
      exact ⟨Nat.le_of_ble_eq_true rfl, List.pairwise_singleton _ _, List.pairwise_singleton _ _⟩
    have hmem : held ∈ s.lists[z] := by rw [hl]; exact List.mem_singleton_self _
    obtain ⟨h1, h2⟩ := hs.held held hmem (ho.trans hco.symm) hok
    rw [h]
    by_cases hp : c.prio = held.prio
    · rw [h1 hp, hl, List.map_singleton, if_pos (ho.trans hco.symm)]
    · have hj := h2 hp
      have hfil : s.lists[z].filter (fun d => d.owner != c.owner) = [] := by
        rw [hl]
        simp [ho, hco]
      rw [hfil] at hj
      obtain ⟨x, hx⟩ := List.length_eq_one_iff.1 hj.one
      have := hj.joined
      rw [hx, List.mem_singleton] at this
      rw [hx, this]
  · rw [hc] at hc'
    obtain rfl := Option.some.inj hc'
    have : held' = held := by
      have := (claimOf_some hh).1
      rw [hl, List.mem_singleton] at this
      exact this
    rw [h, hl, ← this, he]
  · rw [hc] at hc'
    cases hc'

end remerge

/-! ## One expiry (R60, R61) -/

section expire
variable {s : State} {dz i : Nat} {r : ActRecord} {f : Ref} {z : Zone}

/-- A record with one reference expired. -/
def withExpired (r : ActRecord) (i : Nat) (f : Ref) : ActRecord := { r with refs := r.refs.set i (refExpired f) }

/-- The state with a record of a detection zone in place of what it held. -/
def putRecord (dz : Nat) (r : ActRecord) (s : State) : State :=
  { s with acts := s.acts.map fun x => if x.dz = dz then r else x }

theorem expire_eq (hr : recordOf s dz = some r) (hf : r.refs[i]? = some f) :
    expire dz i s = report (.causeEscalated dz f.entry f.effect)
      ((zonesReached s.work (withExpired r i f) f).foldl (fun t z => remerge (withExpired r i f) z t)
        (putRecord dz (withExpired r i f) s)) := by
  unfold expire
  rw [hr]
  dsimp only
  rw [hf]
  rfl

theorem mem_zonesReached (t : Tables) (r : ActRecord) (f : Ref) (z : Zone) :
    z ∈ zonesReached t r f ↔ refReaches t r f z = true := by
  unfold zonesReached
  simp [mem_allZones]

theorem nodup_zonesReached (t : Tables) (r : ActRecord) (f : Ref) : (zonesReached t r f).Nodup :=
  nodup_allZones.filter _

theorem refReaches_withExpired (t : Tables) (r : ActRecord) (i : Nat) (f g : Ref) (z : Zone) :
    refReaches t (withExpired r i f) g z = refReaches t r g z := refReaches_congr rfl rfl rfl rfl

/-- A zone that the reference reaches is re-merged once, after the record has changed. -/
theorem expire_visits (hr : recordOf s dz = some r) (hf : r.refs[i]? = some f)
    (hz : refReaches s.work r f z = true) :
    ∃ a, Elsewhere z (putRecord dz (withExpired r i f) s) a ∧
      Elsewhere z (remerge (withExpired r i f) z a) (expire dz i s) := by
  rw [expire_eq hr hf]
  have hmem : z ∈ zonesReached s.work (withExpired r i f) f := by
    rw [mem_zonesReached, refReaches_withExpired]
    exact hz
  obtain ⟨a, h1, h2⟩ := zones_visit (f := fun z s => remerge (withExpired r i f) z s)
    (fun z y hy s => remerge_elsewhere hy _ s) (nodup_zonesReached _ _ _) hmem (putRecord dz (withExpired r i f) s)
  exact ⟨a, h1, h2.trans (report_elsewhere z _ _)⟩

/-- Every other zone is left as it is. -/
theorem expire_leaves (hr : recordOf s dz = some r) (hf : r.refs[i]? = some f)
    (hz : refReaches s.work r f z = false) :
    Elsewhere z (putRecord dz (withExpired r i f) s) (expire dz i s) := by
  rw [expire_eq hr hf]
  have hmem : z ∉ zonesReached s.work (withExpired r i f) f := by
    rw [mem_zonesReached, refReaches_withExpired, hz]
    exact Bool.false_ne_true
  exact (zones_leave (f := fun z s => remerge (withExpired r i f) z s)
    (fun z y hy s => remerge_elsewhere hy _ s) hmem _).trans (report_elsewhere z _ _)

/-- What claims are built from after an expiry: the record has changed. -/
theorem expire_grounds (hr : recordOf s dz = some r) (hf : r.refs[i]? = some f) :
    SameGrounds (putRecord dz (withExpired r i f) s) (expire dz i s) := by
  rw [expire_eq hr hf]
  refine SameGrounds.trans ?_ (report_onlyZones _ _).grounds
  exact (OnlyZones.foldl (fun t z => remerge (withExpired r i f) z t) (fun t z => remerge_onlyZones _ z t) _ _).grounds

end expire

end Sys2Proof.Machine

namespace Sys2Proof.Machine

/-! ## StageTimerExpires (O40) -/

section expiry
variable {s a t : State} {dz : Nat} {r' : ActRecord} {z : Zone}

theorem mem_putRecord {x : ActRecord} :
    x ∈ (putRecord dz r' s).acts ↔ (x ∈ s.acts ∧ x.dz ≠ dz) ∨ ((∃ y ∈ s.acts, y.dz = dz) ∧ x = r') := by
  show x ∈ s.acts.map (fun x => if x.dz = dz then r' else x) ↔ _
  rw [List.mem_map]
  constructor
  · rintro ⟨y, hy, rfl⟩
    split
    next h => exact .inr ⟨⟨y, hy, h⟩, rfl⟩
    next h => exact .inl ⟨hy, h⟩
  · rintro (⟨h1, h2⟩ | ⟨⟨y, hy, h⟩, rfl⟩)
    · exact ⟨x, h1, if_neg h2⟩
    · exact ⟨y, hy, if_pos h⟩

/-- A record put in place of another of its zone leaves the zones of the records as they are. -/
theorem putRecord_distinct (hr : r'.dz = dz) (h : s.acts.Pairwise fun x y => x.dz ≠ y.dz) :
    (putRecord dz r' s).acts.Pairwise fun x y => x.dz ≠ y.dz := by
  have hdz : ∀ x : ActRecord, (if x.dz = dz then r' else x).dz = x.dz := fun x => by
    split
    next e => exact hr.trans e.symm
    · rfl
  show (s.acts.map fun x => if x.dz = dz then r' else x).Pairwise _
  rw [List.pairwise_map]
  exact h.imp fun h => by rwa [hdz, hdz]

/-- The re-merge of a record of `a` where its merge has a result and no SILENCE claim can leave: the offer settles
by R80–R83. -/
theorem remerge_offerSettled {c : Claim} (hc : mergeClaim a.work a.now r' z = some c)
    (hq : c.stage ≠ some .evacuate ∨ ∀ d ∈ a.lists[z], ∀ k, d.owner ≠ .silence k)
    (he : Elsewhere z (remerge r' z a) t) : OfferSettled z c a t := by
  rcases remerge_cases r' z a with ⟨c', hc', h | ⟨h, held, hh, e⟩⟩ | ⟨hc', -⟩
  · rw [hc] at hc'
    obtain rfl := Option.some.inj hc'
    rw [h] at he
    exact offerMerged_settled hc hq he
  · rw [hc] at hc'
    obtain rfl := Option.some.inj hc'
    rw [h] at he
    obtain ⟨hm, ho⟩ := claimOf_some hh
    have hco := mergeClaim_owner hc
    refine ⟨fun hn => absurd (ho.trans hco.symm) (hn held hm), fun hn => absurd (ho.trans hco.symm) (hn held hm),
      fun x hx hxo hok => ?_⟩
    obtain rfl : x = held := hok.unique hx hm (hxo.trans (hco.trans ho.symm))
    refine ⟨fun _ => ?_, fun hp => absurd (congrArg Claim.prio e) hp⟩
    rw [he.list]
    have hself : ∀ d ∈ a.lists[z], (if d.owner = c.owner then { c with placed := x.placed } else d) = id d := by
      intro d hd
      split
      next ho' => rw [hok.unique hd hx (ho'.trans (hco.trans ho.symm))]; exact e
      · rfl
    exact ((List.map_congr_left hself).trans (List.map_id _)).symm
  · rw [hc] at hc'
    cases hc'

/-- A re-merge that brings a held claim of the cause into EVACUATE stage offers it, and no SILENCE claim stays. -/
theorem remerge_evacuates {held c : Claim} (hok : ListOk a.lists[z]) (hm : held ∈ a.lists[z])
    (ho : held.owner = .cause r'.dz) (hst : held.stage ≠ some .evacuate)
    (hc : mergeClaim a.work a.now r' z = some c) (hce : c.stage = some .evacuate) :
    ∃ b : State, SameGrounds a b ∧ b.lists[z] = (replaceClaim c held a.lists[z]).filter (fun d => !isSilence d) ∧
      (Elsewhere z b (remerge r' z a) ∨ Elsewhere z (refill z b) (remerge r' z a)) := by
  have hco := mergeClaim_owner hc
  have hcl : claimOf c.owner a.lists[z] = some held := by
    rw [hco, ← ho]
    exact claimOf_eq hok hm
  have hz : (!zoneInUse a z) = false := by rw [zoneInUse, spk, mergeClaim_inUse hc]; rfl
  have hev : (isEvacuating c && !isEvacuating held) = true := by
    rw [(isEvacuating_iff c).2 ⟨⟨_, hco⟩, hce⟩, Bool.true_and, Bool.not_eq_true', Bool.eq_false_iff]
    exact fun e => hst ((isEvacuating_iff held).1 e).2
  have e : offerCore z c a = dropSilence z (setList z (replaceClaim c held a.lists[z]) a) := by
    unfold offerCore
    dsimp only
    rw [hz, if_neg Bool.false_ne_true, hcl]
    dsimp only
    rw [hev]
    rfl
  rcases remerge_cases r' z a with ⟨c', hc', h | ⟨-, x, hx, hxe⟩⟩ | ⟨hc', -⟩
  · rw [hc] at hc'
    obtain rfl := Option.some.inj hc'
    refine ⟨(offerCore z c a).1, (offerCore_onlyZones z c a).grounds, ?_, ?_⟩
    · rw [e]
      show (setList z _ _).lists[z] = _
      rw [setList_self, setList_self]
    · rw [h]
      have hs := offer_settles z c a
      split at hs
      · exact .inr hs
      · exact .inl hs
  · rw [hc] at hc'
    obtain rfl := Option.some.inj hc'
    rw [← hco, hcl] at hx
    obtain rfl := Option.some.inj hx
    exact absurd ((congrArg Claim.stage hxe).symm.trans hce) hst
  · rw [hc] at hc'
    cases hc'

/-- A refill brings no SILENCE claim. -/
theorem refill_silences {b : State} : ∀ d ∈ (refill z b).lists[z], isSilence d = true → d ∈ b.lists[z] := by
  intro d hd hs
  rcases (refill_turns (gone := fun _ => false) b).fresh d hd with h | h
  · exact h
  · obtain ⟨k, hk⟩ := (isSilence_iff d).1 hs
    rcases h.owner with ⟨x, hx⟩ | hx <;> rw [hx] at hk <;> cases hk

/-- With one record, whose cause holds a claim in the zone, and no OVERFLOW claim called for, a refill changes
nothing. -/
theorem refill_held {b : State} (ha : b.acts = [r']) (hc : claimCondition b = false)
    (hh : holds (.cause r'.dz) b.lists[z] = true) : refill z b = b := by
  have h : refillPass z b = (b, false) := by
    unfold refillPass refillOverflow refillRecord
    rw [ha, List.foldl_cons, List.foldl_nil]
    dsimp only
    rw [hh, if_pos rfl, hc]
    rfl
  unfold refill
  dsimp only
  rw [h]
  rfl

end expiry

/-! ### The expiries that have fallen due -/

theorem mem_dueTimers (s : State) (p : Nat × Nat) : p ∈ dueTimers s ↔
    ∃ x ∈ s.acts, x.dz = p.1 ∧ ∃ g, x.refs[p.2]? = some g ∧ g.due = true := by
  unfold dueTimers
  simp only [List.mem_flatMap, List.mem_map, List.mem_filter, List.mem_range]
  constructor
  · rintro ⟨x, hx, j, ⟨hj, hd⟩, rfl⟩
    cases hg : x.refs[j]? with
    | none => rw [hg] at hd; cases hd
    | some g => exact ⟨x, hx, rfl, g, hg, by rw [hg] at hd; exact hd⟩
  · rintro ⟨x, hx, h1, g, hg, hd⟩
    refine ⟨x, hx, p.2, ⟨?_, by rw [hg]; exact hd⟩, by rw [h1]⟩
    by_contra hn
    rw [List.getElem?_eq_none (by omega)] at hg
    cases hg

theorem nodup_dueTimers {s : State} (h : s.acts.Pairwise fun x y => x.dz ≠ y.dz) : (dueTimers s).Nodup := by
  unfold dueTimers
  rw [List.nodup_flatMap]
  refine ⟨fun x _ => ?_, h.imp fun {x y} hxy => ?_⟩
  · exact (List.nodup_range.filter _).map fun a b e => (Prod.mk.inj e).2
  · rw [Function.onFun, List.disjoint_left]
    intro p hp hq
    obtain ⟨j, -, hj⟩ := List.mem_map.1 hp
    obtain ⟨k, -, hk⟩ := List.mem_map.1 hq
    exact hxy (Prod.mk.inj (hj.trans hk.symm)).1

/-- With one expiry due, it is the one that is taken. -/
theorem expireDue_one {s : State} {dz i : Nat} {r : ActRecord} {f : Ref}
    (hd : s.acts.Pairwise fun x y => x.dz ≠ y.dz) (hr : recordOf s dz = some r) (hf : r.refs[i]? = some f)
    (hdue : f.due = true)
    (hone : ∀ x ∈ s.acts, ∀ j g, x.refs[j]? = some g → g.due = true → x.dz = dz ∧ j = i) :
    expireDue s = expire dz i s := by
  have h1 : (dueTimers s).Perm [(dz, i)] := by
    refine (List.perm_ext_iff_of_nodup (nodup_dueTimers hd) (List.nodup_singleton _)).2 fun p => ?_
    rw [mem_dueTimers, List.mem_singleton]
    constructor
    · rintro ⟨x, hx, h1, g, hg, hgd⟩
      obtain ⟨h2, h3⟩ := hone x hx p.2 g hg hgd
      exact Prod.ext (h1.symm.trans h2) h3
    · rintro rfl
      exact ⟨r, recordOf_mem hr, recordOf_dz hr, f, hf, hdue⟩
  unfold expireDue
  rw [List.perm_singleton.1 h1]
  rfl

/-! ### The expiry as O40 states it -/

/-- What an expiry leaves, said of the state before and after, the record, the reference and the zone. -/
structure ExpiryAt (s t : State) (r' : ActRecord) (z : Zone) (a : State) : Prop where
  before  : Elsewhere z (putRecord r'.dz r' s) a
  after   : Elsewhere z (remerge r' z a) t

section
variable {s t a : State} {r' : ActRecord} {z : Zone} (h : ExpiryAt s t r' z a)
include h

theorem ExpiryAt.list : a.lists[z] = s.lists[z] := h.before.list

theorem ExpiryAt.between : Between z s a (remerge r' z a) t :=
  ⟨h.before.grounds.work, h.before.grounds.now, h.before.list, (remerge_onlyZones r' z a).grounds, h.after⟩

theorem ExpiryAt.merge : mergeClaim a.work a.now r' z = mergeClaim s.work s.now r' z := by
  rw [h.before.grounds.work, h.before.grounds.now]
  rfl

theorem ExpiryAt.mem {x : ActRecord} (hx : x ∈ a.acts) (hd : x.dz = r'.dz) : x = r' := by
  rw [h.before.grounds.acts] at hx
  rcases mem_putRecord.1 hx with ⟨-, hn⟩ | ⟨-, e⟩
  · exact absurd hd hn
  · exact e

theorem ExpiryAt.clear (hm : mergeClaim s.work s.now r' z = none) :
    ∀ d ∈ t.lists[z], d.owner ≠ .cause r'.dz := by
  rw [h.after.list]
  rw [← h.merge] at hm
  exact remerge_clear hm fun x hx hd => by rw [h.mem hx hd]; exact hm

/-- With no result of the merge, the cause's claim is removed as R85 gives. -/
theorem ExpiryAt.removal (hm : mergeClaim s.work s.now r' z = none) :
    Between z s a (Machine.removal z (ownedBy (.cause r'.dz)) a) t := by
  rw [← h.merge] at hm
  rcases remerge_cases r' z a with ⟨c, hc, -⟩ | ⟨-, he⟩
  · rw [hm] at hc
    cases hc
  · have hb := h.between
    rw [he] at hb
    exact hb

theorem ExpiryAt.distinct (hd : s.acts.Pairwise fun x y => x.dz ≠ y.dz) :
    a.acts.Pairwise fun x y => x.dz ≠ y.dz := by
  rw [h.before.grounds.acts]
  exact putRecord_distinct rfl hd

/-- The zone after an entry into EVACUATE stage (R84). -/
theorem ExpiryAt.evacuates {held c : Claim} (hok : ListOk s.lists[z]) (hm : held ∈ s.lists[z])
    (ho : held.owner = .cause r'.dz) (hst : held.stage ≠ some .evacuate)
    (hc : mergeClaim s.work s.now r' z = some c) (hce : c.stage = some .evacuate) :
    (∀ d ∈ t.lists[z], ∀ k, d.owner ≠ .silence k) ∧
      (a.acts = [r'] → claimCondition a = false → ∀ d, d ∈ t.lists[z] ↔
        (d ∈ s.lists[z] ∧ d ≠ held ∧ ∀ k, d.owner ≠ .silence k) ∨ d = { c with placed := held.placed }) := by
  rw [← h.merge] at hc
  rw [← h.list] at hok hm ⊢
  have hco := mergeClaim_owner hc
  obtain ⟨b, hg, hl, hb⟩ := remerge_evacuates hok hm ho hst hc hce
  have hfil : ∀ d, d ∈ b.lists[z] ↔
      (d ∈ a.lists[z] ∧ d ≠ held ∧ ∀ k, d.owner ≠ .silence k) ∨ d = { c with placed := held.placed } := by
    intro d
    have hsil : isSilence d = false ↔ ∀ k, d.owner ≠ .silence k := by
      rw [Bool.eq_false_iff, ne_eq, isSilence_iff, not_exists]
    have hne : d ∈ a.lists[z] → (d.owner ≠ c.owner ↔ d ≠ held) := fun hd =>
      not_congr ⟨fun e => hok.unique hd hm (e.trans (hco.trans ho.symm)), fun e => by rw [e, ho, hco]⟩
    rw [hl, List.mem_filter, mem_replaceClaim hm (ho.trans hco.symm), Bool.not_eq_true', hsil]
    constructor
    · rintro ⟨⟨h1, h2⟩ | rfl, h3⟩
      · exact .inl ⟨h1, (hne h1).1 h2, h3⟩
      · exact .inr rfl
    · rintro (⟨h1, h2, h3⟩ | rfl)
      · exact ⟨.inl ⟨h1, (hne h1).2 h2⟩, h3⟩
      · exact ⟨.inr rfl, fun k => mergeClaim_silent hc k⟩
  have hquiet : ∀ d ∈ b.lists[z], ∀ k, d.owner ≠ .silence k := fun d hd => by
    rcases (hfil d).1 hd with ⟨-, -, h3⟩ | rfl
    · exact h3
    · exact fun k => mergeClaim_silent hc k
  refine ⟨fun d hd k hk => ?_, fun ha hcond d => ?_⟩
  · rw [h.after.list] at hd
    have hs : isSilence d = true := (isSilence_iff d).2 ⟨k, hk⟩
    rcases hb with hb | hb
    · rw [hb.list] at hd
      exact hquiet d hd k hk
    · rw [hb.list] at hd
      exact hquiet d (refill_silences d hd hs) k hk
  · have hlist : t.lists[z] = b.lists[z] := by
      rw [h.after.list]
      rcases hb with hb | hb
      · exact hb.list
      · rw [hb.list, refill_held (hg.acts.trans ha) (hg.condition.trans hcond)]
        exact (holds_iff _ _).2 ⟨_, (hfil _).2 (.inr rfl), hco⟩
    rw [hlist]
    exact hfil d

theorem ExpiryAt.record_mem (hex : ∃ x ∈ s.acts, x.dz = r'.dz) : r' ∈ a.acts := by
  rw [h.before.grounds.acts]
  exact mem_putRecord.2 (.inr ⟨hex, rfl⟩)

theorem ExpiryAt.othersKept (hex : ∃ x ∈ s.acts, x.dz = r'.dz) :
    OthersKept t.acts (fun d => d.owner == .cause r'.dz) s t z :=
  h.between.othersKept (remerge_turns (fun d hd => ⟨.inl (by simpa using hd), by simpa using hd⟩)
    (fun d hd => .inr hd) id fun c hc he => ⟨r', h.record_mem hex, c, hc, he⟩)

end

theorem timerDue_of {s : State} {dz i : Nat} {r : ActRecord} {f : Ref} (hr : recordOf s dz = some r)
    (hf : r.refs[i]? = some f) (hdue : f.due = true) : timerDue s dz i = true := by
  unfold timerDue
  rw [hr]
  dsimp only
  rw [hf]
  exact hdue

/-- The state in which a millisecond is counted, from that after the expiries due: one that a frame of count 0
completes is completed once (R176). -/
def msBegins (o : MsOrigin) (s : State) : State :=
  match o with
  | .frame => { s with msDue := false }
  | .oscillator => s

theorem exec_millisecond {o : MsOrigin} {s : State} (h : msMayComplete o s = true) :
    exec (.timebaseMillisecond o) s = .next (tick (msBegins o (expireDue s))) := by
  cases o <;> exact whenever_leaves (o := execTimebaseMillisecond _ s) rfl h rfl

/-- After the only expiry due has been taken, the next millisecond finds none, and is what it was with it. -/
theorem expire_millisecond {s : State} {dz i : Nat} {r : ActRecord} {f : Ref}
    (hd : s.acts.Pairwise fun x y => x.dz ≠ y.dz) (hr : recordOf s dz = some r) (hf : r.refs[i]? = some f)
    (hdue : f.due = true)
    (hone : ∀ x ∈ s.acts, ∀ j g, x.refs[j]? = some g → g.due = true → x.dz = dz ∧ j = i)
    {o : MsOrigin} (hmay : msMayComplete o s = true) :
    exec (.timebaseMillisecond o) s = exec (.timebaseMillisecond o) (expire dz i s) := by
  have hs := expireDue_one hd hr hf hdue hone
  have ht : expireDue (expire dz i s) = expire dz i s := by
    refine expireDue_none fun x hx g hg => Bool.eq_false_iff.2 fun hgd => ?_
    obtain ⟨j, hj⟩ := List.mem_iff_getElem?.1 hg
    rw [(expire_grounds hr hf).acts] at hx
    rcases mem_putRecord.1 hx with ⟨hx, hn⟩ | ⟨-, rfl⟩
    · exact hn (hone x hx j g hj hgd).1
    · rw [show (withExpired r i f).refs = r.refs.set i (refExpired f) from rfl, List.getElem?_set] at hj
      split at hj
      · split at hj
        · rw [← Option.some.inj hj] at hgd
          cases hgd
        · cases hj
      next hij => exact hij (hone r (recordOf_mem hr) j g hj hgd).2.symm
  have hmay' : msMayComplete o (expire dz i s) = true := by
    rw [← hmay]
    have hfr := (expire_onlyCauses dz i s).frame
    unfold msMayComplete State.locked
    rw [hfr]
  rw [exec_millisecond hmay, exec_millisecond hmay', hs, ht]

/-- Settles O40: the record changes, each zone that its reference reaches is re-merged in turn, and the report is
the last. -/
theorem stageTimerExpires : Obligations.StageTimerExpires := by
  unfold Obligations.StageTimerExpires
  intro s dz i r f hp hr hf hdue f' r'
  have hdz : r'.dz = dz := show r.dz = dz from recordOf_dz hr
  have hgr := expire_grounds hr hf
  have hreach : ∀ z, refReaches s.work r' f' z = refReaches s.work r f z := fun z =>
    refReaches_congr rfl rfl rfl rfl
  have hex : ∃ x ∈ s.acts, x.dz = r'.dz := ⟨r, recordOf_mem hr, rfl⟩
  have hvisit : ∀ z, refReaches s.work r' f' z = true → ∃ a, ExpiryAt s (expire dz i s) r' z a := fun z hz => by
    obtain ⟨a, h1, h2⟩ := expire_visits hr hf ((hreach z).symm.trans hz)
    exact ⟨a, by rw [hdz]; exact h1, h2⟩
  refine ⟨expire dz i s, whenever_leaves (o := execStageTimerExpiry dz i s) rfl
    (by rw [State.running, hp, timerDue_of hr hf hdue]; rfl) rfl, expire_onlyCauses dz i s, hgr.acts, hgr.overflow,
    ?_, fun z hz => (expire_leaves hr hf ((hreach z).symm.trans hz)).list, fun z hz => ?_, fun z held c hz hl ho hc => ?_,
    fun z held c hz hok hm ho hst hc hce => ?_, fun hone hrec o hmay => expire_millisecond hrec.2.1 hr hf hdue hone hmay⟩
  · rw [expire_eq hr hf]
    exact report_toldLast _ _
  · obtain ⟨a, h⟩ := hvisit z hz
    have hcl := h.clear
    have ho := h.othersKept hex
    rw [hdz] at hcl ho
    refine ⟨ho, fun c hc => ⟨?_, fun hn => ?_, fun hq => ?_⟩, fun hm => ⟨hcl hm, ?_, fun hrec => ?_⟩⟩
    · rcases remerge_merged (h.merge.trans hc) with ⟨d, hd, hdc⟩ | hoff
      · exact .inl ⟨d, by rw [h.after.list]; exact hd, hdc⟩
      · exact .inr (h.after.offered hoff)
    · refine h.after.offered (remerge_offers (h.merge.trans hc) ?_)
      rw [h.list, hdz]
      exact hn
    · refine OfferSettled.of (remerge_offerSettled (h.merge.trans hc) ?_ h.after) h.list
      rw [h.list]
      exact hq
    · have hk := removal_claimsKept (h.removal hm)
      rw [hdz] at hk
      exact hk
    · have hk := removal_refilled (h.removal hm) (h.distinct hrec.2.1)
      rw [hdz] at hk
      exact hk
  · obtain ⟨a, h⟩ := hvisit z hz
    rw [h.after.list]
    exact remerge_lone (h.list.trans hl) (ho.trans (by rw [hdz])) (h.merge.trans hc)
  · obtain ⟨a, h⟩ := hvisit z hz
    obtain ⟨h1, h2⟩ := h.evacuates hok hm (ho.trans (by rw [hdz])) hst hc hce
    refine ⟨h1, fun hacts hov hmode => h2 ?_ ?_⟩
    · rw [h.before.grounds.acts]
      show s.acts.map (fun x => if x.dz = r'.dz then r' else x) = [r']
      rw [hacts, List.map_singleton, if_pos rfl]
    · refine Bool.eq_false_iff.2 fun e => ?_
      rw [claimCondition_iff, h.before.grounds.overflow, h.before.grounds.mode] at e
      rcases e with e | ⟨e, -⟩
      · exact Bool.false_ne_true (hov.symm.trans e)
      · exact Bool.false_ne_true (hmode.symm.trans e)

end Sys2Proof.Machine

namespace Sys2Proof.Machine

/-! ## Every stage timer of a record (R63) -/

/-- A claim that comes while the timers of a record expire: one of its cause, or what a refill brings for the
others. -/
def NewBeside (r : ActRecord) (s : State) (z : Zone) (d : Claim) : Prop :=
  d.owner = .cause r.dz ∨ (∃ x ∈ s.acts, x.dz ≠ r.dz ∧ mergeClaim s.work s.now x z = some d) ∨
    (claimCondition s = true ∧ d = overflowClaim s)

/-- A merge is at EVACUATE stage with the record's timers expired. -/
def EvacuatesWith (r : ActRecord) (s : State) (z : Zone) : Prop :=
  ∃ x, (x = timedOut r ∨ (x ∈ s.acts ∧ x.dz ≠ r.dz)) ∧
    ∃ c, mergeClaim s.work s.now x z = some c ∧ c.stage = some .evacuate

/-- A timer among the first `k` references of a record reaches the zone. -/
def ReachedBy (t : Tables) (r : ActRecord) (z : Zone) (k : Nat) : Prop :=
  ∃ i f, i < k ∧ r.refs[i]? = some f ∧ f.timer.isSome = true ∧ refReaches t r f z = true

theorem reachedBy_all (t : Tables) (r : ActRecord) (z : Zone) :
    ReachedBy t r z r.refs.length ↔ TimerReaches t r z := by
  constructor
  · rintro ⟨i, f, -, hf, ht, hr⟩
    exact ⟨f, List.mem_of_getElem? hf, ht, hr⟩
  · rintro ⟨f, hf, ht, hr⟩
    obtain ⟨i, hi⟩ := List.mem_iff_getElem?.1 hf
    exact ⟨i, f, (List.getElem?_eq_some_iff.1 hi).1, hi, ht, hr⟩

/-- From `s` to `t` the timers of the first `k` references of the record have expired, as far as the zone sees
it. -/
structure Escalating (r : ActRecord) (z : Zone) (k : Nat) (s t : State) : Prop where
  grounds : SameGrounds (putRecord r.dz (timedUpTo k r) s) t
  turns   : Turns (NewBeside r s z) (EvacuatesWith r s z) (fun d => d.owner == .cause r.dz) z s t
  away    : ¬ReachedBy s.work r z k → t.lists[z] = s.lists[z]
  merged  : ReachedBy s.work r z k → ∀ c, mergeClaim s.work s.now (timedUpTo k r) z = some c →
    (∃ d ∈ t.lists[z], d = { c with placed := d.placed }) ∨ Offered z c t
  clear   : ReachedBy s.work r z k → mergeClaim s.work s.now (timedUpTo k r) z = none →
    ∀ d ∈ t.lists[z], d.owner ≠ .cause r.dz
  lone    : ∀ held, s.lists[z] = [held] → held.owner = .cause r.dz →
    (∀ j, mergeClaim s.work s.now (timedUpTo j r) z ≠ none) →
    ∃ h, t.lists[z] = [h] ∧ h.owner = .cause r.dz ∧ h.placed = held.placed ∧
      (ReachedBy s.work r z k → ∀ c, mergeClaim s.work s.now (timedUpTo k r) z = some c →
        h = { c with placed := held.placed })
  placed  : (∀ d ∈ s.lists[z], d.owner = .cause r.dz → d.placed = s.now) →
    ∀ d ∈ t.lists[z], d.owner = .cause r.dz → d.placed = s.now

section
variable {r : ActRecord} {z : Zone} {k : Nat} {s t : State}

theorem putRecord_condition {dz : Nat} {y : ActRecord} : claimCondition (putRecord dz y s) = claimCondition s := by
  unfold claimCondition putRecord
  dsimp only
  rw [List.isEmpty_map]

/-- What a refill brings with the record's timers partly expired. -/
theorem newBeside_of {d : Claim} (h : Brings (putRecord r.dz (timedUpTo k r) s) z d) : NewBeside r s z d := by
  rcases h with ⟨x, hx, hm⟩ | ⟨hc, hd⟩
  · rcases mem_putRecord.1 hx with ⟨hx, hn⟩ | ⟨-, rfl⟩
    · exact .inr (.inl ⟨x, hx, hn, hm⟩)
    · exact .inl ((mergeClaim_owner hm).trans rfl)
  · exact .inr (.inr ⟨putRecord_condition ▸ hc, hd⟩)

/-- A merge at EVACUATE stage with some timers expired is there with all. -/
theorem timedUpTo_evacuate {t : Tables} {now : Nat} {c : Claim} (h : mergeClaim t now (timedUpTo k r) z = some c)
    (he : c.stage = some .evacuate) :
    ∃ c', mergeClaim t now (timedOut r) z = some c' ∧ c'.stage = some .evacuate := by
  refine mergeClaim_evacuate (r := timedUpTo k r) (r' := timedOut r) rfl rfl rfl (fun i => ?_) h he
  rw [timedUpTo_get, timedOut_refs, List.getElem?_map]
  by_cases hi : i < k
  · rw [if_pos hi]; exact .inl rfl
  · rw [if_neg hi]; exact .inr rfl

theorem evacuatesWith_of (h : Evacuates (putRecord r.dz (timedUpTo k r) s) z) : EvacuatesWith r s z := by
  obtain ⟨x, hx, c, hm, he⟩ := h
  rcases mem_putRecord.1 hx with ⟨hx, hn⟩ | ⟨-, rfl⟩
  · exact ⟨x, .inr ⟨hx, hn⟩, c, hm, he⟩
  · obtain ⟨c', hm', he'⟩ := timedUpTo_evacuate (t := s.work) (now := s.now) hm he
    exact ⟨timedOut r, .inl rfl, c', hm', he'⟩

theorem Escalating.start (hu : ∀ x ∈ s.acts, x.dz = r.dz → x = r) : Escalating r z 0 s s := by
  have hno : ¬ReachedBy s.work r z 0 := fun ⟨_, _, h, _⟩ => Nat.not_lt_zero _ h
  refine ⟨⟨rfl, rfl, ?_, rfl, rfl⟩, .refl s, fun _ => rfl, fun h => absurd h hno, fun h => absurd h hno,
    fun held hl ho _ => ⟨held, hl, ho, rfl, fun h => absurd h hno⟩, fun h => h⟩
  have hid : ∀ x ∈ s.acts, (if x.dz = r.dz then timedUpTo 0 r else x) = id x := fun x hx => by
    split
    next e => exact (hu x hx e).symm
    · rfl
  exact ((List.map_congr_left hid).trans (List.map_id _)).symm

/-- A reference without a timer changes nothing. -/
theorem Escalating.idle (h : Escalating r z k s t) (hf : ∀ f, r.refs[k]? = some f → f.timer.isSome = false) :
    Escalating r z (k + 1) s t := by
  have hk := timedUpTo_succ_idle hf
  have hr : ReachedBy s.work r z (k + 1) ↔ ReachedBy s.work r z k := by
    constructor
    · rintro ⟨i, f, hi, hfi, ht, hr⟩
      refine ⟨i, f, Nat.lt_of_le_of_ne (Nat.le_of_lt_succ hi) fun e => ?_, hfi, ht, hr⟩
      subst e
      rw [hf f hfi] at ht
      cases ht
    · exact fun ⟨i, f, hi, h⟩ => ⟨i, f, Nat.lt_succ_of_lt hi, h⟩
  obtain ⟨h1, h2, h3, h4, h5, h6, h7⟩ := h
  refine ⟨by rw [hk]; exact h1, h2, by rw [hr]; exact h3, by rw [hr, hk]; exact h4, by rw [hr, hk]; exact h5, ?_, h7⟩
  rw [hr, hk]
  exact h6

theorem recordOf_put {y : ActRecord} (hr : recordOf s r.dz = some r) (hy : y.dz = r.dz)
    (ha : t.acts = (putRecord r.dz y s).acts) : recordOf t r.dz = some y := by
  unfold recordOf at hr ⊢
  have hcomp : ((fun x : ActRecord => x.dz == r.dz) ∘ fun x => if x.dz = r.dz then y else x) =
      fun x => x.dz == r.dz := by
    funext x
    by_cases e : x.dz = r.dz
    · simp [e, hy]
    · simp [e]
  rw [ha]
  show (s.acts.map fun x => if x.dz = r.dz then y else x).find? _ = _
  rw [List.find?_map, hcomp, hr, Option.map_some, if_pos rfl]

theorem putRecord_put {y y' : ActRecord} (hy : y.dz = r.dz) (h : SameGrounds (putRecord r.dz y s) t) :
    SameGrounds (putRecord r.dz y' s) (putRecord r.dz y' t) := by
  refine ⟨h.work, h.now, ?_, h.overflow, h.mode⟩
  show t.acts.map _ = s.acts.map _
  rw [h.acts]
  show (s.acts.map _).map _ = _
  rw [List.map_map]
  refine List.map_congr_left fun x _ => ?_
  show (if (if x.dz = r.dz then y else x).dz = r.dz then y' else if x.dz = r.dz then y else x) = _
  by_cases e : x.dz = r.dz
  · rw [if_pos e, if_pos hy, if_pos e]
  · rw [if_neg e, if_neg e]

/-- The expiry of the next timer. -/
theorem Escalating.step (hr : recordOf s r.dz = some r) (h : Escalating r z k s t) {f : Ref}
    (hf : r.refs[k]? = some f) (ht : f.timer.isSome = true) : Escalating r z (k + 1) s (expire r.dz k t) := by
  have hrec : recordOf t r.dz = some (timedUpTo k r) := recordOf_put hr rfl h.grounds.acts
  have href : (timedUpTo k r).refs[k]? = some f := by rw [timedUpTo_get, if_neg (Nat.lt_irrefl k), hf]
  have hnext : withExpired (timedUpTo k r) k f = timedUpTo (k + 1) r := (timedUpTo_succ hf ht).symm
  have hput : SameGrounds (putRecord r.dz (timedUpTo (k + 1) r) s) (putRecord r.dz (timedUpTo (k + 1) r) t) :=
    putRecord_put (y := timedUpTo k r) rfl h.grounds
  have hgr := expire_grounds hrec href
  rw [hnext] at hgr
  have hwork : t.work = s.work := h.grounds.work
  have hreach : refReaches t.work (timedUpTo k r) f z = refReaches s.work r f z := by
    rw [hwork]
    exact refReaches_congr rfl rfl rfl rfl
  cases hz : refReaches s.work r f z with
  | false =>
    have hel := expire_leaves hrec href (hreach.trans hz)
    rw [hnext] at hel
    have hlist : (expire r.dz k t).lists[z] = t.lists[z] := hel.list
    have hlater : Later t (expire r.dz k t) :=
      Later.trans (t := putRecord r.dz (timedUpTo (k + 1) r) t) (.same rfl rfl) hel.later
    -- the zone sees no change of the merge either
    have hm : mergeClaim s.work s.now (timedUpTo (k + 1) r) z = mergeClaim s.work s.now (timedUpTo k r) z := by
      rw [timedUpTo_succ hf ht]
      refine mergeClaim_set href (effectOf_expired _ f) ?_
      rw [← hwork]
      exact hreach.trans hz
    have hrb : ReachedBy s.work r z (k + 1) ↔ ReachedBy s.work r z k := by
      constructor
      · rintro ⟨i, g, hi, hg, hgt, hreached⟩
        refine ⟨i, g, Nat.lt_of_le_of_ne (Nat.le_of_lt_succ hi) fun e => ?_, hg, hgt, hreached⟩
        subst e
        have e : f = g := Option.some.inj (hf.symm.trans hg)
        exact Bool.false_ne_true (hz.symm.trans (e ▸ hreached))
      · exact fun ⟨i, g, hi, h⟩ => ⟨i, g, Nat.lt_succ_of_lt hi, h⟩
    refine ⟨hput.trans hgr, h.turns.trans (.same hlater hlist), ?_, ?_, ?_, ?_, ?_⟩
    · rw [hrb, hlist]; exact h.away
    · rw [hrb, hm]
      intro hrb c hc
      rcases h.merged hrb c hc with ⟨d, hd, he⟩ | hoff
      · exact .inl ⟨d, by rw [hlist]; exact hd, he⟩
      · exact .inr ((Turns.same (gone := fun _ => false) (new := fun _ => True) (evac := True) hlater hlist).offered
          rfl (mergeClaim_silent hc) hoff)
    · rw [hrb, hm, hlist]; exact h.clear
    · rw [hrb, hm, hlist]; exact h.lone
    · rw [hlist]; exact h.placed
  | true =>
    obtain ⟨a, h1, h2⟩ := expire_visits hrec href (hreach.trans hz)
    rw [hnext] at h1 h2
    have hgs : SameGrounds (putRecord r.dz (timedUpTo (k + 1) r) s) a := hput.trans h1.grounds
    have hmerge : ∀ x, mergeClaim a.work a.now x z = mergeClaim s.work s.now x z := fun x => by
      rw [hgs.work, hgs.now]
      rfl
    have hlist : a.lists[z] = t.lists[z] := h1.list
    have hlater : Later t a := Later.trans (t := putRecord r.dz (timedUpTo (k + 1) r) t) (.same rfl rfl) h1.later
    have hrb : ReachedBy s.work r z (k + 1) := ⟨k, f, Nat.lt_succ_self k, hf, ht, hz⟩
    have hmine : ∀ x ∈ a.acts, x.dz = r.dz → x = timedUpTo (k + 1) r := fun x hx hd => by
      rw [hgs.acts] at hx
      rcases mem_putRecord.1 hx with ⟨-, hn⟩ | ⟨-, e⟩
      · exact absurd hd hn
      · exact e
    have hone : Turns (NewBeside r s z) (EvacuatesWith r s z) (fun d => d.owner == .cause r.dz) z a
        (remerge (timedUpTo (k + 1) r) z a) := by
      refine remerge_turns (fun d hd => ⟨.inl hd, beq_iff_eq.2 hd⟩)
        (fun d hd => newBeside_of ((hgs.brings z d).1 hd)) (fun he => evacuatesWith_of ((hgs.evacuates z).1 he))
        fun c hc he => ?_
      rw [hmerge] at hc
      obtain ⟨c', hm', he'⟩ := timedUpTo_evacuate hc he
      exact ⟨timedOut r, .inl rfl, c', hm', he'⟩
    refine ⟨hput.trans hgr, h.turns.trans ((Turns.same hlater hlist).trans (hone.trans h2.turns)),
      fun hn => absurd hrb hn, fun _ c hc => ?_, fun _ hc => ?_, fun held hl ho hall => ?_, fun hp d hd ho => ?_⟩
    · rcases remerge_merged ((hmerge _).trans hc) with ⟨d, hd, he⟩ | hoff
      · exact .inl ⟨d, by rw [h2.list]; exact hd, he⟩
      · exact .inr (h2.offered hoff)
    · rw [h2.list]
      exact remerge_clear ((hmerge _).trans hc) fun x hx hd => by rw [hmine x hx hd, hmerge]; exact hc
    · obtain ⟨x, hx, hxo, hxp, -⟩ := h.lone held hl ho hall
      obtain ⟨c, hc⟩ := Option.ne_none_iff_exists'.1 (hall (k + 1))
      have hlone := remerge_lone (r := timedUpTo (k + 1) r) (hlist.trans hx) hxo ((hmerge _).trans hc)
      refine ⟨{ c with placed := x.placed }, by rw [h2.list, hlone], (mergeClaim_owner hc).trans rfl, hxp, fun _ c' hc' => ?_⟩
      rw [hc] at hc'
      rw [Option.some.inj hc', hxp]
    · rw [h2.list] at hd
      have hold : ∀ x ∈ a.lists[z], x.owner = .cause r.dz → x.placed = s.now := by
        rw [hlist]; exact h.placed hp
      have hnow : a.now = s.now := hgs.now
      have hturn : Turns (fun d => d.owner = .cause r.dz → d.placed = s.now) True
          (fun d => d.owner == .cause r.dz) z a (remerge (timedUpTo (k + 1) r) z a) := by
        refine remerge_brings (fun d hd => beq_iff_eq.2 hd) (fun c hc _ => (mergeClaim_placed hc).trans hnow)
          (fun c _ held hm hho _ => hold held hm hho) (fun d hb ho => ?_) (fun _ => trivial) fun _ _ _ => trivial
        rcases hb with ⟨x, -, hm⟩ | ⟨-, hov⟩
        · exact (mergeClaim_placed hm).trans hnow
        · rw [hov, overflowClaim_owner] at ho
          cases ho
      rcases hturn.fresh d hd with h' | h'
      · exact hold d h' ho
      · exact h' ho

end

end Sys2Proof.Machine

namespace Sys2Proof.Machine

/-! ## The reports of expiries (R61) -/

/-- A report of an expiry. -/
def isEscalation (x : Report) : Bool :=
  match x.body with
  | .causeEscalated _ _ _ => true
  | _ => false

/-- From `s` to `t` reports have been added, none of an expiry, and none to a full queue. -/
def AddsOther (s t : State) : Prop :=
  ∃ l, t.reports = s.reports ++ l ∧ (∀ x ∈ l, isEscalation x = false) ∧ (Config.reportMax ≤ s.reports.length → l = [])

namespace AddsOther
variable {s t u : State}

theorem same (h : t.reports = s.reports) : AddsOther s t := ⟨[], by rw [h, List.append_nil], nofun, fun _ => rfl⟩

theorem refl (s : State) : AddsOther s s := same rfl

theorem trans (h : AddsOther s t) (g : AddsOther t u) : AddsOther s u := by
  obtain ⟨l, h1, h2, h3⟩ := h
  obtain ⟨m, g1, g2, g3⟩ := g
  refine ⟨l ++ m, by rw [g1, h1, List.append_assoc], fun x hx => ?_, fun hf => ?_⟩
  · exact (List.mem_append.1 hx).elim (h2 x) (g2 x)
  · rw [h3 hf, List.append_nil] at h1
    rw [h3 hf, g3 (h1 ▸ hf), List.append_nil]

theorem foldl {α : Type} (f : State → α → State) (h : ∀ s a, AddsOther s (f s a)) (l : List α) (s : State) :
    AddsOther s (l.foldl f s) := by
  induction l generalizing s with
  | nil => exact refl s
  | cons a l ih => exact (h s a).trans (ih _)

theorem report {b : ReportBody} (hb : isEscalation ⟨b, 0⟩ = false) (s : State) :
    AddsOther s (Machine.report b s) := by
  unfold Machine.report
  split
  next h =>
    exact ⟨[⟨b, s.now⟩], rfl, fun x hx => by rw [List.mem_singleton.1 hx]; exact hb,
      fun hf => absurd h (Nat.not_lt.2 hf)⟩
  · exact same rfl

end AddsOther

theorem beginStep_addsOther (n : Fin 4) (k : Nat) (s : State) : AddsOther s (beginStep n k s) := by
  have hm : ∀ p, AddsOther s (beginMissing n k p s) := fun p =>
    AddsOther.trans (t := setChan n _ { s with phraseMissing := true }) (.same rfl) (.report rfl _)
  unfold beginStep
  split
  · split
    · split
      · exact .same rfl
      · exact hm _
    · exact hm _
  · exact .same rfl
  · exact .refl s

theorem countSource_addsOther (src : Source) (f : Nat → Nat) (s : State) : AddsOther s (countSource src f s) := by
  have start : ∀ n u, AddsOther u (startChan n u) := fun n u =>
    AddsOther.trans (t := setChan n (fun c => { c with owed := 0 }) u) (.same rfl) (beginStep_addsOther n 0 _)
  have chan : ∀ n k, AddsOther s (chanCount n k s) := fun n k => by
    have h1 : AddsOther s (setChan n (fun c => { c with listeners := k }) s) := .same rfl
    unfold chanCount
    dsimp only
    split
    · split
      · split
        · exact h1
        · exact h1.trans (start n _)
      · split
        · exact h1.trans (start n _)
        · exact h1
      · exact h1
    · exact h1
  unfold countSource
  split
  · unfold countCad
    split <;> exact .same rfl
  · unfold countChan
    split
    · exact chan _ _
    · exact .refl s
  · exact .refl s

theorem arbiter_addsOther (s : State) : AddsOther s (arbiter s) := by
  have release : ∀ (k : Fin 2) u, AddsOther u (arbRelease k u) := fun k u => by
    unfold arbRelease
    split
    · split
      · exact .refl u
      · exact AddsOther.trans (t := setServing k none u) (.same rfl) (.report rfl _)
    · exact .refl u
  have assign : ∀ n u, AddsOther u (arbAssign n u) := by
    intro n
    induction n with
    | zero => exact fun u => .refl u
    | succ n ih =>
      intro u
      unfold arbAssign
      split
      next k z _ _ => exact AddsOther.trans (t := setServing k (some z) u) (.same rfl) ((AddsOther.report rfl _).trans (ih _))
      · exact .refl u
  have preempt : ∀ n u, AddsOther u (arbPreempt n u) := by
    intro n
    induction n with
    | zero => exact fun u => .refl u
    | succ n ih =>
      intro u
      unfold arbPreempt
      split
      next w p _ _ =>
        split
        · exact AddsOther.trans (t := setServing p.1 (some w) u) (.same rfl) ((AddsOther.report rfl _).trans (ih _))
        · exact .refl u
      · exact .refl u
  exact (release 0 s).trans ((release 1 _).trans ((assign 2 _).trans (preempt 2 _)))

theorem addsOther_zoneRel : ZoneRel AddsOther where
  list z := {
    refl := .refl
    trans := .trans
    core := fun c s => by
      have hset : ∀ l u, AddsOther u (setList z l u) := fun _ _ => .same rfl
      have hent : ∀ b u, AddsOther u (afterEntry b z u).1 := fun b u => by
        unfold afterEntry
        split
        · exact hset _ u
        · exact .refl u
      unfold offerCore
      dsimp only
      split
      · exact .refl s
      split
      · exact (hset _ s).trans (hent _ _)
      split
      · exact (hset _ s).trans (hent _ _)
      split
      · split
        · exact ((hset _ s).trans (.report rfl _)).trans (hent _ _)
        · exact .report rfl s
      · exact .refl s
    cut := fun _ _ => .same rfl }
  hand z s := by
    have h : ∀ a b o, AddsOther s (listenerChange a b (setOut z o s)) := fun a b o => by
      refine AddsOther.trans (t := setOut z o s) (.same rfl) ?_
      unfold listenerChange
      split
      · exact .refl _
      · exact (countSource_addsOther _ _ _).trans (countSource_addsOther _ _ _)
    unfold handOver
    dsimp only
    split
    · exact (h _ _ _).trans (arbiter_addsOther _)
    · exact h _ _ _
  lock s := .same (updateLock_reports s)

theorem remerge_addsOther (r : ActRecord) (z : Zone) (s : State) : AddsOther s (remerge r z s) := by
  rcases remerge_cases r z s with ⟨c, -, h | ⟨h, -⟩⟩ | ⟨-, h⟩
  · rw [h]; exact addsOther_zoneRel.offer z c s
  · rw [h]; exact .refl s
  · rw [h]; exact addsOther_zoneRel.removal z _ s

/-- The reports that are due for expiries have been queued, in their order, until the queue was full (R206). -/
structure EscalationsTold (due : List Report) (s t : State) : Prop where
  later : s.reports <+: t.reports
  told  : (t.reports.drop s.reports.length).filter isEscalation <+: due
  whole : t.reports.length < 16 → (t.reports.drop s.reports.length).filter isEscalation = due
  full  : 16 ≤ s.reports.length → t.reports.length = s.reports.length

theorem EscalationsTold.refl (s : State) : EscalationsTold [] s s := by
  refine ⟨List.prefix_rfl, ?_, fun _ => ?_, fun _ => rfl⟩ <;> rw [List.drop_length] <;> simp

theorem EscalationsTold.trans {due due' : List Report} {s t u : State} (h : EscalationsTold due s t)
    (g : EscalationsTold due' t u) : EscalationsTold (due ++ due') s u := by
  have hlen := h.later.length_le
  have hlater := h.later.trans g.later
  have hfull : 16 ≤ s.reports.length → u.reports.length = s.reports.length := fun hf => by
    rw [g.full (by rw [h.full hf]; exact hf), h.full hf]
  have hf : (u.reports.drop s.reports.length).filter isEscalation =
      (t.reports.drop s.reports.length).filter isEscalation ++
        (u.reports.drop t.reports.length).filter isEscalation := by
    obtain ⟨m, hm⟩ := g.later
    rw [← List.filter_append, ← hm, List.drop_append_of_le_length hlen, List.drop_left]
  by_cases hr : t.reports.length < 16
  · rw [h.whole hr] at hf
    refine ⟨hlater, ?_, fun hu => ?_, hfull⟩
    · rw [hf]
      exact (List.prefix_append_right_inj due).2 g.told
    · rw [hf, g.whole hu]
  · have hstay := g.full (Nat.le_of_not_lt hr)
    rw [List.drop_eq_nil_of_le (Nat.le_of_eq hstay), List.filter_nil, List.append_nil] at hf
    refine ⟨hlater, ?_, fun hu => absurd (hstay ▸ hu) hr, hfull⟩
    rw [hf]
    exact h.told.trans (List.prefix_append _ _)

theorem AddsOther.told {s t : State} (h : AddsOther s t) : EscalationsTold [] s t := by
  obtain ⟨l, h1, h2, h3⟩ := h
  have hnil : (t.reports.drop s.reports.length).filter isEscalation = [] := by
    rw [h1, List.drop_left, List.filter_eq_nil_iff]
    exact fun x hx => by rw [h2 x hx]; exact Bool.false_ne_true
  refine ⟨h1 ▸ List.prefix_append _ _, by rw [hnil], fun _ => hnil, fun hf => ?_⟩
  rw [h1, h3 hf, List.append_nil]

theorem report_escalationsTold (dz i j : Nat) (s : State) :
    EscalationsTold [⟨.causeEscalated dz i j, s.now⟩] s (report (.causeEscalated dz i j) s) := by
  unfold report
  split
  next h =>
    have hd : ((s.reports ++ [(⟨.causeEscalated dz i j, s.now⟩ : Report)]).drop s.reports.length).filter isEscalation =
        [⟨.causeEscalated dz i j, s.now⟩] := by
      rw [List.drop_left]
      rfl
    exact ⟨List.prefix_append _ _, by rw [hd], fun _ => hd, fun hf => absurd h (Nat.not_lt.2 hf)⟩
  next h =>
    have hd : ((s.reports.drop s.reports.length).filter isEscalation) = [] := by rw [List.drop_length]; rfl
    exact ⟨List.prefix_rfl, by rw [hd]; exact List.nil_prefix, fun hlt => absurd hlt h, fun _ => rfl⟩

/-- The reports that are due for the stage timers of a record. -/
def escalationsOf (now : Nat) (r : ActRecord) : List Report :=
  (r.refs.filter fun f => f.timer.isSome).map fun f => ⟨.causeEscalated r.dz f.entry f.effect, now⟩

theorem expire_told {dz i : Nat} {r : ActRecord} {f : Ref} {s : State} (hr : recordOf s dz = some r)
    (hf : r.refs[i]? = some f) :
    EscalationsTold [⟨.causeEscalated dz f.entry f.effect, s.now⟩] s (expire dz i s) := by
  rw [expire_eq hr hf]
  have h1 : AddsOther s ((zonesReached s.work (withExpired r i f) f).foldl
      (fun t z => remerge (withExpired r i f) z t) (putRecord dz (withExpired r i f) s)) :=
    AddsOther.trans (t := putRecord dz (withExpired r i f) s) (.same rfl)
      (AddsOther.foldl (fun t z => remerge (withExpired r i f) z t) (fun t z => remerge_addsOther _ z t) _ _)
  have h2 := report_escalationsTold dz f.entry f.effect ((zonesReached s.work (withExpired r i f) f).foldl
      (fun t z => remerge (withExpired r i f) z t) (putRecord dz (withExpired r i f) s))
  have hnow := (OnlyZones.foldl (fun t z => remerge (withExpired r i f) z t) (fun t z => remerge_onlyZones _ z t)
    (zonesReached s.work (withExpired r i f) f) (putRecord dz (withExpired r i f) s)).grounds.now
  rw [show _ = s.now from hnow] at h2
  exact h1.told.trans h2

/-- The positions of the stage timers among the first `n` references. -/
def timedWithin (r : ActRecord) (n : Nat) : List Nat :=
  (List.range n).filter fun i => (r.refs[i]?.map fun f => f.timer.isSome).getD false

theorem timedWithin_succ (r : ActRecord) (n : Nat) :
    timedWithin r (n + 1) = timedWithin r n ++
      if (r.refs[n]?.map fun f => f.timer.isSome).getD false = true then [n] else [] := by
  unfold timedWithin
  rw [List.range_succ, List.filter_append, List.filter_singleton]
  cases (r.refs[n]?.map fun f => f.timer.isSome).getD false <;> rfl

theorem timedRefs_eq (r : ActRecord) : timedRefs r = timedWithin r r.refs.length := by
  unfold timedRefs timedWithin
  refine List.filter_congr fun i _ => ?_
  cases r.refs[i]? <;> rfl

/-- The stage timers among the first `n` references of a record expire in list order (R61, R63). -/
theorem expiries_escalate {r : ActRecord} {s : State} (hr : recordOf s r.dz = some r)
    (hu : ∀ x ∈ s.acts, x.dz = r.dz → x = r) (n : Nat) :
    (∀ z, Escalating r z n s ((timedWithin r n).foldl (fun t i => expire r.dz i t) s)) ∧
      EscalationsTold (escalationsOf s.now { r with refs := r.refs.take n }) s
        ((timedWithin r n).foldl (fun t i => expire r.dz i t) s) := by
  induction n with
  | zero => exact ⟨fun _ => .start hu, .refl s⟩
  | succ n ih =>
    obtain ⟨ih1, ih2⟩ := ih
    have hnext : escalationsOf s.now { r with refs := r.refs.take (n + 1) } =
        escalationsOf s.now { r with refs := r.refs.take n } ++
          (r.refs[n]?.toList.filter fun f => f.timer.isSome).map fun f =>
            ⟨.causeEscalated r.dz f.entry f.effect, s.now⟩ := by
      unfold escalationsOf
      dsimp only
      rw [List.take_add_one, List.filter_append, List.map_append]
    rw [timedWithin_succ, hnext, List.foldl_append]
    cases hf : r.refs[n]? with
    | none =>
      refine ⟨fun z => (ih1 z).idle fun f h => ?_, ?_⟩
      · rw [hf] at h; cases h
      · exact ih2.trans (.refl _)
    | some f =>
      rw [Option.map_some, Option.getD_some, Option.toList_some, List.filter_singleton]
      cases ht : f.timer.isSome with
      | false =>
        refine ⟨fun z => (ih1 z).idle fun g h => ?_, ih2.trans (.refl _)⟩
        rw [hf] at h
        rw [← Option.some.inj h]
        exact ht
      | true =>
        have hz : Zone := ⟨0, by decide⟩
        have hg := (ih1 hz).grounds
        have hrec := recordOf_put (y := timedUpTo n r) hr rfl hg.acts
        have href : (timedUpTo n r).refs[n]? = some f := by rw [timedUpTo_get, if_neg (Nat.lt_irrefl n), hf]
        have htold := expire_told hrec href
        rw [show _ = s.now from hg.now] at htold
        exact ⟨fun z => (ih1 z).step hr hf ht, ih2.trans htold⟩

/-- Every stage timer of a record expires (R63). -/
theorem expireRecord_escalates {r : ActRecord} {s : State} (hr : recordOf s r.dz = some r)
    (hu : ∀ x ∈ s.acts, x.dz = r.dz → x = r) :
    (∀ z, Escalating r z r.refs.length s (expireRecord r.dz s)) ∧
      EscalationsTold (escalationsOf s.now r) s (expireRecord r.dz s) := by
  have h := expiries_escalate hr hu r.refs.length
  have he : expireRecord r.dz s = (timedWithin r r.refs.length).foldl (fun t i => expire r.dz i t) s := by
    unfold expireRecord
    rw [hr]
    dsimp only
    rw [timedRefs_eq]
  rw [List.take_length] at h
  rw [he]
  exact h

theorem expireRecord_none {s : State} {dz : Nat} (hr : recordOf s dz = none) : expireRecord dz s = s := by
  unfold expireRecord
  rw [hr]

end Sys2Proof.Machine

namespace Sys2Proof.Machine

/-! ## Every stage timer of several records (R63, R64, R70) -/

/-- A record of the list after those of `L` had their stage timers expired. -/
def expiredAmong (L : List ActRecord) (x : ActRecord) : ActRecord :=
  if L.any (fun r => r.dz == x.dz) = true then timedOut x else x

/-- From `s` to `t` the stage timers of the records `L` have expired one record after another, as far as zone `z`
sees it. -/
structure EscalatingAll (L : List ActRecord) (z : Zone) (s t : State) : Prop where
  grounds : SameGrounds { s with acts := s.acts.map (expiredAmong L) } t
  turns   : Turns (fun d => (∃ r ∈ L, d.owner = .cause r.dz) ∨
      (∃ x ∈ s.acts, (∀ r ∈ L, r.dz ≠ x.dz) ∧ mergeClaim s.work s.now x z = some d) ∨
      (claimCondition s = true ∧ d = overflowClaim s))
    (∃ x ∈ s.acts, ∃ c, mergeClaim s.work s.now (expiredAmong L x) z = some c ∧ c.stage = some .evacuate)
    (fun d => L.any fun r => d.owner == .cause r.dz) z s t
  away    : (∀ r ∈ L, ¬TimerReaches s.work r z) → t.lists[z] = s.lists[z]
  merged  : ∀ r ∈ L, TimerReaches s.work r z → ∀ c, mergeClaim s.work s.now (timedOut r) z = some c →
    (∃ d ∈ t.lists[z], d = { c with placed := d.placed }) ∨ Offered z c t
  clear   : ∀ r ∈ L, TimerReaches s.work r z → mergeClaim s.work s.now (timedOut r) z = none →
    ∀ d ∈ t.lists[z], d.owner ≠ .cause r.dz
  lone    : ∀ r ∈ L, ∀ held c : Claim, TimerReaches s.work r z →
    (∀ x ∈ L, x.dz ≠ r.dz → ¬TimerReaches s.work x z) → s.lists[z] = [held] → held.owner = .cause r.dz →
    (∀ k, mergeClaim s.work s.now (timedUpTo k r) z ≠ none) →
    mergeClaim s.work s.now (timedOut r) z = some c → t.lists[z] = [{ c with placed := held.placed }]

section
variable {L : List ActRecord} {z : Zone} {s t : State} {r : ActRecord}

theorem expiredAmong_dz (L : List ActRecord) (x : ActRecord) : (expiredAmong L x).dz = x.dz := by
  unfold expiredAmong
  split <;> rfl

theorem expiredAmong_append {x : ActRecord} (h : x.dz ≠ r.dz) : expiredAmong (L ++ [r]) x = expiredAmong L x := by
  unfold expiredAmong
  rw [List.any_append, List.any_cons, List.any_nil, Bool.or_false,
    show (r.dz == x.dz) = false from beq_eq_false_iff_ne.2 (Ne.symm h),
    Bool.or_false]

theorem expiredAmong_last : expiredAmong (L ++ [r]) r = timedOut r := by
  unfold expiredAmong
  rw [if_pos (by simp)]

theorem expiredAmong_none (h : ∀ x ∈ L, x.dz ≠ r.dz) : expiredAmong L r = r := by
  unfold expiredAmong
  rw [if_neg (by simpa using h)]

/-- A merge at EVACUATE stage stays so as further timers expire. -/
theorem timedOut_evacuate {w : Tables} {now : Nat} {c : Claim} (h : mergeClaim w now r z = some c)
    (he : c.stage = some .evacuate) :
    ∃ c', mergeClaim w now (timedOut r) z = some c' ∧ c'.stage = some .evacuate :=
  timedUpTo_evacuate (k := 0) h he

theorem EscalatingAll.start (s : State) (z : Zone) : EscalatingAll [] z s s := by
  refine ⟨⟨rfl, rfl, ?_, rfl, rfl⟩, .refl s, fun _ => rfl, nofun, nofun, nofun⟩
  exact (List.map_id _).symm

theorem EscalatingAll.records (h : EscalatingAll L z s t) : t.acts = s.acts.map (expiredAmong L) := h.grounds.acts

/-- The record next in line stands as it did. -/
theorem EscalatingAll.next (h : EscalatingAll L z s t) (hd : s.acts.Pairwise fun a b => a.dz ≠ b.dz) (hr : r ∈ s.acts)
    (hn : ∀ x ∈ L, x.dz ≠ r.dz) : recordOf t r.dz = some r ∧ ∀ x ∈ t.acts, x.dz = r.dz → x = r := by
  have huniq : ∀ x ∈ t.acts, x.dz = r.dz → x = r := by
    intro x hx e
    rw [h.records] at hx
    obtain ⟨y, hy, rfl⟩ := List.mem_map.1 hx
    rw [expiredAmong_dz] at e
    rw [records_unique hd hy hr e]
    exact expiredAmong_none hn
  refine ⟨?_, huniq⟩
  have hmem : r ∈ t.acts := by
    rw [h.records]
    exact List.mem_map.2 ⟨r, hr, expiredAmong_none hn⟩
  cases hrec : recordOf t r.dz with
  | none =>
    have := List.find?_eq_none.1 hrec r hmem
    simp at this
  | some x => rw [huniq x (recordOf_mem hrec) (recordOf_dz hrec)]

/-- A claim that stood or was displaced does so after further claims have come and gone. -/
theorem Turns.settled {new : Claim → Prop} {evac : Prop} {gone : Claim → Bool} {u : State} {c : Claim}
    (h : Turns new evac gone z t u) (hg : ∀ d : Claim, d.owner = c.owner → gone d = false)
    (hs : ∀ k, c.owner ≠ .silence k)
    (hc : (∃ d ∈ t.lists[z], d = { c with placed := d.placed }) ∨ Offered z c t) :
    (∃ d ∈ u.lists[z], d = { c with placed := d.placed }) ∨ Offered z c u := by
  rcases hc with ⟨d, hd, he⟩ | ho
  · have hown : d.owner = c.owner := by rw [he]
    have hprio : d.prio = c.prio := by rw [he]
    rcases h.kept d hd (hg d hown) with h1 | h1 | ⟨⟨k, hk⟩, -⟩
    · exact .inl ⟨d, h1, he⟩
    · rw [hown, hprio] at h1
      exact .inr (.inr (.inl h1))
    · exact absurd (hown ▸ hk) (hs k)
  · exact .inr (h.offered (hg c rfl) hs ho)

/-- The next record's stage timers expire. -/
theorem EscalatingAll.step {u : State} (h : EscalatingAll L z s t) (hd : s.acts.Pairwise fun a b => a.dz ≠ b.dz)
    (hL : ∀ x ∈ L, x ∈ s.acts) (hr : r ∈ s.acts) (hn : ∀ x ∈ L, x.dz ≠ r.dz)
    (g : Escalating r z r.refs.length t u) : EscalatingAll (L ++ [r]) z s u := by
  have hall : timedUpTo r.refs.length r = timedOut r := timedUpTo_all (Nat.le_refl _)
  have hwork : t.work = s.work := h.grounds.work
  have hnow : t.now = s.now := h.grounds.now
  have hcond : claimCondition t = claimCondition s := by
    refine h.grounds.condition.trans ?_
    unfold claimCondition
    dsimp only
    rw [List.isEmpty_map]
  obtain ⟨ggr, gturns, gaway, gmerged, gclear, glone, -⟩ := g
  simp only [reachedBy_all, hwork, hnow, hall] at gaway gmerged gclear glone
  have hother : ∀ x ∈ L, ∀ d : Claim, d.owner = .cause x.dz → (d.owner == Owner.cause r.dz) = false := by
    intro x hx d ho
    rw [ho]
    exact beq_eq_false_iff_ne.2 fun e => hn x hx (Owner.cause.inj e)
  have hmem : ∀ x, x ∈ L ++ [r] ↔ x ∈ L ∨ x = r := fun x => by simp
  -- a record of `t` other than this one
  have horigin : ∀ x ∈ t.acts, ∃ y ∈ s.acts, x = expiredAmong L y ∧ y.dz = x.dz := by
    intro x hx
    rw [h.records] at hx
    obtain ⟨y, hy, rfl⟩ := List.mem_map.1 hx
    exact ⟨y, hy, rfl, (expiredAmong_dz L y).symm⟩
  refine ⟨⟨?_, ?_, ?_, ?_, ?_⟩, ?_, fun ha => ?_, fun x hx hrx c hc => ?_, fun x hx hrx hc d hdu ho => ?_,
    fun x hx held c hrx hay hl ho hk hc => ?_⟩
  · exact ggr.work.trans h.grounds.work
  · exact ggr.now.trans h.grounds.now
  · rw [ggr.acts]
    show t.acts.map _ = s.acts.map _
    rw [h.records, List.map_map]
    refine List.map_congr_left fun x hx => ?_
    show (if (expiredAmong L x).dz = r.dz then timedUpTo r.refs.length r else expiredAmong L x) = _
    rw [expiredAmong_dz]
    by_cases e : x.dz = r.dz
    · rw [if_pos e, records_unique hd hx hr e, expiredAmong_last, hall]
    · rw [if_neg e, expiredAmong_append e]
  · exact ggr.overflow.trans h.grounds.overflow
  · exact ggr.mode.trans h.grounds.mode
  · refine (h.turns.mono (fun d hd' => ?_) (fun he => ?_) fun d hg => ?_).trans
      (gturns.mono (fun d hd' => ?_) (fun he => ?_) fun d hg => ?_)
    · rcases hd' with ⟨x, hx, ho⟩ | ⟨x, hx, hnx, hm⟩ | hov
      · exact .inl ⟨x, (hmem x).2 (.inl hx), ho⟩
      · by_cases e : x.dz = r.dz
        · exact .inl ⟨r, (hmem r).2 (.inr rfl), e ▸ mergeClaim_owner hm⟩
        · refine .inr (.inl ⟨x, hx, fun y hy => ?_, hm⟩)
          rcases (hmem y).1 hy with hy | rfl
          · exact hnx y hy
          · exact Ne.symm e
      · exact .inr (.inr hov)
    · obtain ⟨x, hx, c, hm, hc⟩ := he
      by_cases e : x.dz = r.dz
      · rw [records_unique hd hx hr e, expiredAmong_none hn] at hm
        obtain ⟨c', hm', hc'⟩ := timedOut_evacuate hm hc
        exact ⟨r, hr, c', by rw [expiredAmong_last]; exact hm', hc'⟩
      · exact ⟨x, hx, c, by rw [expiredAmong_append e]; exact hm, hc⟩
    · rw [List.any_append, hg, Bool.true_or]
    · rcases hd' with ho | ⟨x, hx, hnx, hm⟩ | ⟨hc, hov⟩
      · exact .inl ⟨r, (hmem r).2 (.inr rfl), ho⟩
      · rw [hwork, hnow] at hm
        obtain ⟨y, hy, rfl, e⟩ := horigin x hx
        by_cases hin : ∃ v ∈ L, v.dz = y.dz
        · obtain ⟨v, hv, hvy⟩ := hin
          refine .inl ⟨v, (hmem v).2 (.inl hv), ?_⟩
          rw [mergeClaim_owner hm, expiredAmong_dz, hvy]
        · have hfree : ∀ v ∈ L, v.dz ≠ y.dz := fun v hv e => hin ⟨v, hv, e⟩
          rw [expiredAmong_none hfree] at hm hnx
          refine .inr (.inl ⟨y, hy, fun v hv => ?_, hm⟩)
          rcases (hmem v).1 hv with hv | rfl
          · exact hfree v hv
          · exact Ne.symm hnx
      · exact .inr (.inr ⟨hcond ▸ hc, hov.trans (overflowClaim_eq hwork hnow)⟩)
    · obtain ⟨x, hx, c, hm, hc⟩ := he
      rw [hwork, hnow] at hm
      rcases hx with rfl | ⟨hx, hnx⟩
      · exact ⟨r, hr, c, by rw [expiredAmong_last]; exact hm, hc⟩
      · obtain ⟨y, hy, rfl, e⟩ := horigin x hx
        exact ⟨y, hy, c, by rw [expiredAmong_append (e ▸ hnx)]; exact hm, hc⟩
    · rw [List.any_append, List.any_cons, List.any_nil, hg, Bool.true_or, Bool.or_true]
  · rw [gaway (ha r ((hmem r).2 (.inr rfl)))]
    exact h.away fun x hx => ha x ((hmem x).2 (.inl hx))
  · rcases (hmem x).1 hx with hx | rfl
    · refine gturns.settled (fun d ho => hother x hx d ?_) (fun k e => ?_) (h.merged x hx hrx c hc)
      · exact ho.trans ((mergeClaim_owner hc).trans rfl)
      · rw [mergeClaim_owner hc] at e
        cases e
    · exact gmerged hrx c hc
  · rcases (hmem x).1 hx with hx | rfl
    · rcases gturns.fresh d hdu with h1 | h1 | ⟨y, hy, -, hm⟩ | ⟨-, hov⟩
      · exact h.clear x hx hrx hc d h1 ho
      · exact Bool.false_ne_true ((hother x hx d ho).symm.trans (beq_iff_eq.2 h1))
      · obtain ⟨v, hv, rfl, e⟩ := horigin y hy
        rw [hwork, hnow] at hm
        have hdz := mergeClaim_owner hm
        rw [ho, expiredAmong_dz] at hdz
        have hvx := records_unique hd hv (hL x hx) (Owner.cause.inj hdz).symm
        rw [hvx, show expiredAmong L x = timedOut x from if_pos (by simpa using ⟨x, hx, rfl⟩), hc] at hm
        cases hm
      · rw [hov, overflowClaim_owner] at ho
        cases ho
    · exact gclear hrx hc d hdu ho
  · rcases (hmem x).1 hx with hx | rfl
    · rw [gaway (hay r ((hmem r).2 (.inr rfl)) (Ne.symm (hn x hx)))]
      exact h.lone x hx held c hrx (fun y hy => hay y ((hmem y).2 (.inl hy))) hl ho hk hc
    · have hsame := h.away fun y hy => hay y ((hmem y).2 (.inl hy)) (hn y hy)
      obtain ⟨d, hd1, -, -, hd4⟩ := glone held (hsame.trans hl) ho hk
      rw [hd1, hd4 hrx c hc]

/-- The stage timers of records one after another. -/
theorem expireRecords_escalate (hd : s.acts.Pairwise fun a b => a.dz ≠ b.dz) :
    ∀ M : List ActRecord, (∀ x ∈ M, x ∈ s.acts) → (M.Pairwise fun a b => a.dz ≠ b.dz) →
      (∀ z, EscalatingAll M z s ((M.map fun r => r.dz).foldl (fun t dz => expireRecord dz t) s)) ∧
        EscalationsTold (M.flatMap (escalationsOf s.now)) s
          ((M.map fun r => r.dz).foldl (fun t dz => expireRecord dz t) s) := by
  intro M
  induction M using List.reverseRecOn with
  | nil => exact fun _ _ => ⟨.start s, .refl s⟩
  | append_singleton L r ih =>
    intro hM hp
    obtain ⟨hpL, -, hlast⟩ := List.pairwise_append.1 hp
    have hn : ∀ x ∈ L, x.dz ≠ r.dz := fun x hx => hlast x hx r (List.mem_singleton_self r)
    have hL : ∀ x ∈ L, x ∈ s.acts := fun x hx => hM x (List.mem_append_left _ hx)
    have hr : r ∈ s.acts := hM r (List.mem_append_right _ (List.mem_singleton_self r))
    obtain ⟨ih1, ih2⟩ := ih hL hpL
    rw [List.map_append, List.foldl_append, List.flatMap_append, List.map_cons, List.map_nil, List.foldl_cons,
      List.foldl_nil, List.flatMap_cons, List.flatMap_nil, List.append_nil]
    have hz : Zone := ⟨0, by decide⟩
    obtain ⟨hrec, huniq⟩ := (ih1 hz).next hd hr hn
    obtain ⟨h1, h2⟩ := expireRecord_escalates hrec huniq
    rw [show _ = s.now from (ih1 hz).grounds.now] at h2
    exact ⟨fun z => (ih1 z).step hd hL hr hn (h1 z), ih2.trans h2⟩

end

end Sys2Proof.Machine

namespace Sys2Proof.Machine

/-! ## ESCALATE NOW, ISOLATION ESCALATION and the hold flag (R60–R67, R70) -/

section
variable {M : List ActRecord} {s a t u : State}

/-- What expiries leave of the claims and the reports. -/
theorem escalated_of (h : SameClaims s a) (hr : a.reports = s.reports)
    (hz : ∀ z, EscalatingAll M z a t) (ht : EscalationsTold (M.flatMap (escalationsOf a.now)) a t)
    (hu : ∀ z, Elsewhere z t u) (hur : u.reports = t.reports) : Escalated M s u := by
  have hwork := h.grounds.work
  have hnow := h.grounds.now
  have hl : ∀ z : Zone, a.lists[z] = s.lists[z] := fun z => by rw [h.lists]
  have hz : ∀ z, EscalatingAll M z a t := hz
  have hlater : ∀ z, Later t u := fun z => (hu z).later
  refine ⟨fun z ha => ?_, fun r hr z hrz => ⟨fun c hc => ?_, fun hc => ?_⟩, fun r hr z held c hrz hx hheld ho hk hc => ?_,
    fun r hr z d hd ho he hq => ?_, ?_, fun z => ⟨fun d hd hm => ?_, fun d hd hm => ?_⟩⟩
  · rw [(hu z).list, (hz z).away (fun r hr => by rw [hwork]; exact ha r hr), hl]
  · rw [← hwork, ← hnow] at hc
    rcases (hz z).merged r hr (by rw [hwork]; exact hrz) c hc with ⟨d, hd, he⟩ | ho
    · exact .inl ⟨d, by rw [(hu z).list]; exact hd, he⟩
    · exact .inr ((hu z).offered ho)
  · rw [← hwork, ← hnow] at hc
    rw [(hu z).list]
    exact (hz z).clear r hr (by rw [hwork]; exact hrz) hc
  · rw [(hu z).list]
    refine (hz z).lone r hr held c (by rw [hwork]; exact hrz) (fun x hxM hd => ?_) ((hl z).trans hheld) ho
      (fun k => ?_) ?_
    · rw [hwork]
      exact hx x hxM hd
    · rw [hwork, hnow]
      exact hk k
    · rw [hwork, hnow]
      exact hc
  · have hcalm := (hz z).turns.calm r.dz (.inl fun h hh ho => hq h (hl z ▸ hh) ho)
    rw [(hu z).list] at hd ⊢
    rcases hcalm with h1 | h1
    · exact absurd he (h1 d hd ho)
    · intro e he' k hk
      exact Bool.false_ne_true ((h1 e he').symm.trans ((isSilence_iff e).2 ⟨k, hk⟩))
  · rw [hnow] at ht
    intro due told
    have hdrop : told = (t.reports.drop a.reports.length).filter isEscalation := by
      rw [hr, ← hur]
      rfl
    rw [hdrop, hur, ← hr]
    exact ⟨ht.later, ht.told, ht.whole⟩
  · rcases (hz z).turns.kept d ((hl z).symm ▸ hd) hm with h1 | h1 | ⟨hs, x, hx, c, hmc, hc⟩
    · exact .inl (by rw [(hu z).list]; exact h1)
    · exact .inr (.inl (h1.later (hu z).later))
    · rw [hwork, hnow] at hmc
      exact .inr (.inr ⟨hs, expiredAmong M x, by
        rw [(hu z).grounds.acts, (hz z).records]
        exact List.mem_map.2 ⟨x, hx, rfl⟩, c, hmc, hc⟩)
  · rw [(hu z).list] at hd
    rcases (hz z).turns.fresh d hd with h1 | ⟨x, hx, ho⟩ | ⟨x, hx, hn, hmc⟩ | ⟨hc, hov⟩
    · exact .inl (hl z ▸ h1)
    · have : (M.any fun r => d.owner == .cause r.dz) = true := by simpa using ⟨x, hx, ho⟩
      rw [hm] at this
      cases this
    · rw [hwork, hnow] at hmc
      refine .inr (.inl ⟨x, ?_, hmc⟩)
      rw [(hu z).grounds.acts, (hz z).records]
      exact List.mem_map.2 ⟨x, hx, expiredAmong_none hn⟩
    · refine .inr (.inr ⟨hov.trans (overflowClaim_eq hwork hnow), ?_⟩)
      have hcu : claimCondition u = true := by
        rw [(hu z).grounds.condition, (hz z).grounds.condition, ← hc]
        unfold claimCondition
        dsimp only
        rw [List.isEmpty_map]
      exact (claimCondition_iff u).1 hcu

/-- The records that ESCALATE NOW names. -/
theorem records_filter {dz : Nat} : ∀ {l : List ActRecord}, (l.Pairwise fun a b => a.dz ≠ b.dz) →
    (l.filter fun x => x.dz == dz) = (l.find? fun x => x.dz == dz).toList
  | [], _ => rfl
  | r :: l, h => by
    obtain ⟨hn, hl⟩ := List.pairwise_cons.1 h
    by_cases e : r.dz = dz
    · have hb : (r.dz == dz) = true := beq_iff_eq.2 e
      rw [List.filter_cons_of_pos (by exact hb), List.find?_cons_of_pos (by exact hb), Option.toList_some]
      refine congrArg (r :: ·) (List.filter_eq_nil_iff.2 fun x hx hd => hn x hx ?_)
      rw [e, beq_iff_eq.1 hd]
    · have hb : ¬(r.dz == dz) = true := fun h => e (beq_iff_eq.1 h)
      rw [List.filter_cons_of_neg (by exact hb), List.find?_cons_of_neg (by exact hb), records_filter hl]

/-- ESCALATE NOW, as one record among several. -/
theorem expireRecord_all {dz : Nat} (hd : s.acts.Pairwise fun a b => a.dz ≠ b.dz)
    (hM : M = s.acts.filter fun x => x.dz == dz) :
    (∀ z, EscalatingAll M z s (expireRecord dz s)) ∧
      EscalationsTold (M.flatMap (escalationsOf s.now)) s (expireRecord dz s) := by
  have h := expireRecords_escalate hd M (fun x hx => (List.mem_filter.1 (hM ▸ hx)).1) (hM ▸ hd.filter _)
  have hfold : (M.map fun r => r.dz).foldl (fun t dz => expireRecord dz t) s = expireRecord dz s := by
    rw [hM, records_filter hd]
    cases hr : s.acts.find? fun x => x.dz == dz with
    | none => exact (expireRecord_none hr).symm
    | some r =>
      have hdz : r.dz = dz := recordOf_dz hr
      rw [← hdz]
      rfl
  rw [hfold] at h
  exact h

theorem expiredAmong_named {dz : Nat} {x : ActRecord} (hx : x ∈ s.acts) :
    expiredAmong (s.acts.filter fun x => x.dz == dz) x = if x.dz = dz then timedOut x else x := by
  by_cases e : x.dz = dz
  · rw [if_pos e]
    exact if_pos (List.any_eq_true.2 ⟨x, List.mem_filter.2 ⟨hx, by exact beq_iff_eq.2 e⟩, beq_self_eq_true x.dz⟩)
  · rw [if_neg e]
    refine expiredAmong_none fun r hr hd => e ?_
    rw [← hd]
    simpa using (List.mem_filter.1 hr).2

theorem expiredAmong_every {x : ActRecord} (hx : x ∈ s.acts) : expiredAmong s.acts x = timedOut x :=
  if_pos (List.any_eq_true.2 ⟨x, hx, beq_self_eq_true x.dz⟩)

/-- What the expiry of every timer leaves. -/
theorem expireEverything_escalated (h : SameClaims s a) (hr : a.reports = s.reports) (hd : RecordsOk s)
    (hu : ∀ z, Elsewhere z (expireEverything a) u) (hur : u.reports = (expireEverything a).reports) :
    u.overflow = a.overflow ∧ u.acts = s.acts.map timedOut ∧ Escalated s.acts s u := by
  have ha := h.grounds.acts
  have hpair : a.acts.Pairwise fun a b => a.dz ≠ b.dz := ha ▸ hd.2.1
  obtain ⟨hz, ht⟩ := expireRecords_escalate hpair s.acts (fun x hx => ha ▸ hx) hd.2.1
  have he : expireEverything a = (s.acts.map fun r => r.dz).foldl (fun t dz => expireRecord dz t) a := by
    unfold expireEverything
    rw [ha]
  rw [← he] at hz ht
  have hz0 : Zone := ⟨0, by decide⟩
  refine ⟨(hu hz0).grounds.overflow.trans (hz hz0).grounds.overflow, ?_, escalated_of h hr hz ht hu hur⟩
  rw [(hu hz0).grounds.acts, (hz hz0).records, ha]
  exact List.map_congr_left fun x hx => expiredAmong_every hx

/-- What the expiry of a record's timers leaves. -/
theorem expireRecord_escalated {dz : Nat} (h : SameClaims s a) (hr : a.reports = s.reports) (hd : RecordsOk s)
    (hu : ∀ z, Elsewhere z (expireRecord dz a) u) (hur : u.reports = (expireRecord dz a).reports) :
    u.overflow = a.overflow ∧ u.acts = (s.acts.map fun x => if x.dz = dz then timedOut x else x) ∧
      Escalated (s.acts.filter fun x => x.dz == dz) s u := by
  have ha := h.grounds.acts
  have hpair : a.acts.Pairwise fun a b => a.dz ≠ b.dz := ha ▸ hd.2.1
  obtain ⟨hz, ht⟩ := expireRecord_all (dz := dz) hpair rfl
  rw [ha] at hz ht
  have hz0 : Zone := ⟨0, by decide⟩
  refine ⟨(hu hz0).grounds.overflow.trans (hz hz0).grounds.overflow, ?_,
    escalated_of h hr hz ht hu hur⟩
  rw [(hu hz0).grounds.acts, (hz hz0).records, ha]
  exact List.map_congr_left fun x hx => expiredAmong_named hx

end

/-- Settles O41: the timers expire record by record and reference by reference. -/
theorem timersEscalatedAndHeld : Obligations.TimersEscalatedAndHeld := by
  unfold Obligations.TimersEscalatedAndHeld
  intro kept
  refine ⟨fun s q dz h hr => ⟨fun hdz => zoneCommand_refused h hdz, fun hdz hn => ?_, fun hdz => ?_⟩,
    fun s q h hr => ?_, fun s hp hring hiso hr => ?_, fun s q h => ?_, fun s q h => ?_⟩
  · exact (zoneCommand_done h hdz (expireRecord_none (s := inHand 1 s) hn)).trans rfl
  · obtain ⟨ho, ha, he⟩ := expireRecord_escalated (dz := dz) (.inHand 1 s) rfl hr
      (fun z => .released z (expireRecord dz (inHand 1 s))) rfl
    exact ⟨_, zoneCommand_done h hdz rfl, (expireRecord_onlyCauses dz (inHand 1 s)).released, ho, ha, he⟩
  · obtain ⟨ho, ha, he⟩ := expireEverything_escalated (.inHand 1 s) rfl hr
      (fun z => .released z (expireEverything (inHand 1 s))) rfl
    exact ⟨_, (commandWith_replies (extra := noExtra) (own := oneReply) (f := expireEverything) h rfl).trans rfl,
      (expireEverything_onlyCauses (inHand 1 s)).released, ho, ha, he⟩
  · have hsame : SameClaims s { s with isoTimer := none, isoEscalated := true } := ⟨⟨rfl, rfl, rfl, rfl, rfl⟩, rfl⟩
    obtain ⟨ho, ha, he⟩ := expireEverything_escalated hsame rfl hr (fun z => .refl z _) rfl
    refine ⟨_, whenever_leaves (o := execIsolationEscalation s) rfl ?_ rfl, expireEverything_onlyCauses _, ho, ha, he⟩
    unfold State.running
    rw [hring, hiso, hp]
    rfl
  · exact (commandWith_replies (extra := noExtra) (own := oneReply)
      (f := fun s => { keepTimers s with hold := true }) h rfl).trans rfl
  · exact (commandWith_replies (extra := noExtra) (own := oneReply) (f := fun s => { s with hold := false }) h rfl).trans rfl

end Sys2Proof.Machine

namespace Sys2Proof.Machine

/-! ## Causes recorded and refused (R19–R25) -/

/-- `u` is `v`, but for the places reserved in the outbound queue. -/
def ButReserved (v u : State) : Prop := u = { v with reserved := u.reserved }

theorem ButReserved.refl (v : State) : ButReserved v v := rfl

theorem ButReserved.released (v : State) : ButReserved v { v with reserved := 0 } := rfl

theorem ButReserved.elsewhere {v u : State} (h : ButReserved v u) (z : Zone) : Elsewhere z v u := by
  unfold ButReserved at h
  rw [h]
  exact ⟨.same rfl rfl, ⟨rfl, rfl, rfl, rfl, rfl⟩, rfl⟩

theorem ButReserved.toldLast {v u : State} {b : ReportBody} (h : ButReserved v u) (hv : ToldLast b v) :
    ToldLast b u := by
  unfold ButReserved at h
  rw [h]
  exact hv

theorem ButReserved.lists {v u : State} (h : ButReserved v u) : u.lists = v.lists := by
  unfold ButReserved at h
  rw [h]

theorem ButReserved.outs {v u : State} (h : ButReserved v u) : u.outs = v.outs := by
  unfold ButReserved at h
  rw [h]

theorem ButReserved.alarmLock {v u : State} (h : ButReserved v u) : u.alarmLock = v.alarmLock := by
  unfold ButReserved at h
  rw [h]

section
variable {s a b u : State} {z : Zone}

/-! ### The OVERFLOW claim comes to every zone (R23, R25) -/

/-- `a` has the tables, the moment and the claim lists of `s`. -/
structure SameLists (s a : State) : Prop where
  work  : a.work = s.work
  now   : a.now = s.now
  lists : a.lists = s.lists

/-- The OVERFLOW claim offered to every zone settles in each in use, and the claims of others are kept. -/
theorem offerAll_overflow (h : SameLists s a) (hu : Elsewhere z (offerAll (overflowClaim s) a) u) :
    (s.work.spk[z].inUse = true → OfferSettled z (overflowClaim s) s u) ∧
      OthersKept u.acts (fun d => d.owner == .overflow) s u z := by
  obtain ⟨b, h1, h2⟩ := zones_visit (f := fun z t => offer z (overflowClaim s) t)
    (fun z y hy t => offer_elsewhere hy (overflowClaim s) t) nodup_allZones (mem_allZones z) a
  have hl : b.lists[z] = s.lists[z] := h1.list.trans (by rw [h.lists])
  have hw : b.work = s.work := h1.grounds.work.trans h.work
  have hn : b.now = s.now := h1.grounds.now.trans h.now
  have he : Elsewhere z (offer z (overflowClaim s) b) u := h2.trans hu
  refine ⟨fun hz => (offer_offerSettled (by rw [hw]; exact hz)
    (fun hev => absurd hev (by rw [overflowClaim_quiet]; exact Bool.false_ne_true)) he).of hl, ?_⟩
  refine Between.othersKept ⟨hw, hn, hl, (offer_onlyZones z _ b).grounds, he⟩ ?_
  refine offer_turns (.inl (beq_self_eq_true Owner.overflow)) (fun k => nofun) nofun (fun held _ ho => ?_) (fun d => .inr) id
  exact ⟨beq_iff_eq.2 ho, .inl (beq_self_eq_true Owner.overflow)⟩

/-- A CAUSE ON that finds the list full, in ACTIVATION OVERFLOW already or not (R21, R23). -/
theorem refuseCause_within {dz : Nat} {cls : Class} (h : a.overflow = true) :
    refuseCause dz cls a = report (.overflow dz cls) a := by
  unfold refuseCause
  rw [h]
  rfl

theorem refuseCause_enters {dz : Nat} {cls : Class} (h : a.overflow = false) :
    refuseCause dz cls a =
      report (.overflow dz cls) (offerAll (overflowClaim a) { a with overflow := true }) := by
  unfold refuseCause
  rw [h]
  rfl

/-- The OVERFLOW claim is built from template 0, or from its factory default (R23). -/
theorem overflowClaim_of (s : State) :
    (∀ m, templateInUse s.work 0 = some m → overflowClaim s =
      { owner := .overflow, source := sourceOf m.source, fallback := fallbackOf m.fallback
        prio := m.prio, atten := m.atten, stage := none, placed := s.now }) ∧
    (templateInUse s.work 0 = none → overflowClaim s =
      { owner := .overflow, source := .tone 0, fallback := none, prio := 12, atten := 0
        stage := none, placed := s.now }) := by
  unfold overflowClaim
  constructor
  · intro m hm
    rw [hm]
    rfl
  · intro hm
    rw [hm]
    rfl

theorem refuseCause_overflowed {dz : Nat} {cls : Class} (h : SameClaims s a) (ho : a.outs = s.outs)
    (hu : ButReserved (refuseCause dz cls a) u) : Overflowed s u dz cls := by
  have hz0 : Zone := ⟨0, by decide⟩
  have hsov := h.grounds.overflow
  cases hov : a.overflow with
  | true =>
    rw [refuseCause_within hov] at hu
    have he := fun z => (report_elsewhere z (.overflow dz cls) a).trans (hu.elsewhere z)
    have hout : (report (.overflow dz cls) a).outs = a.outs := by unfold report; split <;> rfl
    refine ⟨(he hz0).grounds.acts.trans h.grounds.acts, (he hz0).grounds.overflow.trans hov,
      hu.toldLast (report_toldLast _ _), fun _ => ⟨?_, hu.outs.trans (hout.trans ho)⟩,
      fun hs => absurd (hov.symm.trans (hsov.trans hs)) (fun e => nomatch e)⟩
    exact hu.lists.trans ((report_lists _ _).trans h.lists)
  | false =>
    rw [refuseCause_enters hov, overflowClaim_eq h.grounds.work h.grounds.now] at hu
    have he := fun z => (report_elsewhere z (.overflow dz cls)
      (offerAll (overflowClaim s) { a with overflow := true })).trans (hu.elsewhere z)
    have hg := (offerAll_onlyZones (overflowClaim s) { a with overflow := true }).grounds.trans (he hz0).grounds
    have hacts : u.acts = s.acts := hg.acts.trans h.grounds.acts
    refine ⟨hacts, hg.overflow, hu.toldLast (report_toldLast _ _),
      fun hs => absurd (hov.symm.trans (hsov.trans hs)) Bool.false_ne_true, fun _ z => ?_⟩
    obtain ⟨h1, h2⟩ := offerAll_overflow (a := { a with overflow := true })
      ⟨h.grounds.work, h.grounds.now, h.lists⟩ (he z)
    obtain ⟨c1, c2⟩ := overflowClaim_of s
    exact ⟨fun hz => ⟨fun m hm => c1 m hm ▸ h1 hz, fun hm => c2 hm ▸ h1 hz⟩, hacts ▸ h2⟩

end

theorem causeOverflows_of {s : State} {dz : Nat} (hn : recordOf s dz = none) (hl : 32 ≤ s.acts.length) :
    causeOverflows s dz = true := by
  unfold causeOverflows
  rw [hn]
  exact decide_eq_true hl

theorem causeOn_refuses {s : State} {dz o : Nat} {cls : Class} {l : Option Bool} (hn : recordOf s dz = none)
    (hl : 32 ≤ s.acts.length) : causeOn dz cls o l s = refuseCause dz cls s := by
  unfold causeOn
  rw [hn, causeOverflows_of hn hl]
  rfl

theorem causeOn_records {s : State} {dz o : Nat} {cls : Class} {l : Option Bool} (hn : recordOf s dz = none)
    (hl : s.acts.length < 32) : causeOn dz cls o l s = recordCause dz cls o l s := by
  have : causeOverflows s dz = false := by
    unfold causeOverflows
    rw [hn]
    exact decide_eq_false (Nat.not_le.2 hl)
  unfold causeOn
  rw [hn, this]
  rfl

/-- A CAUSE ON that is admitted leaves what the Cause Unit makes of the state in hand, its DONE placed last. -/
theorem exec_causeOn_admitted {s v : State} {q : Request} {dz : Nat} (h : Admitted s q (.causeOn dz) 1) (hdz : dz ≤ 511)
    (hv : causeOn dz q.cls q.origin none (inHand 1 s) = v) :
    exec (.causeOn q dz) s = .next (place (replyMsg q .causeOn .done
      (if causeOverflows s dz then .overflowed else .none)) { v with reserved := 0 }) := by
  refine (exec_causeOn_within hdz h).trans ?_
  subst hv
  show Host.Outcome.next { reply ⟨q, .causeOn dz⟩ .done (if causeOverflows s dz then .overflowed else .none) _ with
    reserved := 0 } = _
  cases causeOverflows s dz <;> rfl

/-- Settles O35: the OVERFLOW claim comes to each zone, as one offer each. -/
theorem causeOverflowsSettled : Obligations.CauseOverflows := by
  intro s q dz hdz hn hl h
  have hn' : recordOf (inHand 1 s) dz = none := hn
  have hv := causeOn_refuses (o := q.origin) (cls := q.cls) (l := none) hn' hl
  refine ⟨_, (exec_causeOn_admitted h hdz hv).trans ?_, ?_, refuseCause_overflowed (.inHand 1 s) rfl (.released _)⟩
  · rw [causeOverflows_of hn hl]
    rfl
  · have := causeOn_onlyCauses dz q.cls q.origin none (inHand 1 s)
    rw [hv] at this
    exact this.released

end Sys2Proof.Machine

namespace Sys2Proof.Machine

/-! ### The merged claims of a new record (R19, R54) -/

/-- The state with a record appended to the list (R19). -/
def withRecord (r : ActRecord) (s : State) : State := updateLock { s with acts := s.acts ++ [r] }

section
variable {s a b t u : State} {z : Zone} {r : ActRecord}

theorem withRecord_work : (withRecord r s).work = s.work := updateLock_work _
theorem withRecord_now : (withRecord r s).now = s.now := updateLock_now _
theorem withRecord_lists : (withRecord r s).lists = s.lists := updateLock_lists _
theorem withRecord_outs : (withRecord r s).outs = s.outs := updateLock_outs _
theorem withRecord_acts : (withRecord r s).acts = s.acts ++ [r] := updateLock_acts _
theorem withRecord_overflow : (withRecord r s).overflow = s.overflow := updateLock_overflow _

/-- An update of the lock with a record in the list sets it (R199). -/
theorem lockCondition_of_acts (h : s.acts ≠ []) : lockCondition s = true := by
  unfold lockCondition
  cases ha : s.acts with
  | nil => exact absurd ha h
  | cons _ _ => rfl

theorem recordOf_withRecord (hn : recordOf s r.dz = none) : recordOf (withRecord r s) r.dz = some r := by
  unfold recordOf at hn ⊢
  rw [withRecord_acts, List.find?_append, hn, Option.none_or, List.find?_singleton, beq_self_eq_true]
  rfl

theorem recordOf_none_iff {dz : Nat} : recordOf s dz = none ↔ ∀ x ∈ s.acts, x.dz ≠ dz := by
  unfold recordOf
  rw [List.find?_eq_none]
  simp

/-- A record has no merged claim for a zone that no reference of it reaches (R53). -/
theorem mergeClaim_unreached {w : Tables} {now : Nat} (h : ∀ f ∈ r.refs, refReaches w r f z = false) :
    mergeClaim w now r z = none := by
  unfold mergeClaim
  have hc := chooseRef_chosen w r z
  cases hp : chooseRef w r z with
  | none => rfl
  | some p =>
    rw [hp] at hc
    obtain ⟨i, ⟨hi, hr, -⟩, -⟩ := hc
    rw [h p.1 (List.mem_of_getElem? hi)] at hr
    cases hr

/-- Timers that do not reach a zone leave the record's merge there. -/
theorem mergeClaim_timedOut {w : Tables} {now : Nat} (h : ¬TimerReaches w r z) :
    mergeClaim w now (timedOut r) z = mergeClaim w now r z := by
  have all : ∀ k, mergeClaim w now (timedUpTo k r) z = mergeClaim w now r z := by
    intro k
    induction k with
    | zero => rfl
    | succ k ih =>
      by_cases hi : ∀ f, r.refs[k]? = some f → f.timer.isSome = false
      · rw [timedUpTo_succ_idle hi, ih]
      · obtain ⟨f, hf⟩ := Classical.not_forall.1 hi
        obtain ⟨hf, ht⟩ := Classical.not_imp.1 hf
        have ht : f.timer.isSome = true := (Bool.not_eq_false _).mp ht
        have href : (timedUpTo k r).refs[k]? = some f := by rw [timedUpTo_get, if_neg (Nat.lt_irrefl k), hf]
        rw [timedUpTo_succ hf ht, mergeClaim_set href (effectOf_expired _ f), ih]
        refine Bool.eq_false_iff.2 fun hz => h ⟨f, List.mem_of_getElem? hf, ht, ?_⟩
        exact (refReaches_congr rfl rfl rfl rfl).trans hz
  rw [← timedUpTo_all (Nat.le_refl r.refs.length), all]

/-- From `b` to `t` the merged claim of a record has been offered to zone `z`, where there is one (R54). -/
structure NewlyOffered (r : ActRecord) (z : Zone) (b t : State) : Prop where
  grounds : SameGrounds b t
  turns   : Turns (fun d => d.owner = .cause r.dz ∨ Brings b z d) (Evacuates b z) (fun d => d.owner == .cause r.dz) z b t
  idle    : mergeClaim b.work b.now r z = none → t.lists[z] = b.lists[z]
  stands  : ∀ c, mergeClaim b.work b.now r z = some c →
    (∃ d ∈ t.lists[z], d = { c with placed := d.placed }) ∨ Offered z c t
  offered : ∀ c, mergeClaim b.work b.now r z = some c → (∀ d ∈ b.lists[z], d.owner ≠ .cause r.dz) → Offered z c t
  settled : ∀ c, mergeClaim b.work b.now r z = some c →
    (c.stage ≠ some .evacuate ∨ ∀ d ∈ b.lists[z], ∀ k, d.owner ≠ .silence k) → ∀ u, Elsewhere z t u → OfferSettled z c b u
  placed  : (∀ d ∈ b.lists[z], d.owner ≠ .cause r.dz) → ∀ d ∈ t.lists[z], d.owner = .cause r.dz → d.placed = b.now

/-- The merged claim of a record offered to one zone, where there is one. -/
def offerMerged (r : ActRecord) (z : Zone) (s : State) : State :=
  match mergeClaim s.work s.now r z with
  | some c => offer z c s
  | none => s

theorem offerMerged_some {c : Claim} (h : mergeClaim s.work s.now r z = some c) : offerMerged r z s = offer z c s := by
  unfold offerMerged
  rw [h]

theorem offerMerged_none (h : mergeClaim s.work s.now r z = none) : offerMerged r z s = s := by
  unfold offerMerged
  rw [h]

theorem offerMerged_elsewhere {y : Zone} (hy : y ≠ z) (r : ActRecord) (s : State) : Elsewhere y s (offerMerged r z s) := by
  cases h : mergeClaim s.work s.now r z with
  | none => rw [offerMerged_none h]; exact .refl y s
  | some c => rw [offerMerged_some h]; exact offer_elsewhere hy c s

theorem offerMerged_grounds (r : ActRecord) (z : Zone) (s : State) : SameGrounds s (offerMerged r z s) := by
  cases h : mergeClaim s.work s.now r z with
  | none => rw [offerMerged_none h]; exact .refl s
  | some c => rw [offerMerged_some h]; exact (offer_onlyZones z c s).grounds

/-- What the offer of a merged claim brings into its zone. -/
theorem offerMerged_turns {new : Claim → Prop} (hr : r ∈ b.acts) (hb : ∀ d, Brings b z d → new d)
    (hh : ∀ c, mergeClaim b.work b.now r z = some c → ∀ held ∈ b.lists[z], held.owner = .cause r.dz →
      new { c with placed := held.placed }) :
    Turns new (Evacuates b z) (fun d => d.owner == .cause r.dz) z b (offerMerged r z b) := by
  cases h : mergeClaim b.work b.now r z with
  | none => rw [offerMerged_none h]; exact .refl b
  | some c =>
    rw [offerMerged_some h]
    have ho := mergeClaim_owner h
    exact offer_turns (hb c (.inl ⟨r, hr, h⟩)) (mergeClaim_silent h)
      (fun he => ⟨r, hr, c, h, ((isEvacuating_iff c).1 he).2⟩)
      (fun held hm hho => ⟨beq_iff_eq.2 (hho.trans ho), hh c h held hm (hho.trans ho)⟩) hb id

theorem offerRecord_newly (hr : r ∈ b.acts) (z : Zone) : NewlyOffered r z b (offerRecord r b) := by
  obtain ⟨x, h1, h2⟩ := zones_visit (f := fun z s => offerMerged r z s)
    (fun z y hy s => offerMerged_elsewhere hy r s) nodup_allZones (mem_allZones z) b
  have hrec : offerRecord r b = allZones.foldl (fun t z => offerMerged r z t) b := rfl
  rw [← hrec] at h2
  have hm : mergeClaim x.work x.now r z = mergeClaim b.work b.now r z := by rw [h1.grounds.work, h1.grounds.now]
  have hrx : r ∈ x.acts := h1.grounds.acts ▸ hr
  have hbr : ∀ d, Brings x z d → Brings b z d := fun d => (h1.grounds.brings z d).1
  refine ⟨(h1.grounds.trans (offerMerged_grounds r z x)).trans h2.grounds, ?_, fun hc => ?_, fun c hc => ?_,
    fun c hc hn => ?_, fun c hc hq u hu => ?_, fun hn d hd ho => ?_⟩
  · exact (h1.turns.trans ((offerMerged_turns hrx (fun d hd => .inr (hbr d hd))
      fun c hc held _ _ => .inl (show c.owner = _ from mergeClaim_owner hc)).mono (fun _ => id)
      (fun he => (h1.grounds.evacuates z).1 he) fun _ h => h)).trans h2.turns
  · rw [h2.list, offerMerged_none (hm.trans hc), h1.list]
  · rw [offerMerged_some (hm.trans hc)] at h2
    rcases offerMerged_stands (hm.trans hc) with ⟨d, hd, he⟩ | ho
    · exact .inl ⟨d, by rw [h2.list]; exact hd, he⟩
    · exact .inr (h2.offered ho)
  · rw [offerMerged_some (hm.trans hc)] at h2
    exact h2.offered (offerMerged_offers (hm.trans hc) (h1.list ▸ hn))
  · rw [offerMerged_some (hm.trans hc)] at h2
    exact (offerMerged_settled (hm.trans hc) (h1.list ▸ hq) (h2.trans hu)).of h1.list
  · have hturn : Turns (fun d => d.owner = .cause r.dz → d.placed = b.now) (Evacuates x z)
        (fun d => d.owner == .cause r.dz) z x (offerMerged r z x) := by
      refine offerMerged_turns hrx (fun d hd ho => ?_) fun c hc held hm hho => absurd hho (hn held (h1.list ▸ hm))
      rcases hd with ⟨y, -, hmy⟩ | ⟨-, hov⟩
      · exact (mergeClaim_placed hmy).trans h1.grounds.now
      · rw [hov, overflowClaim_owner] at ho
        cases ho
    rw [h2.list] at hd
    rcases hturn.fresh d hd with h' | h'
    · exact absurd ho (hn d (h1.list ▸ h'))
    · exact h' ho

end

end Sys2Proof.Machine

namespace Sys2Proof.Machine

section
variable {s t u : State} {z : Zone} {r : ActRecord}

/-- What a new record brings to a zone (R54, R71), `r'` the record as it stands then. -/
structure NewAt (r r' : ActRecord) (z : Zone) (s u : State) : Prop where
  stands  : ∀ c, mergeClaim s.work s.now r' z = some c →
    (∃ d ∈ u.lists[z], d = { c with placed := d.placed }) ∨ Offered z c u
  offered : ∀ c, mergeClaim s.work s.now r' z = some c → (∀ d ∈ s.lists[z], d.owner ≠ .cause r.dz) → Offered z c u
  clear   : mergeClaim s.work s.now r' z = none → (∀ d ∈ s.lists[z], d.owner ≠ .cause r.dz) →
    ∀ d ∈ u.lists[z], d.owner ≠ .cause r.dz
  away    : (∀ f ∈ r.refs, refReaches s.work r f z = false) → u.lists[z] = s.lists[z]
  others  : OthersKept u.acts (fun d => d.owner == .cause r.dz) s u z

/-- What claims come from, with a record appended. -/
theorem brings_withRecord {d : Claim} (h : Brings (withRecord r s) z d) :
    d.owner = .cause r.dz ∨ (∃ x ∈ s.acts, mergeClaim s.work s.now x z = some d) ∨
      (claimCondition (withRecord r s) = true ∧ d = overflowClaim s) := by
  rcases h with ⟨x, hx, hm⟩ | ⟨hc, hd⟩
  · rw [withRecord_acts] at hx
    rw [withRecord_work, withRecord_now] at hm
    rcases List.mem_append.1 hx with hx | hx
    · exact .inr (.inl ⟨x, hx, hm⟩)
    · rw [List.mem_singleton.1 hx] at hm
      exact .inl (mergeClaim_owner hm)
  · exact .inr (.inr ⟨hc, hd.trans (overflowClaim_eq withRecord_work withRecord_now)⟩)

/-- The claims of others are kept as a record comes, `r'` the record as it stands then. -/
theorem newRecord_othersKept {r' : ActRecord} (hacts : u.acts = s.acts ++ [r'])
    (hcond : claimCondition (withRecord r s) = true → claimCondition u = true)
    (ht : Turns (fun d => d.owner = .cause r.dz ∨ (∃ x ∈ s.acts, mergeClaim s.work s.now x z = some d) ∨
        (claimCondition (withRecord r s) = true ∧ d = overflowClaim s))
      (∃ x ∈ s.acts ++ [r'], ∃ c, mergeClaim s.work s.now x z = some c ∧ c.stage = some .evacuate)
      (fun d => d.owner == .cause r.dz) z (withRecord r s) u) :
    OthersKept u.acts (fun d => d.owner == .cause r.dz) s u z := by
  have hl : (withRecord r s).lists[z] = s.lists[z] := by rw [withRecord_lists]
  refine ⟨fun d hd hm => ?_, fun d hd hm => ?_⟩
  · rw [hacts]
    exact ht.kept d (hl.symm ▸ hd) hm
  · rcases ht.fresh d hd with h1 | h1 | ⟨x, hx, h1⟩ | ⟨hc, h1⟩
    · exact .inl (hl ▸ h1)
    · rw [beq_iff_eq.2 h1] at hm
      cases hm
    · exact .inr (.inl ⟨x, hacts ▸ List.mem_append_left _ hx, h1⟩)
    · exact .inr (.inr ⟨h1, (claimCondition_iff u).1 (hcond hc)⟩)

/-- A new record without timers to expire at once. -/
theorem NewlyOffered.newAt (h : NewlyOffered r z (withRecord r s) t) (hu : Elsewhere z t u) : NewAt r r z s u := by
  have hacts : u.acts = s.acts ++ [r] := (hu.grounds.acts.trans h.grounds.acts).trans withRecord_acts
  have hl : (withRecord r s).lists[z] = s.lists[z] := by rw [withRecord_lists]
  obtain ⟨hg, ht, hidle, hst, hoff, -, hpl⟩ := h
  rw [withRecord_work, withRecord_now] at hidle hst hoff
  rw [hl] at hidle hoff
  refine ⟨fun c hc => ?_, fun c hc hn => hu.offered (hoff c hc hn), fun hc hn => ?_, fun ha => ?_, ?_⟩
  · rcases hst c hc with ⟨d, hd, he⟩ | ho
    · exact .inl ⟨d, hu.list ▸ hd, he⟩
    · exact .inr (hu.offered ho)
  · rw [hu.list, hidle hc]
    exact hn
  · rw [hu.list, hidle (mergeClaim_unreached ha)]
  · refine newRecord_othersKept hacts (fun hc => (hg.trans hu.grounds).condition.trans hc)
      ((ht.mono (fun d hd => ?_) (fun he => ?_) fun _ h => h).trans hu.turns)
    · rcases hd with hd | hd
      · exact .inl hd
      · exact brings_withRecord hd
    · obtain ⟨x, hx, c, hm, hc⟩ := he
      rw [withRecord_acts] at hx
      rw [withRecord_work, withRecord_now] at hm
      exact ⟨x, hx, c, hm, hc⟩

/-- A new record whose timers expire at once (R71). -/
theorem NewlyOffered.escalated {v : State} (h : NewlyOffered r z (withRecord r s) t)
    (g : Escalating r z r.refs.length t v) (hu : Elsewhere z v u) (hacts : u.acts = s.acts ++ [timedOut r]) :
    NewAt r (timedOut r) z s u := by
  have hl : (withRecord r s).lists[z] = s.lists[z] := by rw [withRecord_lists]
  have hall : timedUpTo r.refs.length r = timedOut r := timedUpTo_all (Nat.le_refl _)
  have hw : t.work = s.work := h.grounds.work.trans withRecord_work
  have hnow : t.now = s.now := h.grounds.now.trans withRecord_now
  have hbefore := h.newAt (u := t) (.refl z t)
  have hpl := h.placed
  rw [withRecord_now, hl] at hpl
  have hlater : Later t u := g.turns.later.trans hu.later
  have hcond : claimCondition (withRecord r s) = true → claimCondition u = true := fun hc => by
    rw [(g.grounds.trans hu.grounds).condition, putRecord_condition, h.grounds.condition]
    exact hc
  obtain ⟨-, gturns, gaway, gmerged, gclear, -, gplaced⟩ := g
  simp only [reachedBy_all, hw, hnow, hall] at gaway gmerged gclear gplaced
  have hquiet : ¬TimerReaches s.work r z → u.lists[z] = t.lists[z] := fun hr => hu.list.trans (gaway hr)
  have stands : ∀ c, mergeClaim s.work s.now (timedOut r) z = some c →
      (∃ d ∈ u.lists[z], d = { c with placed := d.placed }) ∨ Offered z c u := by
    intro c hc
    by_cases hr : TimerReaches s.work r z
    · rcases gmerged hr c hc with ⟨d, hd, he⟩ | ho
      · exact .inl ⟨d, hu.list ▸ hd, he⟩
      · exact .inr (hu.offered ho)
    · rw [mergeClaim_timedOut hr] at hc
      exact (Turns.same (new := fun _ => True) (evac := True) (gone := fun _ => false) hlater (hquiet hr)).settled
        (fun _ _ => rfl) (mergeClaim_silent hc) (hbefore.stands c hc)
  refine ⟨stands, fun c hc hno => ?_, fun hc hno => ?_, fun ha => ?_, ?_⟩
  · rcases stands c hc with ⟨d, hd, he⟩ | ho
    · have ho := mergeClaim_owner hc
      have hown : d.owner = .cause r.dz := by rw [he]; exact ho
      have hp := gplaced (hpl hno) d (hu.list ▸ hd) hown
      rw [hp, ← mergeClaim_placed hc] at he
      exact .inl (show c ∈ u.lists[z] from he ▸ hd)
    · exact ho
  · by_cases hr : TimerReaches s.work r z
    · rw [hu.list]
      exact gclear hr hc
    · rw [mergeClaim_timedOut hr] at hc
      rw [hquiet hr]
      exact hbefore.clear hc hno
  · rw [hquiet fun ⟨f, hf, _, hr⟩ => Bool.false_ne_true ((ha f hf).symm.trans hr)]
    exact hbefore.away ha
  · refine newRecord_othersKept hacts hcond (((h.turns.mono (fun d hd => ?_) (fun he => ?_) fun _ h => h).trans
      (gturns.mono (fun d hd => ?_) (fun he => ?_) fun _ h => h)).trans hu.turns)
    · rcases hd with hd | hd
      · exact .inl hd
      · exact brings_withRecord hd
    · obtain ⟨x, hx, c, hm, hc⟩ := he
      rw [withRecord_acts] at hx
      rw [withRecord_work, withRecord_now] at hm
      rcases List.mem_append.1 hx with hx | hx
      · exact ⟨x, List.mem_append_left _ hx, c, hm, hc⟩
      · rw [List.mem_singleton.1 hx] at hm
        obtain ⟨c', hm', hc'⟩ := timedOut_evacuate hm hc
        exact ⟨timedOut r, List.mem_append_right _ (List.mem_singleton_self _), c', hm', hc'⟩
    · rcases hd with ho | hd | ⟨hc, hd⟩
      · exact .inl ho
      · exact brings_withRecord ((h.grounds.brings z d).1 (.inl (hd.imp fun x hx => ⟨hx.1, hx.2.2⟩)))
      · exact brings_withRecord ((h.grounds.brings z d).1 (.inr ⟨hc, hd⟩))
    · obtain ⟨x, hx, c, hm, hc⟩ := he
      rw [hw, hnow] at hm
      rcases hx with rfl | ⟨hx, hxn⟩
      · exact ⟨timedOut r, List.mem_append_right _ (List.mem_singleton_self _), c, hm, hc⟩
      · rw [h.grounds.acts, withRecord_acts] at hx
        rcases List.mem_append.1 hx with hx | hx
        · exact ⟨x, List.mem_append_left _ hx, c, hm, hc⟩
        · exact absurd (congrArg ActRecord.dz (List.mem_singleton.1 hx)) hxn

end

/-! ### CAUSE ON for a detection zone without a record (O32) -/

section
variable {s t u : State} {r : ActRecord} {dz o : Nat} {cls : Class} {l : Option Bool}

/-- The claims that come first with a new record (R25, R54). -/
def firstClaims (r : ActRecord) (s : State) : State :=
  if s.defaultMode = true then
    if s.acts.isEmpty = true then offerAll (overflowClaim s) (withRecord r s) else withRecord r s
  else offerRecord r (withRecord r s)

theorem recordCause_eq (dz : Nat) (cls : Class) (o : Nat) (l : Option Bool) (s : State) :
    recordCause dz cls o l s =
      if s.isoEscalated = true then expireRecord dz (firstClaims (newRecord s dz cls o l) s)
      else firstClaims (newRecord s dz cls o l) s := by
  have : overflowClaim (withRecord (newRecord s dz cls o l) s) = overflowClaim s :=
    overflowClaim_eq withRecord_work withRecord_now
  unfold firstClaims
  rw [← this]
  rfl

theorem firstClaims_grounds (r : ActRecord) (s : State) : SameGrounds (withRecord r s) (firstClaims r s) := by
  unfold firstClaims
  split
  · split
    · exact (offerAll_onlyZones _ _).grounds
    · exact .refl _
  · exact (offerRecord_newly (by rw [withRecord_acts]; simp) ⟨0, by decide⟩).grounds

/-- Timers of a record expired once more find nothing in a record without references. -/
theorem expireRecord_bare (hr : recordOf s dz = some r) (h : r.refs = []) : expireRecord dz s = s := by
  unfold expireRecord timedRefs
  rw [hr]
  dsimp only
  rw [h]
  rfl

theorem putRecord_last {y : ActRecord} (hn : ∀ x ∈ s.acts, x.dz ≠ r.dz) :
    (putRecord r.dz y (withRecord r s)).acts = s.acts ++ [y] := by
  show (withRecord r s).acts.map _ = _
  rw [withRecord_acts, List.map_append, List.map_singleton, if_pos rfl]
  congr 1
  exact (List.map_congr_left fun x hx => if_neg (hn x hx)).trans (List.map_id _)

/-- Where a new record of a detection zone stands (R15, R35). -/
theorem newRecord_place (s : State) (dz : Nat) (cls : Class) (o : Nat) (l : Option Bool) :
    ∀ e, s.work.dzMap[dz]? = some e →
      (e.inUse = true → (newRecord s dz cls o l).level = e.level ∧ (newRecord s dz cls o l).sector = e.sector) ∧
      (e.inUse = false → (newRecord s dz cls o l).level = none ∧ (newRecord s dz cls o l).sector = none) := by
  intro e he
  have hp : placeOf s.work dz = if e.inUse then (e.level, e.sector) else (none, none) := by
    unfold placeOf
    rw [he]
  unfold newRecord
  dsimp only
  rw [hp]
  exact ⟨fun h => by rw [if_pos h]; exact ⟨rfl, rfl⟩, fun h => by rw [h]; exact ⟨rfl, rfl⟩⟩

theorem Moves.lockAgrees {c : Instr} (h : Moves c s t) (hs : LockAgrees s) : LockAgrees t := by
  induction h with
  | refl => exact hs
  | tail _ hm ih => exact hm.lockAgrees ih

/-- The alarm lock is set while the claims of a new record come (R199). -/
theorem recordCause_lock (hp : s.phase = .running) : LockAgrees (recordCause dz cls o l s) := by
  have hlive : Live (withRecord (newRecord s dz cls o l) s) :=
    live_of_running ((updateLock_onlyZones _).phase.trans hp)
  have hagrees : LockAgrees (withRecord (newRecord s dz cls o l) s) := updateLock_agrees _
  have h2 := firstClaims_moves (c := .isolationEscalation) s.defaultMode s.acts.isEmpty (newRecord s dz cls o l) _ hlive
  have l2 := (firstClaims_onlyZones s.defaultMode s.acts.isEmpty (newRecord s dz cls o l) _).live hlive
  unfold recordCause
  dsimp only
  split
  · exact Moves.lockAgrees (h2.trans (expireRecord_moves dz _ l2).1) hagrees
  · exact Moves.lockAgrees h2 hagrees

/-- The record as it stands, its timers expired at once while the isolation escalated condition holds (R71). -/
def standing (r : ActRecord) (s : State) : ActRecord := if s.isoEscalated = true then timedOut r else r

theorem firstClaims_next (hn : recordOf s r.dz = none) :
    recordOf (firstClaims r s) r.dz = some r ∧ ∀ x ∈ (firstClaims r s).acts, x.dz = r.dz → x = r := by
  have ha : (firstClaims r s).acts = (withRecord r s).acts := (firstClaims_grounds r s).acts
  refine ⟨?_, fun x hx e => ?_⟩
  · have := recordOf_withRecord hn
    unfold recordOf at this ⊢
    rw [ha]
    exact this
  · rw [ha, withRecord_acts] at hx
    rcases List.mem_append.1 hx with hx | hx
    · exact absurd e (recordOf_none_iff.1 hn x hx)
    · exact List.mem_singleton.1 hx

/-- The list after a new record, and ACTIVATION OVERFLOW. -/
theorem recordCause_acts (hn : recordOf s dz = none) :
    (recordCause dz cls o l s).acts = s.acts ++ [standing (newRecord s dz cls o l) s] ∧
      (recordCause dz cls o l s).overflow = s.overflow := by
  have hg := firstClaims_grounds (newRecord s dz cls o l) s
  have hfree := recordOf_none_iff.1 hn
  rw [recordCause_eq]
  unfold standing
  split
  · obtain ⟨h1, h2⟩ := firstClaims_next (r := newRecord s dz cls o l) hn
    have he := ((expireRecord_escalates h1 h2).1 ⟨0, by decide⟩).grounds
    have hdz : (newRecord s dz cls o l).dz = dz := rfl
    rw [hdz] at he
    refine ⟨he.acts.trans ?_, he.overflow.trans (hg.overflow.trans withRecord_overflow)⟩
    have hput := putRecord_last (s := s) (r := newRecord s dz cls o l)
      (y := timedUpTo (newRecord s dz cls o l).refs.length (newRecord s dz cls o l)) hfree
    rw [timedUpTo_all (Nat.le_refl _)] at hput ⊢
    refine (congrArg (List.map _) hg.acts).trans hput
  · exact ⟨hg.acts.trans withRecord_acts, hg.overflow.trans withRecord_overflow⟩

/-- In DEFAULT MODE a record has no references, and no timer expires. -/
theorem recordCause_default (hn : recordOf s dz = none) (hm : s.defaultMode = true) :
    recordCause dz cls o l s = if s.acts.isEmpty = true then
      offerAll (overflowClaim s) (withRecord (newRecord s dz cls o l) s)
      else withRecord (newRecord s dz cls o l) s := by
  have hrefs : (newRecord s dz cls o l).refs = [] := by unfold newRecord; rw [hm]; rfl
  have hbare := expireRecord_bare (firstClaims_next (r := newRecord s dz cls o l) hn).1 hrefs
  have hfirst : firstClaims (newRecord s dz cls o l) s = _ := if_pos hm
  rw [recordCause_eq, ← hfirst]
  split
  · exact hbare
  · rfl

/-- Outside DEFAULT MODE the merged claims of the record come to the zones (R54, R71). -/
theorem recordCause_newAt {z : Zone} (hn : recordOf s dz = none) (hm : s.defaultMode = false)
    (hu : Elsewhere z (recordCause dz cls o l s) u) :
    NewAt (newRecord s dz cls o l) (standing (newRecord s dz cls o l) s) z s u := by
  have hacts := hu.grounds.acts.trans (recordCause_acts (o := o) (cls := cls) (l := l) hn).1
  have hfirst : firstClaims (newRecord s dz cls o l) s = offerRecord (newRecord s dz cls o l)
      (withRecord (newRecord s dz cls o l) s) := if_neg (by rw [hm]; exact Bool.false_ne_true)
  have hnew : NewlyOffered (newRecord s dz cls o l) z (withRecord (newRecord s dz cls o l) s)
      (firstClaims (newRecord s dz cls o l) s) := by
    rw [hfirst]
    exact offerRecord_newly (by rw [withRecord_acts]; simp) z
  rw [recordCause_eq] at hu
  unfold standing at hacts ⊢
  split at hu
  next hiso =>
    rw [if_pos hiso] at hacts ⊢
    obtain ⟨h1, h2⟩ := firstClaims_next (r := newRecord s dz cls o l) hn
    exact hnew.escalated ((expireRecord_escalates h1 h2).1 z) hu hacts
  next hiso =>
    rw [if_neg hiso]
    exact hnew.newAt hu

/-- Without timers to expire at once, the merged claim comes as one offer (R80–R83). -/
theorem recordCause_settled {z : Zone} {c : Claim} (hm : s.defaultMode = false) (hiso : s.isoEscalated = false)
    (hc : mergeClaim s.work s.now (newRecord s dz cls o l) z = some c)
    (hq : c.stage ≠ some .evacuate ∨ ∀ d ∈ s.lists[z], ∀ k, d.owner ≠ .silence k)
    (hu : Elsewhere z (recordCause dz cls o l s) u) : OfferSettled z c s u := by
  have hl : (withRecord (newRecord s dz cls o l) s).lists[z] = s.lists[z] := by rw [withRecord_lists]
  have hfirst : firstClaims (newRecord s dz cls o l) s = offerRecord (newRecord s dz cls o l)
      (withRecord (newRecord s dz cls o l) s) := if_neg (by rw [hm]; exact Bool.false_ne_true)
  rw [recordCause_eq, if_neg (by rw [hiso]; exact Bool.false_ne_true), hfirst] at hu
  refine ((offerRecord_newly (by rw [withRecord_acts]; simp) z).settled c ?_ (hl ▸ hq) u hu).of hl
  rw [withRecord_work, withRecord_now]
  exact hc

/-- What a new record leaves (R3, R15, R19, R20, R25, R41, R42, R54, R71). -/
theorem recordCause_recorded (hp : s.phase = .running) (hn : recordOf s dz = none)
    (hu : ButReserved (recordCause dz cls o l s) u) : Recorded s u dz cls o l := by
  have hacts := recordCause_acts (o := o) (cls := cls) (l := l) hn
  have hz0 : Zone := ⟨0, by decide⟩
  have hgu := (hu.elsewhere hz0).grounds
  have huacts := hgu.acts.trans hacts.1
  have hlock : u.alarmLock = true := by
    rw [hu.alarmLock, show (recordCause dz cls o l s).alarmLock = _ from recordCause_lock hp]
    refine lockCondition_of_acts ?_
    rw [hacts.1]
    simp
  refine ⟨newRecord s dz cls o l, huacts, hgu.overflow.trans hacts.2, hlock, rfl, rfl, rfl, rfl, rfl,
    newRecord_place s dz cls o l, fun hm => ⟨?_, ?_, ?_, fun ha z => ?_, fun ha => ?_⟩,
    fun hm => ⟨?_, ?_, ?_, fun z => ?_⟩⟩
  · unfold newRecord; rw [hm]; rfl
  · unfold newRecord; rw [hm]; rfl
  · unfold newRecord; rw [hm]; rfl
  · rw [recordCause_default hn hm, if_pos (by rw [ha]; rfl)] at hu
    exact offerAll_overflow ⟨withRecord_work, withRecord_now, withRecord_lists⟩ (hu.elsewhere z)
  · rw [recordCause_default hn hm, if_neg (by rw [List.isEmpty_iff]; exact ha)] at hu
    exact ⟨hu.lists.trans withRecord_lists, hu.outs.trans withRecord_outs⟩
  · unfold newRecord; rw [hm]; rfl
  · unfold newRecord; rw [hm]; rfl
  · unfold newRecord; rw [hm]; rfl
  · obtain ⟨h1, h2, h3, h4, h5⟩ := recordCause_newAt hn hm (hu.elsewhere z)
    refine ⟨fun c hc => ⟨h1 c hc, h2 c hc, fun hiso hq => ?_⟩, h3, h4, h5⟩
    rw [if_neg (by rw [hiso]; exact Bool.false_ne_true)] at hc
    exact recordCause_settled hm hiso hc hq (hu.elsewhere z)

/-- The claims of others are kept from one state as from another with the same claims. -/
theorem OthersKept.of {rs : List ActRecord} {mine : Claim → Bool} {a : State} {z : Zone} (h : SameClaims s a)
    (g : OthersKept rs mine a u z) : OthersKept rs mine s u z := by
  obtain ⟨g1, g2⟩ := g
  rw [h.lists] at g1 g2
  rw [h.grounds.work, h.grounds.now] at g1 g2
  rw [overflowClaim_eq h.grounds.work h.grounds.now] at g2
  exact ⟨g1, g2⟩

theorem Recorded.of {a : State} (h : SameClaims s a) (hi : a.isoEscalated = s.isoEscalated) (ho : a.outs = s.outs)
    (g : Recorded a u dz cls o l) : Recorded s u dz cls o l := by
  obtain ⟨r, ha, hov, hlock, h1, h2, h3, htime, h5, hplace, hdef, hmode⟩ := g
  have hl : ∀ z : Zone, a.lists[z] = s.lists[z] := fun z => by rw [h.lists]
  have hw := h.grounds.work
  have hn := h.grounds.now
  rw [hw] at hplace
  rw [hi] at ha
  rw [h.grounds.acts, h.grounds.mode, h.lists, ho, hw, overflowClaim_eq hw hn] at hdef
  rw [h.grounds.mode, hw, hi, hn] at hmode
  refine ⟨r, h.grounds.acts ▸ ha, hov.trans h.grounds.overflow, hlock, h1, h2, h3, htime.trans hn, h5, hplace,
    fun hm => ?_, fun hm => ?_⟩
  · obtain ⟨d1, d2, d3, d4, d5⟩ := hdef hm
    exact ⟨d1, d2, d3, fun he z => ⟨fun hz => ((d4 he z).1 hz).of (hl z), (d4 he z).2.of h⟩, d5⟩
  · obtain ⟨m1, m2, m3, m4⟩ := hmode hm
    refine ⟨m1, m2, m3, fun z => ?_⟩
    obtain ⟨c1, c2, c3, c4⟩ := m4 z
    rw [hl z] at c1 c2 c3
    refine ⟨fun c hc => ?_, c2, c3, c4.of h⟩
    obtain ⟨d1, d2, d3⟩ := c1 c hc
    exact ⟨d1, d2, fun hi hq => (d3 hi hq).of (hl z)⟩

end

/-- Settles O32: the record is appended, and its merged claim comes to each zone as one offer, its timers
expiring behind. -/
theorem causeRecorded : Obligations.CauseRecorded := by
  intro s q dz hdz hn hl h
  have hn' : recordOf (inHand 1 s) dz = none := hn
  have hv := causeOn_records (o := q.origin) (cls := q.cls) (l := none) hn' hl
  have hno : causeOverflows s dz = false := by
    unfold causeOverflows
    rw [hn]
    exact decide_eq_false (Nat.not_le.2 hl)
  refine ⟨_, (exec_causeOn_admitted h hdz hv).trans ?_, ?_,
    .of (.inHand 1 s) rfl rfl (recordCause_recorded (mayBegin_facts h.room).1 hn' (.released _))⟩
  · rw [hno]
    rfl
  · have := causeOn_onlyCauses dz q.cls q.origin none (inHand 1 s)
    rw [hv] at this
    exact this.released

/-- A due change of a local input away from its active level is a CAUSE OFF (R11, R12). -/
theorem exec_localInputTaken_inactive {s : State} {n : Fin 8} (hrun : s.phase = .running)
    (hdue : inputDue s n = true) (hact : s.pins.inputHigh[n] ≠ s.work.inputs[n].activeHigh) :
    exec (.localInputTaken n) s = .next (causeOff s.work.inputs[n].dz
      { s with inputs := s.inputs.set n { active := false, due := none } }) := by
  have hcond : (s.running && inputDue s n) = true := by simp [State.running, hrun, hdue]
  have hoff : inputActive s n = false := beq_eq_false_iff_ne.2 hact
  rw [exec_localInputTaken, execLocalInputTaken, whenever_of hcond]
  simp only [hoff, Bool.false_eq_true, if_false]

/-- Settles O39: a local input's change is a CAUSE ON or a CAUSE OFF of class 4. -/
theorem localInputTaken : Obligations.LocalInputTaken := by
  intro s n d hp hu hd hle e at'
  have hdue := inputDue_of hu hd hle
  refine ⟨fun hpin hn => ?_, fun hpin => ⟨fun hn => ?_, fun r hr hl => ?_, fun r hr hl => ?_⟩⟩
  · have hn' : recordOf (at' true) e.dz = none := hn
    have hex := exec_localInputTaken_active hp hdue (inputActive_of hpin)
    refine ⟨fun hl => ⟨_, hex, causeOn_onlyCauses _ _ _ _ (at' true), ?_⟩,
      fun hl => ⟨_, hex, causeOn_onlyCauses _ _ _ _ (at' true), ?_⟩⟩
    · have hrec := causeOn_records (s := at' true) (o := s.rif.addr) (cls := 4) (l := some e.latch) hn' hl
      exact .of (a := at' true) ⟨⟨rfl, rfl, rfl, rfl, rfl⟩, rfl⟩ rfl rfl
        (recordCause_recorded hp hn' (by rw [← hrec]; exact .refl _))
    · refine refuseCause_overflowed (a := at' true) ⟨⟨rfl, rfl, rfl, rfl, rfl⟩, rfl⟩ rfl ?_
      rw [← causeOn_refuses (s := at' true) (o := s.rif.addr) (l := some e.latch) hn' hl]
      exact .refl _
  · rw [exec_localInputTaken_inactive hp hdue hpin]
    exact congrArg Host.Outcome.next (causeOff_none (s := at' false) hn)
  · rw [exec_localInputTaken_inactive hp hdue hpin]
    exact congrArg Host.Outcome.next (causeOff_latched (s := at' false) hr hl)
  · have hoff := causeOff_removes (s := at' false) hr hl
    refine ⟨_, exec_localInputTaken_inactive hp hdue hpin, ?_, ?_⟩
    · exact causeOff_onlyCauses _ (at' false)
    · refine recordGone_of (a := at' false) ⟨⟨rfl, rfl, rfl, rfl, rfl⟩, rfl⟩ fun z => ?_
      rw [← hoff]
      exact .refl z _

end Sys2Proof.Machine

namespace Sys2Proof.Machine

/-! ## What the check of each table asks (R200) -/

theorem guarded_iff {α β : Type} {p : Prop} [Decidable p] {f : α → β} {x : α} {y : β} :
    (if p then some x else none).map f = some y ↔ p ∧ y = f x := by
  split
  next h => exact ⟨fun e => ⟨h, (Option.some.inj e).symm⟩, fun e => congrArg some e.2.symm⟩
  next h => exact ⟨(fun e => nomatch e), fun e => absurd e.1 h⟩

theorem isNamed_iff {α : Type} (c : Coded α) : isNamed c = true ↔ ∃ a, c = .named a := by
  cases c with
  | named a => exact ⟨fun _ => ⟨a, rfl⟩, fun _ => rfl⟩
  | other n => exact ⟨(fun h => nomatch h), fun ⟨_, h⟩ => nomatch h⟩

theorem levelOk_iff (l : Level) : levelOk l = true ↔ ∀ n, l = some n → n ≤ 127 := by
  cases l with
  | none => exact ⟨fun _ => nofun, fun _ => rfl⟩
  | some n => exact ⟨fun h m hm => Option.some.inj hm ▸ of_decide_eq_true h, fun h => decide_eq_true (h n rfl)⟩

theorem sector_iff (o : Option Nat) : o.all sectorOk = true ↔ ∀ n, o = some n → n ≤ 7 := by
  cases o with
  | none => exact ⟨fun _ => nofun, fun _ => rfl⟩
  | some n => exact ⟨fun h m hm => Option.some.inj hm ▸ of_decide_eq_true h, fun h => decide_eq_true (h n rfl)⟩

theorem spanOk_iff (e : SpkZone) : spanOk e = true ↔ (e.levelLo = none ∧ e.levelHi = none) ∨
    ∃ a b, e.levelLo = some a ∧ e.levelHi = some b ∧ a ≤ b ∧ b ≤ 127 := by
  unfold spanOk
  cases hlo : e.levelLo with
  | none => cases hhi : e.levelHi <;> simp
  | some a =>
    cases hhi : e.levelHi with
    | none => simp
    | some b =>
      simp only [Bool.and_eq_true, decide_eq_true_eq, levelOk, reduceCtorEq, false_and, false_or, Option.some.injEq]
      constructor
      · exact fun ⟨⟨h1, _⟩, h2⟩ => ⟨a, b, rfl, rfl, h1, h2⟩
      · rintro ⟨x, y, rfl, rfl, h1, h2⟩
        exact ⟨⟨h1, Nat.le_trans h1 h2⟩, h2⟩

theorem scopeOk_iff (c : Coded Scope) : scopeOk c = true ↔
    (∃ lo hi : Int, c = .named (.relative lo hi) ∧ -16 ≤ lo ∧ lo ≤ hi ∧ hi ≤ 16) ∨ ∃ zs, c = .named (.fixed zs) := by
  cases c with
  | other n => simp [scopeOk]
  | named x =>
    cases x with
    | fixed zs => simp [scopeOk]
    | relative lo hi =>
      simp only [scopeOk, Bool.and_eq_true, decide_eq_true_eq, Coded.named.injEq, Scope.relative.injEq, reduceCtorEq,
        exists_false, or_false]
      constructor
      · exact fun ⟨⟨h1, h2⟩, h3⟩ => ⟨lo, hi, ⟨rfl, rfl⟩, h1, h3, h2⟩
      · rintro ⟨a, b, ⟨rfl, rfl⟩, h1, h2, h3⟩
        exact ⟨⟨h1, h3⟩, h2⟩

theorem effectOk_iff (f : Effect) : effectOk f = true ↔ EffectStands f := by
  unfold effectOk kindsAny
  simp only [Bool.and_eq_true, Bool.or_eq_true, scopeOk_iff, isNamed_iff, decide_eq_true_eq, or_assoc]
  exact ⟨fun ⟨⟨⟨⟨⟨h1, h2⟩, h3⟩, h4⟩, h5⟩, h6⟩ => ⟨h1, h2, h3, h4, h5, h6⟩,
    fun ⟨h1, h2, h3, h4, h5, h6⟩ => ⟨⟨⟨⟨⟨h1, h2⟩, h3⟩, h4⟩, h5⟩, h6⟩⟩

theorem templSourceOk_iff (c : Coded Source) : templSourceOk c = true ↔ (∃ n, n ≤ 31 ∧ c = .named (.ring n)) ∨
    (∃ n, n ≤ 3 ∧ (c = .named (.playout n) ∨ c = .named (.tone n))) ∨ c = .named .warden ∨ c = .named .none := by
  cases c with
  | other n => simp [templSourceOk]
  | named x => cases x <;> simp [templSourceOk]

theorem isRing_iff (c : Coded Source) : isRing c = true ↔ ∃ n, c = .named (.ring n) := by
  cases c with
  | other n => simp [isRing]
  | named x => cases x <;> simp [isRing]

theorem templFallbackOk_iff (c : Coded Source) (o : Option (Coded Fallback)) : templFallbackOk c o = true ↔
    o = none ∨ ((∃ n, c = .named (.ring n)) ∧
      ∃ n, n ≤ 3 ∧ (o = some (.named (.playout n)) ∨ o = some (.named (.tone n)))) := by
  rw [← isRing_iff]
  rcases o with _ | ⟨x | n⟩
  · simp [templFallbackOk]
  · cases x <;> simp [templFallbackOk, and_comm]
  · simp [templFallbackOk]

theorem stepOk_iff (p : Coded PStep) : stepOk p = true ↔
    (∃ n, n ≤ 63 ∧ p = .named (.phrase n)) ∨ ∃ ms, p = .named (.gap ms) := by
  cases p with
  | other n => simp [stepOk]
  | named x => cases x <;> simp [stepOk]

theorem checkLocalIn_iff (t : Tables) (i : Nat) (e : LocalIn) (c' : Contents) :
    (checkLocalIn t i e).map .localIn = some c' ↔ (e.inUse = true → e.dz ≤ 511 ∧
      ∀ j : Fin 8, j.val ≠ i → t.inputs[j].inUse = true → t.inputs[j].dz ≠ e.dz) ∧ c' = .localIn e := by
  have others : (List.finRange 8).all (fun j => decide (j.val = i) || !t.inputs[j].inUse
      || decide (t.inputs[j].dz ≠ e.dz)) = true ↔
      ∀ j : Fin 8, j.val ≠ i → t.inputs[j].inUse = true → t.inputs[j].dz ≠ e.dz := by
    rw [List.all_eq_true]
    refine forall_congr' fun j => ?_
    rw [Bool.or_eq_true, Bool.or_eq_true, decide_eq_true_eq, Bool.not_eq_true', ← Bool.not_eq_true, decide_eq_true_eq,
      or_assoc, Classical.or_iff_not_imp_left, Classical.or_iff_not_imp_left, Classical.not_not]
    exact ⟨fun h => h (List.mem_finRange j), fun h _ => h⟩
  unfold checkLocalIn
  cases hu : e.inUse with
  | false =>
    rw [if_pos (show (!false) = true from rfl)]
    exact ⟨fun h => ⟨nofun, (Option.some.inj h).symm⟩, fun h => congrArg some h.2.symm⟩
  | true =>
    rw [if_neg (by decide), guarded_iff, others]
    exact and_congr_left' ⟨fun h _ => h, fun h => h rfl⟩

theorem checkCeEntry_iff (e : CeEntry) (c' : Contents) :
    (checkCeEntry e).map .ceEntry = some c' ↔ (e.inUse = false ∧ c' = .ceEntry e) ∨
      (e.inUse = true ∧ e.dzHi ≤ 511 ∧ e.dzLo ≤ e.dzHi ∧ 1 ≤ e.effects.length ∧
        e.effects.length ≤ 4 ∧ (∀ f ∈ e.effects, EffectStands f) ∧
        c' = .ceEntry { e with effects := e.effects.map fun f => { f with delay := min f.delay 3600 } }) := by
  unfold checkCeEntry
  cases hu : e.inUse with
  | false =>
    rw [if_pos (show (!false) = true from rfl)]
    exact ⟨fun h => .inl ⟨rfl, (Option.some.inj h).symm⟩,
      fun h => h.elim (fun h => congrArg some h.2.symm) (fun h => nomatch h.1)⟩
  | true =>
    rw [if_neg (by decide), guarded_iff, List.all_eq_true, and_assoc, and_assoc, and_assoc, and_assoc]
    have hall : (∀ f ∈ e.effects, effectOk f = true) ↔ ∀ f ∈ e.effects, EffectStands f :=
      forall₂_congr fun f _ => effectOk_iff f
    rw [hall]
    exact ⟨fun h => .inr ⟨rfl, h⟩, fun h => h.elim (fun h => nomatch h.1) And.right⟩

/-- A check of contents passes what its table's rule asks, and stores what the rule makes of it. -/
theorem checkContents_iff (t : Tables) (i : Nat) (c c' : Contents) :
    checkContents t i c = some c' ↔ EntryStands t i c c' := by
  cases c with
  | node e =>
    unfold checkContents checkNode EntryStands
    rw [guarded_iff, List.all_eq_true]
    have hrep : (1 ≤ e.report ∧ e.report ≤ 251 ∨ e.report = 253 ∨ e.report = 255) ↔
        (e.report ≠ 0 ∧ e.report ≠ 252 ∧ e.report ≠ 254 ∧ e.report ≤ 255) := by omega
    simp only [hrep, decide_eq_true_eq, and_assoc]
  | detZone e =>
    unfold checkContents checkDetZone EntryStands
    rw [guarded_iff, levelOk_iff, sector_iff, and_assoc]
  | spkZone e =>
    unfold checkContents checkSpkZone EntryStands sectorOk
    rw [guarded_iff, spanOk_iff, isNamed_iff, decide_eq_true_eq, and_assoc, and_assoc]
  | localIn e => exact checkLocalIn_iff t i e c'
  | ceEntry e => exact checkCeEntry_iff e c'
  | template e =>
    unfold checkContents checkTemplate EntryStands
    rw [guarded_iff]
    refine and_congr_left' ?_
    rw [Bool.not_eq_true', ← Bool.not_eq_true, Classical.or_iff_not_imp_left, Classical.not_not, templSourceOk_iff,
      templFallbackOk_iff]
    exact imp_congr_right fun _ => ⟨fun ⟨h1, h2, h3⟩ => ⟨h1, h2, h3⟩, fun ⟨h1, h2, h3⟩ => ⟨h1, h2, h3⟩⟩
  | originator e =>
    unfold checkContents checkOrig EntryStands
    rw [guarded_iff, Bool.not_eq_true', and_assoc]
  | cadence e =>
    unfold checkContents checkCadence EntryStands
    rw [guarded_iff, Bool.not_eq_true', ← Bool.not_eq_true, Classical.or_iff_not_imp_left, Classical.not_not]
  | phrase e =>
    unfold checkContents checkPhrase EntryStands
    rw [guarded_iff, and_assoc, and_assoc, Nat.lt_iff_le_pred (by decide)]
    exact Iff.rfl
  | program e =>
    have hclamp : clampStep = fun p => match p with
        | .named (.gap ms) => .named (.gap (min 10000 (max 10 ms)))
        | p => p := rfl
    unfold checkContents checkProgram EntryStands
    rw [guarded_iff, Bool.not_eq_true', ← Bool.not_eq_true, Classical.or_iff_not_imp_left, Classical.not_not]
    simp only [isNamed_iff, List.all_eq_true, stepOk_iff]
    rw [hclamp] <;> exact Iff.rfl
  | limits e =>
    unfold checkContents checkLimits EntryStands
    rw [guarded_iff, and_assoc, and_assoc, and_assoc]
  | window ms => exact ⟨fun h => (Option.some.inj h).symm, fun h => congrArg some h.symm⟩
  | warden e => exact ⟨fun h => (Option.some.inj h).symm, fun h => congrArg some h.symm⟩

end Sys2Proof.Machine

namespace Sys2Proof.Machine

/-! ## The entries of the tables (R200) -/

/-- Contents that pass their check are stored as contents of their own table. -/
theorem checkContents_fit {t : Tables} {i : Nat} {c c' : Contents} (h : checkContents t i c = some c') (table : Nat) :
    contentsFit table i c' = contentsFit table i c := by
  cases c with
  | window ms => rw [← Option.some.inj (show some (Contents.window (clampWindow ms)) = some c' from h)]; rfl
  | warden e => rw [← Option.some.inj (show some (Contents.warden (clampWarden e)) = some c' from h)]; rfl
  | _ =>
    obtain ⟨e', -, rfl⟩ := Option.map_eq_some_iff.1 h
    rfl

theorem getElem?_updNat {α : Type} {n : Nat} (v : Vector α n) (i j : Nat) (f : α → α) :
    (updNat v i f)[j]? = if i = j then v[j]?.map f else v[j]? := by
  unfold updNat
  split
  next h =>
    rw [Vector.getElem?_set]
    split
    next e =>
      subst e
      rw [Vector.getElem?_eq_getElem h]
      rfl
    · rfl
  next h =>
    split
    next e =>
      subst e
      rw [Vector.getElem?_eq_none (Nat.le_of_not_lt h)]
      rfl
    · rfl

/-- A vector entry put in place is the one read there, and no other. -/
theorem updNat_entry {α : Type} {n : Nat} (v : Vector α n) (i j : Nat) (x : α) (C : α → Contents) :
    ((updNat v i fun _ => x)[j]?).map C = if i = j ∧ v[j]? ≠ none then some (C x) else (v[j]?).map C := by
  rw [getElem?_updNat]
  by_cases e : i = j
  · rw [if_pos e]
    cases hv : v[j]? with
    | none => rw [if_neg (fun h => h.2 rfl)]; rfl
    | some y => rw [if_pos ⟨e, nofun⟩]; rfl
  · rw [if_neg e, if_neg fun h => e h.1]

/-- Another table than the one whose entry is replaced stands. -/
theorem entryOf_putEntry_table {w : Tables} {table i : Nat} {c : Contents} (hf : contentsFit table i c = true)
    {t : Nat} (ht : t ≠ table) (j : Nat) : entryOf (putEntry i c w) t j = entryOf w t j := by
  have htable : ∀ k, (table == k) = true → t ≠ k := fun k hk e => ht (e.trans (beq_iff_eq.1 hk).symm)
  cases c with
  | limits e =>
    have h := htable 10 (Bool.and_eq_true _ _ ▸ hf).1
    unfold entryOf
    split <;> first | rfl | exact absurd rfl h
  | window ms =>
    have h := htable 10 (Bool.and_eq_true _ _ ▸ hf).1
    unfold entryOf
    split <;> first | rfl | exact absurd rfl h
  | _ =>
    have h := htable _ hf
    unfold entryOf
    split <;> first | rfl | exact absurd rfl h

/-- The entry that is replaced reads as what was put there, the others of its table as before. -/
theorem entryOf_putEntry_self {w : Tables} {table i : Nat} {c : Contents} (hf : contentsFit table i c = true)
    (hn : entryOf w table i ≠ none) (j : Nat) :
    entryOf (putEntry i c w) table j = if j = i then some c else entryOf w table j := by
  have single : ∀ {x y : Contents}, (if i = 0 then some x else none) ≠ none →
      (if j = 0 then some y else none) = if j = i then some y else if j = 0 then some x else none := by
    intro x y h
    have hi : i = 0 := by
      by_contra h0
      exact h (if_neg h0)
    subst hi
    split <;> rfl
  have listed : ∀ {α : Type} {n : Nat} (v : Vector α n) (x : α) (C : α → Contents), (v[i]?).map C ≠ none →
      ((updNat v i fun _ => x)[j]?).map C = if j = i then some (C x) else (v[j]?).map C := by
    intro α n v x C h
    rw [updNat_entry]
    by_cases e : j = i
    · subst e
      rw [if_pos rfl, if_pos ⟨rfl, fun hv => h (by rw [hv]; rfl)⟩]
    · rw [if_neg e, if_neg fun h => e h.1.symm]
  cases c with
  | limits e =>
    obtain ⟨h10, h24⟩ := Bool.and_eq_true_iff.1 hf
    obtain rfl : table = 10 := beq_iff_eq.1 h10
    have h24 : i ≠ 24 := by simpa using h24
    show (if j = 24 then some (Contents.window w.window) else _) = if j = i then _ else
      if j = 24 then some (Contents.window w.window) else _
    have hn : (w.limits[i]?).map Contents.limits ≠ none := by
      have : entryOf w 10 i = (w.limits[i]?).map Contents.limits := if_neg h24
      rwa [this] at hn
    by_cases hj : j = 24
    · rw [if_pos hj, if_neg (fun e => h24 (e.symm.trans hj)), if_pos hj]
    · rw [if_neg hj, if_neg hj]
      exact listed _ _ _ hn
  | window ms =>
    obtain ⟨h10, h24⟩ := Bool.and_eq_true_iff.1 hf
    obtain rfl : table = 10 := beq_iff_eq.1 h10
    obtain rfl : i = 24 := beq_iff_eq.1 h24
    show (if j = 24 then some (Contents.window ms) else _) = if j = 24 then some (Contents.window ms) else
      if j = 24 then some (Contents.window w.window) else _
    by_cases hj : j = 24
    · rw [if_pos hj, if_pos hj]
    · rw [if_neg hj, if_neg hj, if_neg hj]
      rfl
  | node e =>
    obtain rfl : table = 0 := beq_iff_eq.1 hf
    exact single hn
  | warden e =>
    obtain rfl : table = 11 := beq_iff_eq.1 hf
    exact single hn
  | _ =>
    obtain rfl : table = _ := beq_iff_eq.1 hf
    exact listed _ _ _ hn

end Sys2Proof.Machine

namespace Sys2Proof.Machine

/-! ## What the effects of a table write leave (R200) -/

/-- From `s` to `t` only what the effects of a table write act on has changed, and messages have at most been
added to the outbound queue. -/
structure TableEffect (s t : State) : Prop where
  frame : t = { s with
    lists := t.lists, outs := t.outs, cads := t.cads, chans := t.chans, serving := t.serving
    phraseMissing := t.phraseMissing, reports := t.reports, reportOverflow := t.reportOverflow
    alarmLock := t.alarmLock, capture := t.capture, outbound := t.outbound, deferred := t.deferred
    warden := t.warden, inputs := t.inputs, lines := t.lines, amps := t.amps, standbyAmps := t.standbyAmps
    windowEnd := t.windowEnd, defaultMode := t.defaultMode }
  out   : s.outbound <+: t.outbound

namespace TableEffect
variable {s t u : State}

theorem refl (s : State) : TableEffect s s := ⟨rfl, List.prefix_rfl⟩

theorem trans (h : TableEffect s t) (g : TableEffect t u) : TableEffect s u := by
  obtain ⟨hf, ho⟩ := h
  obtain ⟨gf, go⟩ := g
  rw [hf] at gf
  exact ⟨gf, ho.trans go⟩

theorem lines (l : Vector ZoneLines 24) (s : State) : TableEffect s { s with lines := l } := ⟨rfl, List.prefix_rfl⟩

end TableEffect

theorem OnlyZones.tableEffect {s t : State} (h : OnlyZones s t) : TableEffect s t := by
  obtain ⟨hf, hq⟩ := h
  refine ⟨?_, hq.out⟩
  rw [hf]

theorem OnlyWarden.tableEffect {s t : State} (h : OnlyWarden s t) : TableEffect s t := by
  obtain ⟨hf, hq⟩ := h
  refine ⟨?_, hq⟩
  rw [hf]

theorem evalOutputLost_effect (z : Zone) (s : State) : TableEffect s (evalOutputLost z s) := by
  unfold evalOutputLost
  dsimp only
  split
  · exact (TableEffect.lines _ s).trans (report_onlyZones _ _).tableEffect
  · exact .lines _ s

theorem spkWritten_effect (z : Zone) (a b : SpkZone) (s : State) : TableEffect s (spkWritten z a b s) := by
  unfold spkWritten
  split
  · unfold zoneLeaves
    dsimp only
    have h1 : TableEffect s (setOut z mutedOut (setList z [] s)) := ⟨rfl, List.prefix_rfl⟩
    have h2 := h1.trans (listenerChange_onlyZones s.outs[z].effective .none _).tableEffect
    generalize listenerChange s.outs[z].effective .none (setOut z mutedOut (setList z [] s)) = v at h2
    have h3 : TableEffect v { v with
        lines := v.lines.set z { a := freshMon false, b := none, lost := false }
        amps := v.amps.set z (freshHealth v.amps[z].active false) } := ⟨rfl, List.prefix_rfl⟩
    exact h2.trans (h3.trans ((arbiter_onlyZones _).tableEffect.trans (updateLock_onlyZones _).tableEffect))
  · exact ⟨rfl, List.prefix_rfl⟩
  · have h1 : TableEffect s (trimChange z a b s) := by
      unfold trimChange
      split
      · exact .refl s
      · exact ⟨rfl, List.prefix_rfl⟩
    have h2 : ∀ u, TableEffect u (lineCfgChange z a b u) := fun u => by
      unfold lineCfgChange
      split
      · exact .refl u
      · exact (TableEffect.lines _ u).trans (evalOutputLost_effect z _)
    have h3 : ∀ u, TableEffect u (eligibleChange a b u) := fun u => by
      unfold eligibleChange
      split
      · exact .refl u
      · exact (arbiter_onlyZones u).tableEffect
    exact h1.trans ((h2 _).trans (h3 _))
  · exact .refl s

theorem atIndex_effect {n : Nat} {i : Nat} {f : Fin n → State → State} (h : ∀ k s, TableEffect s (f k s)) (s : State) :
    TableEffect s (atIndex i f s) := by
  unfold atIndex
  split
  · exact h _ s
  · exact .refl s

theorem inputWritten_effect (n : Fin 8) (e : LocalIn) (s : State) : TableEffect s (inputWritten n e s) := by
  unfold inputWritten
  dsimp only
  split <;> exact ⟨rfl, List.prefix_rfl⟩

theorem cadWritten_effect (n : Fin 4) (e : Cadence) (s : State) : TableEffect s (cadWritten n e s) :=
  ⟨rfl, List.prefix_rfl⟩

theorem limitsWritten_effect (z : Zone) (s : State) : TableEffect s (limitsWritten z s) := .lines _ s

theorem TableEffect.window (w : Option Nat) (l : Vector ZoneLines 24) (a : Vector Health 24) (b : Vector Health 2)
    (s : State) : TableEffect s { s with windowEnd := w, lines := l, amps := a, standbyAmps := b } :=
  ⟨rfl, List.prefix_rfl⟩

theorem windowRestart_effect (s : State) : TableEffect s (windowRestart s) := .window _ _ _ _ s

theorem writeEffects_effect (old : Tables) (i : Nat) (c : Contents) (s : State) :
    TableEffect s (writeEffects old i c s) := by
  cases c with
  | node e => exact .refl s
  | detZone e => exact .refl s
  | template e => exact .refl s
  | spkZone e => exact atIndex_effect (f := fun z => spkWritten z old.spk[z] e) (fun z => spkWritten_effect z _ _) s
  | localIn e => exact atIndex_effect (f := fun n => inputWritten n e) (fun n => inputWritten_effect n e) s
  | ceEntry e => exact ⟨rfl, List.prefix_rfl⟩
  | originator e =>
    exact atIndex_effect (f := fun k => origWritten k old.orig[k] e)
      (fun k s => (origWritten_onlyZones k _ _ s).tableEffect) s
  | cadence e => exact atIndex_effect (f := fun n => cadWritten n e) (fun n => cadWritten_effect n e) s
  | phrase e => exact (phraseWritten_onlyZones i s).tableEffect
  | program e =>
    exact atIndex_effect (f := fun n => progWritten n e) (fun n s => (progWritten_onlyZones n _ s).tableEffect) s
  | limits e => exact atIndex_effect limitsWritten_effect s
  | window ms => exact windowRestart_effect s
  | warden e => exact (wardenWritten_onlyWarden _ _ s).tableEffect

end Sys2Proof.Machine

namespace Sys2Proof.Machine

/-! ## TABLE WRITE refused or taken (R200) -/

section
variable {s : State} {q : Request} {table i : Nat} {c c' : Contents}

/-- A write that is refused after the checks of R198 is answered with its result, and changes nothing. -/
theorem write_refused {r : Result} (hout : writeOutcome s table i c = .error r)
    (h : Admitted s q (.tableWrite table i c) 1) :
    exec (.tableWrite q table i c) s = .next (repliedWith s q (.tableWrite table i c) r .none) := by
  have hadm : Admitted s q (.tableWrite table i c) (writeExtra table i c s + oneReply s) := by
    have : writeExtra table i c s = 0 := by
      unfold writeExtra
      rw [hout]
    rw [this]
    exact h
  have hout' : writeOutcome (inHand 1 s) table i c = .error r := hout
  refine (commandWith_leaves (s := s) (extra := writeExtra table i c) (own := oneReply) (v := inHand 1 s) (r := r)
    (d := .none) hadm ?_).trans rfl
  show (match writeOutcome (inHand 1 s) table i c with
    | .error r => reply ⟨q, .tableWrite table i c⟩ r .none (inHand 1 s)
    | .ok c' => replyDone ⟨q, .tableWrite table i c⟩ (writeTaken table i c' (inHand 1 s))) = _
  rw [hout']

/-- There is no table beyond the twelve (R200). -/
theorem tableSize_beyond {table : Nat} (h : 12 ≤ table) : tableSize table = 0 := by
  obtain ⟨k, rfl⟩ := Nat.exists_eq_add_of_le' h
  rfl

theorem tableSize_le_of_entry {t : Tables} (h : entryOf t table i = none) : tableSize table ≤ i := by
  have listed : ∀ {α : Type} {n : Nat} (v : Vector α n) (C : α → Contents), (v[i]?).map C = none → n ≤ i := by
    intro α n v C hv
    by_contra hlt
    rw [Vector.getElem?_eq_getElem (Nat.lt_of_not_le hlt)] at hv
    cases hv
  have single : ∀ {x : Contents}, (if i = 0 then some x else none) = none → 1 ≤ i := by
    intro x hx
    by_contra h0
    rw [if_pos (by omega)] at hx
    cases hx
  unfold entryOf at h
  split at h
  · exact single h
  · exact listed _ _ h
  · exact listed _ _ h
  · exact listed _ _ h
  · exact listed _ _ h
  · exact listed _ _ h
  · exact listed _ _ h
  · exact listed _ _ h
  · exact listed _ _ h
  · exact listed _ _ h
  · split at h
    · cases h
    next hi =>
      have := listed _ _ h
      show 25 ≤ i
      omega
  · exact single h
  next h0 h1 h2 h3 h4 h5 h6 h7 h8 h9 h10 h11 =>
    rw [tableSize_beyond (by simp only [imp_false] at *; omega)]
    exact Nat.zero_le i

/-- The contents of a write that is admitted belong to its table (R198). -/
theorem contentsFit_of {n : Nat} (h : Admitted s q (.tableWrite table i c) n) (hn : entryOf s.work table i ≠ none) :
    contentsFit table i c = true := by
  have hfit : bodyFits ⟨q, .tableWrite table i c⟩ = true := by
    have := h.admitted
    unfold refusalOf at this
    by_contra hb
    rw [show (unknownCode (.tableWrite table i c)) = false from rfl, if_neg Bool.false_ne_true] at this
    split at this
    · cases this
    split at this
    · cases this
    · rw [if_pos (by simpa using hb)] at this
      cases this
  have hbody := (Bool.and_eq_true_iff.1 hfit).2
  rcases Bool.or_eq_true_iff.1 hbody with hb | hb
  · exact hb
  · exact absurd (of_decide_eq_true hb) (tableSize_pos_of_entry hn)

/-- What a taken write leaves in the tables, and what it leaves as it was. -/
theorem writeTaken_stands (hn : entryOf s.work table i ≠ none) (hf : contentsFit table i c' = true) :
    let u : State := { writeTaken table i c' (inHand 1 s) with reserved := 0 }
    entryOf u.work table i = some c' ∧
      (∀ t j, (t ≠ table ∨ j ≠ i) → entryOf u.work t j = entryOf s.work t j) ∧
      u.nv = s.nv ∧ u.nvOk = s.nvOk ∧ u.invalid = s.invalid ∧ u.store = s.store ∧
      u.acts = s.acts ∧ u.hold = s.hold ∧ u.rif = s.rif ∧ u.slots = s.slots ∧
      u.cmdQueue = s.cmdQueue.tail ∧ s.outbound <+: u.outbound ∧ u.commit = s.commit ∧
      u.phase = s.phase ∧ u.now = s.now ∧ u.pins = s.pins ∧
      (entryOf s.work table i = some c' → u = leftQueue s) := by
  intro u
  by_cases hs : entryOf s.work table i = some c'
  · have hu : u = leftQueue s := by
      show ({ writeTaken table i c' (inHand 1 s) with reserved := 0 } : State) = leftQueue s
      rw [show writeTaken table i c' (inHand 1 s) = inHand 1 s from if_pos hs]
      rfl
    rw [hu]
    exact ⟨hs, fun _ _ _ => rfl, rfl, rfl, rfl, rfl, rfl, rfl, rfl, rfl, rfl, List.prefix_rfl, rfl, rfl, rfl, rfl,
      fun _ => rfl⟩
  · have hw : writeTaken table i c' (inHand 1 s) = writeEffects s.work i c' (inWriting i c' s) := if_neg hs
    obtain ⟨hframe, hout⟩ := writeEffects_effect s.work i c' (inWriting i c' s)
    have hu : u = { writeEffects s.work i c' (inWriting i c' s) with reserved := 0 } := by rw [← hw]
    generalize writeEffects s.work i c' (inWriting i c' s) = v at hframe hout hu
    rw [hu, hframe]
    refine ⟨?_, fun t j ht => ?_, rfl, rfl, rfl, rfl, rfl, rfl, rfl, rfl, rfl, hout, rfl, rfl, rfl, rfl,
      fun h => absurd h hs⟩
    · show entryOf (putEntry i c' s.work) table i = _
      rw [entryOf_putEntry_self hf hn, if_pos rfl]
    · show entryOf (putEntry i c' s.work) t j = _
      by_cases e : t = table
      · subst e
        rw [entryOf_putEntry_self hf hn, if_neg (ht.resolve_left fun h => h rfl)]
      · exact entryOf_putEntry_table hf e j

end

end Sys2Proof.Machine

namespace Sys2Proof.Machine

/-! ## Speaker Zone Map writes (R8) -/

section
variable {s : State} {z : Zone}

theorem OnlyZones.lines {s t : State} (h : OnlyZones s t) : t.lines = s.lines := by rw [h.frame]
theorem OnlyZones.amps {s t : State} (h : OnlyZones s t) : t.amps = s.amps := by rw [h.frame]
theorem OnlyZones.standbyAmps {s t : State} (h : OnlyZones s t) : t.standbyAmps = s.standbyAmps := by rw [h.frame]

/-- The state in which the arbiter runs for a zone that leaves use. -/
def zoneOut (z : Zone) (s : State) : State :=
  let s1 := listenerChange s.outs[z].effective .none (setOut z mutedOut (setList z [] s))
  { s1 with
    lines := s1.lines.set z { a := freshMon false, b := none, lost := false }
    amps := s1.amps.set z (freshHealth s1.amps[z].active false) }

theorem zoneLeaves_eq (z : Zone) (s : State) : zoneLeaves z s = updateLock (arbiter (zoneOut z s)) := rfl

theorem zoneOut_frame (z : Zone) (s : State) : (zoneOut z s).lists = s.lists.set z [] ∧
    (zoneOut z s).lines = s.lines.set z { a := freshMon false, b := none, lost := false } ∧
    (zoneOut z s).amps = s.amps.set z (freshHealth s.amps[z].active false) ∧
    (zoneOut z s).serving = s.serving ∧ (zoneOut z s).standbyAmps = s.standbyAmps := by
  have hs := listenerChange_sounds s.outs[z].effective .none (setOut z mutedOut (setList z [] s))
  unfold SoundsOnly at hs
  unfold zoneOut
  generalize listenerChange s.outs[z].effective .none (setOut z mutedOut (setList z [] s)) = v at hs
  rw [hs]
  exact ⟨rfl, rfl, rfl, rfl, rfl⟩

theorem zoneLeaves_lines (z : Zone) (s : State) : (zoneLeaves z s).lines =
    s.lines.set z { a := freshMon false, b := none, lost := false } := by
  rw [zoneLeaves_eq, (updateLock_onlyZones _).lines, (arbiter_onlyZones _).lines, (zoneOut_frame z s).2.1]

theorem zoneLeaves_amps (z : Zone) (s : State) : (zoneLeaves z s).amps =
    s.amps.set z (freshHealth s.amps[z].active false) := by
  rw [zoneLeaves_eq, (updateLock_onlyZones _).amps, (arbiter_onlyZones _).amps, (zoneOut_frame z s).2.2.1]

/-- No standby channel serves a zone that has left use (R166). -/
theorem zoneLeaves_unserved (h : OneFeed s) (k : Fin 2) : (zoneLeaves z s).serving[k] ≠ some z := by
  obtain ⟨hl, -, -, hserv, hamps⟩ := zoneOut_frame z s
  have hone : OneFeed (zoneOut z s) := by
    unfold OneFeed
    rw [hserv, hamps]
    exact h
  rw [zoneLeaves_eq, updateLock_serving]
  intro hz
  have hf := ((arbiter_settles hone).serves k z hz).2
  have hempty : (arbiter (zoneOut z s)).lists[z] = [] := by
    rw [(arbiter_pool _).hands.lists, hl]
    exact vector_set_self _ _ _
  rw [failedZone_empty hempty] at hf
  cases hf

/-- A zone that leaves use (R6, R8, R103). -/
theorem spkWritten_leaves {a b : SpkZone} (ha : a.inUse = true) (hb : b.inUse = false) :
    spkWritten z a b s = zoneLeaves z s := by
  unfold spkWritten
  rw [ha, hb]

theorem spkWritten_enters {a b : SpkZone} (ha : a.inUse = false) (hb : b.inUse = true) :
    spkWritten z a b s = zoneEnters z b s := by
  unfold spkWritten
  rw [ha, hb]

theorem spkWritten_unused {a b : SpkZone} (ha : a.inUse = false) (hb : b.inUse = false) :
    spkWritten z a b s = s := by
  unfold spkWritten
  rw [ha, hb]

theorem spkWritten_changes {a b : SpkZone} (ha : a.inUse = true) (hb : b.inUse = true) :
    spkWritten z a b s = eligibleChange a b (lineCfgChange z a b (trimChange z a b s)) := by
  unfold spkWritten
  rw [ha, hb]

theorem trimChange_same {a b : SpkZone} (h : a.trim = b.trim) : trimChange z a b s = s := if_pos h

theorem lineCfgChange_same {a b : SpkZone} (h : a.lineCfg = b.lineCfg) : lineCfgChange z a b s = s := if_pos h

theorem eligibleChange_same {a b : SpkZone} (h : a.eligible = b.eligible) : eligibleChange a b s = s := if_pos h

/-- The state with the lines of one zone replaced. -/
def withLines (z : Zone) (l : ZoneLines) (s : State) : State := { s with lines := s.lines.set z l }

theorem withLines_get (z : Zone) (l : ZoneLines) (s : State) : (withLines z l s).lines[z] = l :=
  vector_set_self _ _ _

theorem withLines_again (z : Zone) (l l' : ZoneLines) (s : State) :
    withLines z l' (withLines z l s) = withLines z l' s := by
  unfold withLines
  dsimp only
  rw [Vector.set_set]

/-- OUTPUT LOST evaluated without its coming (R164). -/
theorem evalOutputLost_quiet (h : outputLostNow s z = true → s.lines[z].lost = true) :
    evalOutputLost z s = withLines z { s.lines[z] with lost := outputLostNow s z } s := by
  unfold evalOutputLost
  refine if_neg fun hc => ?_
  obtain ⟨h1, h2⟩ := Bool.and_eq_true_iff.1 hc
  rw [h h1] at h2
  cases h2

/-- The coming of OUTPUT LOST is reported (R164). -/
theorem evalOutputLost_comes (h : outputLostNow s z = true) (hl : s.lines[z].lost = false) :
    evalOutputLost z s = report (.outputLost z s.lines[z].a.state (s.lines[z].b.map fun m => m.state))
      (withLines z { s.lines[z] with lost := true } s) := by
  unfold evalOutputLost
  dsimp only
  rw [h, hl]
  rfl

theorem lineCfgChange_other {a b : SpkZone} (h : a.lineCfg ≠ b.lineCfg) : lineCfgChange z a b s =
    evalOutputLost z (withLines z { s.lines[z] with b := lineBFor b false } s) := if_neg h

theorem outputLostNow_withLines (hp : s.phase = .running) (hu : s.work.spk[z].inUse = true) (l : ZoneLines) :
    outputLostNow (withLines z l s) z = true ↔ l.a.state = .short ∧ ∀ b, l.b = some b → b.state = .short := by
  have h := outputLostNow_iff (s := withLines z l s) hp hu
  rw [withLines_get] at h
  exact h

/-- A zone comes to two lines: line B is created, and an output is not lost on an untested line (R8, R164). -/
theorem lineCfgChange_added {a b : SpkZone} (h : a.lineCfg ≠ b.lineCfg) (hb : b.lineCfg = .aAndB)
    (hp : s.phase = .running) (hu : s.work.spk[z].inUse = true) :
    lineCfgChange z a b s =
      withLines z { s.lines[z] with b := some (freshMon false), lost := false } s := by
  have hline : lineBFor b false = some (freshMon false) := by unfold lineBFor; rw [hb]
  have hlost : outputLostNow (withLines z { s.lines[z] with b := some (freshMon false) } s) z = false := by
    refine Bool.eq_false_iff.2 fun hl => ?_
    have := ((outputLostNow_withLines hp hu _).1 hl).2 _ rfl
    cases this
  rw [lineCfgChange_other h, hline, evalOutputLost_quiet (fun hl => absurd (hlost.symm.trans hl) Bool.false_ne_true),
    hlost, withLines_again, withLines_get]

/-- A zone comes to one line: OUTPUT LOST holds where that is SHORT (R8, R164). -/
theorem lineCfgChange_removed {a b : SpkZone} (h : a.lineCfg ≠ b.lineCfg) (hb : b.lineCfg = .aOnly)
    (hp : s.phase = .running) (hu : s.work.spk[z].inUse = true) :
    (s.lines[z].a.state = .short → s.lines[z].lost = false → lineCfgChange z a b s =
      report (.outputLost z .short none) (withLines z { s.lines[z] with b := none, lost := true } s)) ∧
    ((s.lines[z].a.state ≠ .short ∨ s.lines[z].lost = true) → lineCfgChange z a b s =
      withLines z { s.lines[z] with b := none, lost := decide (s.lines[z].a.state = .short) } s) := by
  have hline : lineBFor b false = none := by unfold lineBFor; rw [hb]
  have hlost : outputLostNow (withLines z { s.lines[z] with b := none } s) z = decide (s.lines[z].a.state = .short) := by
    rw [Bool.eq_iff_iff, outputLostNow_withLines hp hu, decide_eq_true_eq]
    exact ⟨And.left, fun h => ⟨h, nofun⟩⟩
  rw [lineCfgChange_other h, hline]
  refine ⟨fun hs hl => ?_, fun hs => ?_⟩
  · rw [evalOutputLost_comes (hlost.trans (decide_eq_true hs)) (by rw [withLines_get]; exact hl), withLines_again,
      withLines_get, hs]
    rfl
  · rw [evalOutputLost_quiet, hlost, withLines_again, withLines_get]
    intro hl
    rw [withLines_get]
    rw [hlost, decide_eq_true_eq] at hl
    exact hs.resolve_left fun hn => hn hl

end

end Sys2Proof.Machine

namespace Sys2Proof.Machine

/-- What the leaving of a zone from use leaves (R6, R8, R103, R166). -/
structure ZoneLeft (z : Zone) (s u : State) : Prop where
  emptied  : u.lists[z] = []
  muted    : u.outs[z] = mutedOut
  lines    : u.lines[z] = { a := freshMon false, b := none, lost := false }
  amps     : u.amps[z] = freshHealth s.amps[z].active false
  unserved : OneFeed s → ∀ k : Fin 2, u.serving[k] ≠ some z
  others   : ∀ y, y ≠ z → u.lists[y] = s.lists[y] ∧ u.outs[y] = s.outs[y] ∧ u.lines[y] = s.lines[y] ∧
    u.amps[y] = s.amps[y]

theorem zoneLeaves_left (z : Zone) (s : State) : ZoneLeft z s (zoneLeaves z s) where
  emptied := by rw [zoneLeaves_lists]; exact setList_self z [] s
  muted := by rw [zoneLeaves_outs]; exact setOut_self z mutedOut s
  lines := by rw [zoneLeaves_lines]; exact vector_set_self _ _ _
  amps := by rw [zoneLeaves_amps]; exact vector_set_self _ _ _
  unserved h := zoneLeaves_unserved h
  others y hy := by
    rw [zoneLeaves_lists, zoneLeaves_outs, zoneLeaves_lines, zoneLeaves_amps]
    exact ⟨setList_other hy [] s, setOut_other hy mutedOut s, vector_set_other hy _ _, vector_set_other hy _ _⟩

section
variable {s v : State} {q : Request} {z : Zone} {e e' : SpkZone}

/-- A Speaker Zone Map write leaves what its effects make of the state with the entry replaced. -/
theorem spkWrite_leaves (h : WriteTaken s q 2 z.val (.spkZone e) (.spkZone e'))
    (hv : spkWritten z s.work.spk[z] e' (inWriting z.val (.spkZone e') s) = v) :
    writeLeaves s q 2 z.val (.spkZone e) { v with reserved := 0 } := by
  refine h.leaves ?_
  subst hv
  exact congrArg (fun v : State => { v with reserved := 0 })
    (atIndex_fin z (fun z => spkWritten z s.work.spk[z] e') (inWriting z.val (.spkZone e') s))

theorem spkWrite_changes (h : WriteTaken s q 2 z.val (.spkZone e) (.spkZone e')) : e' ≠ s.work.spk[z] := by
  intro he
  refine h.changes ?_
  show (s.work.spk[z.val]?).map Contents.spkZone = _
  rw [Vector.getElem?_eq_getElem z.isLt, he]
  rfl

theorem WriteTaken.running {table i : Nat} {c c' : Contents} (h : WriteTaken s q table i c c') : s.phase = .running :=
  (mayBegin_facts h.begins.room).1

/-- A zone leaves use (R6, R8, R103, R166). -/
theorem spkWrite_unused (h : WriteTaken s q 2 z.val (.spkZone e) (.spkZone e')) (ho : s.work.spk[z].inUse = true)
    (hn : e'.inUse = false) : ∃ u : State, writeLeaves s q 2 z.val (.spkZone e) u ∧ u.lists[z] = [] ∧
      u.outs[z] = mutedOut ∧ u.lines[z] = { a := freshMon false, b := none, lost := false } ∧
      u.amps[z] = freshHealth s.amps[z].active false ∧ (OneFeed s → ∀ k : Fin 2, u.serving[k] ≠ some z) ∧
      ∀ y, y ≠ z → u.lists[y] = s.lists[y] ∧ u.outs[y] = s.outs[y] ∧ u.lines[y] = s.lines[y] ∧
        u.amps[y] = s.amps[y] := by
  have hleft := zoneLeaves_left z (inWriting z.val (.spkZone e') s)
  have hw := spkWrite_leaves h (spkWritten_leaves ho hn)
  generalize zoneLeaves z (inWriting z.val (.spkZone e') s) = v at hleft hw
  obtain ⟨h1, h2, h3, h4, h5, h6⟩ := hleft
  exact ⟨_, hw, h1, h2, h3, h4, h5, h6⟩

/-- A zone enters use (R8, R161). -/
theorem spkWrite_enters (h : WriteTaken s q 2 z.val (.spkZone e) (.spkZone e')) (ho : s.work.spk[z].inUse = false)
    (hn : e'.inUse = true) : writeLeaves s q 2 z.val (.spkZone e) { written z.val (.spkZone e') s with
      lines := s.lines.set z (
        { a := freshMon false, b := if e'.lineCfg = .aAndB then some (freshMon false) else none, lost := false })
      amps := s.amps.set z (freshHealth s.amps[z].active false) } := by
  have hline : lineBFor e' false = if e'.lineCfg = .aAndB then some (freshMon false) else none := by
    unfold lineBFor
    cases e'.lineCfg <;> rfl
  have hw := spkWrite_leaves h (spkWritten_enters ho hn)
  unfold zoneEnters at hw
  rw [hline] at hw
  exact hw

/-- A change of a zone that stays in use. -/
theorem spkWrite_stays (h : WriteTaken s q 2 z.val (.spkZone e) (.spkZone e')) (ho : s.work.spk[z].inUse = true)
    (hn : e'.inUse = true) : writeLeaves s q 2 z.val (.spkZone e)
      { eligibleChange s.work.spk[z] e' (lineCfgChange z s.work.spk[z] e'
        (trimChange z s.work.spk[z] e' (inWriting z.val (.spkZone e') s))) with reserved := 0 } :=
  spkWrite_leaves h (spkWritten_changes ho hn)

/-- A new trim sets the target anew (R8, R107). -/
theorem spkWrite_trim (h : WriteTaken s q 2 z.val (.spkZone e) (.spkZone e')) (ho : s.work.spk[z].inUse = true)
    (hn : e'.inUse = true) (he : e' = { s.work.spk[z] with trim := e'.trim }) :
    writeLeaves s q 2 z.val (.spkZone e) { written z.val (.spkZone e') s with outs := s.outs.set z (
      { s.outs[z] with target := targetOf s.outs[z].source s.outs[z].prio s.outs[z].atten e'.trim }) } := by
  have hne : s.work.spk[z].trim ≠ e'.trim := fun ht => spkWrite_changes h (by rw [he, ← ht])
  have hw := spkWrite_stays h ho hn
  rw [eligibleChange_same (by rw [he]), lineCfgChange_same (by rw [he])] at hw
  unfold trimChange at hw
  rw [if_neg hne] at hw
  exact hw

/-- A new line configuration makes or removes line B (R8, R164). -/
theorem spkWrite_added (h : WriteTaken s q 2 z.val (.spkZone e) (.spkZone e')) (ho : s.work.spk[z].inUse = true)
    (hn : e'.inUse = true) (he : e' = { s.work.spk[z] with lineCfg := .aAndB }) :
    writeLeaves s q 2 z.val (.spkZone e) { written z.val (.spkZone e') s with
      lines := s.lines.set z ({ a := s.lines[z].a, b := some (freshMon false), lost := false }) } := by
  have hcfg : e'.lineCfg = .aAndB := by rw [he]
  have hne : s.work.spk[z].lineCfg ≠ e'.lineCfg := fun ht =>
    spkWrite_changes h (by rw [he, ← hcfg, ← ht])
  have hw := spkWrite_stays h ho hn
  have hself : (inWriting z.val (.spkZone e') s).work.spk[z].inUse = true := by
    rw [show (inWriting z.val (.spkZone e') s).work.spk[z] = e' from putEntry_spk_self z e' s.work]
    exact hn
  rw [eligibleChange_same (by rw [he]), trimChange_same (by rw [he]),
    lineCfgChange_added (s := inWriting z.val (.spkZone e') s) hne hcfg h.running hself] at hw
  exact hw

theorem spkWrite_removed (h : WriteTaken s q 2 z.val (.spkZone e) (.spkZone e')) (ho : s.work.spk[z].inUse = true)
    (hn : e'.inUse = true) (he : e' = { s.work.spk[z] with lineCfg := .aOnly }) :
    (s.lines[z].a.state = .short → s.lines[z].lost = false → writeLeaves s q 2 z.val (.spkZone e)
      (report (.outputLost z .short none) { written z.val (.spkZone e') s with
        lines := s.lines.set z ({ a := s.lines[z].a, b := none, lost := true }) })) ∧
    ((s.lines[z].a.state ≠ .short ∨ s.lines[z].lost = true) → writeLeaves s q 2 z.val (.spkZone e)
      { written z.val (.spkZone e') s with
        lines := s.lines.set z ({ a := s.lines[z].a, b := none, lost := decide (s.lines[z].a.state = .short) }) }) := by
  have hcfg : e'.lineCfg = .aOnly := by rw [he]
  have hne : s.work.spk[z].lineCfg ≠ e'.lineCfg := fun ht =>
    spkWrite_changes h (by rw [he, ← hcfg, ← ht])
  have hw := spkWrite_stays h ho hn
  have hself : (inWriting z.val (.spkZone e') s).work.spk[z].inUse = true := by
    rw [show (inWriting z.val (.spkZone e') s).work.spk[z] = e' from putEntry_spk_self z e' s.work]
    exact hn
  obtain ⟨h1, h2⟩ := lineCfgChange_removed (s := inWriting z.val (.spkZone e') s) hne hcfg h.running hself
  rw [eligibleChange_same (by rw [he]), trimChange_same (by rw [he])] at hw
  refine ⟨fun hs hl => ?_, fun hs => ?_⟩
  · rw [h1 hs hl, report_giveBack] at hw
    exact hw
  · rw [h2 hs] at hw
    exact hw

/-- A new eligibility runs the arbiter (R8, R167). -/
theorem spkWrite_eligible (h : WriteTaken s q 2 z.val (.spkZone e) (.spkZone e')) (ho : s.work.spk[z].inUse = true)
    (hn : e'.inUse = true) (he : e' = { s.work.spk[z] with eligible := e'.eligible }) :
    ∃ u : State, writeLeaves s q 2 z.val (.spkZone e) u ∧ (OneFeed s → PoolSettled u) ∧
      u = { written z.val (.spkZone e') s with
        serving := u.serving, reports := u.reports, reportOverflow := u.reportOverflow } := by
  have hne : s.work.spk[z].eligible ≠ e'.eligible := fun ht => spkWrite_changes h (by rw [he, ← ht])
  have hw := spkWrite_stays h ho hn
  rw [trimChange_same (by rw [he]), lineCfgChange_same (by rw [he])] at hw
  unfold eligibleChange at hw
  rw [if_neg hne] at hw
  have hpool := arbiter_pool (inWriting z.val (.spkZone e') s)
  have hset : OneFeed s → PoolSettled (arbiter (inWriting z.val (.spkZone e') s)) := fun hf =>
    arbiter_settles (s := inWriting z.val (.spkZone e') s) hf
  unfold PoolOnly at hpool
  generalize arbiter (inWriting z.val (.spkZone e') s) = v at hw hpool hset
  refine ⟨_, hw, fun hf => ⟨(hset hf).serves, (hset hf).waits⟩, ?_⟩
  rw [hpool]
  rfl

end

/-- The contents that a taken write stores belong to its table. -/
theorem WriteTaken.fit {s : State} {q : Request} {table i : Nat} {c c' : Contents} (h : WriteTaken s q table i c c') :
    contentsFit table i c' = true :=
  (checkContents_fit h.passes table).trans (contentsFit_of h.begins h.names)

/-- A write of Node Identity, of a detection zone or of a template has no further effect. -/
theorem writeEffects_plain {table i : Nat} {c : Contents} (hf : contentsFit table i c = true)
    (ht : table = 0 ∨ table = 1 ∨ table = 5) (old : Tables) (s : State) : writeEffects old i c s = s := by
  cases c with
  | node e => rfl
  | detZone e => rfl
  | template e => rfl
  | _ => rcases ht with rfl | rfl | rfl <;> cases hf

/-- A write of the Cause-and-Effect Table settles DEFAULT MODE anew (R24). -/
theorem writeEffects_causes {i : Nat} {c : Contents} (hf : contentsFit 4 i c = true) (old : Tables) (s : State) :
    writeEffects old i c s = { s with defaultMode := ceEmpty s.work } := by
  cases c with
  | ceEntry e => rfl
  | _ => cases hf

/-- Settles O56: a taken write replaces its entry, and the effects of its table act on nothing else. -/
theorem tableIsWritten : Obligations.TableWritten := by
  unfold Obligations.TableWritten
  refine ⟨checkContents_iff, fun s q table i c c' h => ⟨fun ht => ?_, fun ht => ?_⟩, fun s q z e e' h => ?_,
    fun s q table i c => ⟨fun h => ⟨fun hn => ?_, fun hn hc => ?_, fun x hn hc hx ht hi => ?_, fun hn hc hx hk => ?_⟩,
      fun c' hn hc hx hk h => ?_⟩⟩
  · refine h.leaves ?_
    rw [writeEffects_plain h.fit ht]
    rfl
  · subst ht
    refine h.leaves ?_
    rw [writeEffects_causes h.fit]
    rfl
  · intro leaves w old l untested health lines
    exact ⟨fun ho hn => (spkWrite_unused h ho hn), spkWrite_enters h,
      fun ho hn => spkWrite_leaves h (spkWritten_unused ho hn), fun ho hn => ⟨fun ⟨lo, hi, sec, kind, he⟩ => by
        have hw := spkWrite_stays h ho hn
        rw [trimChange_same (by rw [he]), lineCfgChange_same (by rw [he]), eligibleChange_same (by rw [he])] at hw
        exact hw, spkWrite_trim h ho hn, spkWrite_added h ho hn, spkWrite_removed h ho hn, spkWrite_eligible h ho hn⟩⟩
  · exact write_refused (if_pos (tableSize_le_of_entry hn)) h
  · refine write_refused ?_ h
    unfold writeOutcome
    rw [if_neg (tableSize_pos_of_entry hn), if_pos (Option.isSome_iff_ne_none.2 hc)]
  · refine write_refused ?_ h
    unfold writeOutcome captureHolds
    rw [if_neg (tableSize_pos_of_entry hn), hc, hx, ht, hi]
    simp
  · refine write_refused ?_ h
    have hcap : captureHolds s table i = false := by
      unfold captureHolds
      split
      next x hx' => simpa using hx x hx'
      next => rfl
    unfold writeOutcome
    rw [if_neg (tableSize_pos_of_entry hn), hc, hcap, hk]
    rfl
  · have hfit := (checkContents_fit hk table).trans (contentsFit_of h hn)
    have hstands := writeTaken_stands (s := s) (table := table) (i := i) (c' := c') hn hfit
    rw [hc] at hstands
    exact ⟨_, write_leaves (writeOutcome_taken hn hc hx hk) h, hstands⟩

end Sys2Proof.Machine

namespace Sys2Proof.Machine

/-! ## RESTART takes effect (O58) -/

section
variable {s : State} {b : Bool}

/-- The state after the channels and the ring have restarted, before outputs, cadences, warden and supervision. -/
def restartRung (b : Bool) (s : State) : State := ringToOutputs (ringAnew (chansRestart (restartBegun b s)))

theorem restartEffect_tail (b : Bool) (s : State) : restartEffect b s =
    supervisionRestart (wardenRestart (cadsRestart (outsRestart (restartRung b s)))) := rfl

/-- What the restart of outputs, cadences, warden and supervision makes of a state. -/
theorem restartTail_eq (v : State) : supervisionRestart (wardenRestart (cadsRestart (outsRestart v))) = { v with
    outs := (outsRestart v).outs
    cads := (cadsRestart v).cads
    warden := { v.warden with
      taken := false, due := none, key := .released, slot := .none
      fresh := some ⟨v.now + 50, v.pins.keyClosed⟩ }
    serving := Vector.replicate 2 none
    windowEnd := some (v.now + v.work.window)
    lines := updAll (updAll v.lines freshLines) fun l => { l with a := monRestart l.a, b := l.b.map monRestart }
    amps := updAll (updAll v.amps fun h => freshHealth h.active true) healthRestart
    standbyAmps := updAll (updAll v.standbyAmps fun h => freshHealth h.active true) healthRestart } := by
  unfold supervisionRestart windowRestart wardenRestart cadsRestart outsRestart setWarden
  rfl

theorem restartBegun_eq (b : Bool) (s : State) : restartBegun b s = { s with
    cmdQueue := [], deferred := [], outbound := [], restart := none, capture := none
    reports := [⟨.warmRestart s.cmdQueue.length b, s.now⟩]
    rif := { s.rif with fwd := [], returns := [], tx := none, rx := none, arrived := [] }
    slots := (s.outbound.filterMap noticeOf).foldl takeBack s.slots } := by
  unfold restartBegun report emptyQueues setRif
  rfl

/-- What a RESTART leaves of the router, but for what the zones, cadences and channels make of it. -/
theorem restartRung_eq (b : Bool) (s : State) : restartRung b s = { s with
    cmdQueue := [], deferred := [], outbound := [], restart := none, capture := none
    reports := (restartRung b s).reports, reportOverflow := (restartRung b s).reportOverflow
    rif := { s.rif with
      ring := .seeking, since := s.now, run := 0, runStart := none, heard := silentSlots
      passing := false, fwd := [], returns := [], tx := none, rx := none, arrived := [] }
    slots := (s.outbound.filterMap noticeOf).foldl takeBack s.slots
    isoTimer := none, isoEscalated := false, msDue := false, sampleTimes := 0
    outs := (restartRung b s).outs, cads := (restartRung b s).cads, chans := (restartRung b s).chans
    phraseMissing := (restartRung b s).phraseMissing } := by
  have h1 := chansRestart_sounds (restartBegun b s)
  have h2 := ringToOutputs_frame (ringAnew (chansRestart (restartBegun b s)))
  have h0 := restartBegun_eq b s
  unfold SoundsOnly at h1
  unfold restartRung
  generalize restartBegun b s = v0 at h0 h1 h2
  generalize chansRestart v0 = v1 at h1 h2
  generalize ringToOutputs (ringAnew v1) = v3 at h2
  rw [h2, h1, h0]
  rfl

/-! ### The reports, the outputs and the cadences -/

theorem ringAnew_later (v : State) : Later v (ringAnew v) := .same rfl rfl

theorem restartRung_later (b : Bool) (s : State) : Later (restartBegun b s) (restartRung b s) :=
  (chansRestart_later _).trans ((ringAnew_later _).trans (ringToOutputs_later _))

theorem restartTail_reports (v : State) :
    (supervisionRestart (wardenRestart (cadsRestart (outsRestart v)))).reports = v.reports := by
  rw [restartTail_eq]

theorem restartEffect_reports (b : Bool) (s : State) :
    [⟨.warmRestart s.cmdQueue.length b, s.now⟩] <+: (restartEffect b s).reports := by
  have h := (restartRung_later b s).reports
  have h0 : (restartBegun b s).reports = [⟨.warmRestart s.cmdQueue.length b, s.now⟩] :=
    congrArg State.reports (restartBegun_eq b s)
  rw [restartEffect_tail, restartTail_reports]
  rw [h0] at h
  exact h

/-- Every zone plays its own source and fades in from 120 (R114). -/
theorem restartEffect_fadesIn (b : Bool) (s : State) (z : Zone) :
    (restartEffect b s).outs[z].source = s.outs[z].source ∧ (restartEffect b s).outs[z].target = s.outs[z].target ∧
      (restartEffect b s).outs[z].current = 120 ∧
      (s.work.spk[z].inUse = true →
        (restartEffect b s).outs[z].effective = s.outs[z].source ∧
        (restartEffect b s).outs[z].substituted = false) := by
  rw [restartEffect_outs]
  have heff : effectiveOf .seeking s.outs[z].source s.outs[z].fallback = (s.outs[z].source, false) :=
    effectiveOf_own (by decide) _ _
  unfold zoneInUse spk settleSource
  rw [heff]
  cases hu : s.work.spk[z].inUse with
  | true => exact ⟨rfl, rfl, rfl, fun _ => ⟨rfl, rfl⟩⟩
  | false => exact ⟨rfl, rfl, rfl, nofun⟩

/-- A cadence at a restart: with listeners at the beginning of its on-time, stopped otherwise (R122). -/
theorem cadsRestart_get (v : State) (n : Fin 4) : (cadsRestart v).cads[n] =
    if 0 < v.cads[n].listeners then cadStart v.work.cad[n].on v.cads[n] else cadStop v.work.cad[n].on v.cads[n] := by
  unfold cadsRestart
  simp

theorem cadsRestart_listeners (v : State) (n : Fin 4) :
    (cadsRestart v).cads[n].listeners = v.cads[n].listeners := by
  rw [cadsRestart_get]
  split <;> rfl

theorem restartEffect_cads (b : Bool) (s : State) (n : Fin 4) :
    (restartEffect b s).cads[n].listeners = (restartRung b s).cads[n].listeners ∧
    (restartEffect b s).cads[n] =
      if 0 < (restartEffect b s).cads[n].listeners
      then { listeners := (restartEffect b s).cads[n].listeners, running := true, phase := .on, burst := 1
             remaining := s.work.cad[n].on }
      else { listeners := 0, running := false, phase := .on, burst := 1, remaining := s.work.cad[n].on } := by
  have hcads : (restartEffect b s).cads = (cadsRestart (restartRung b s)).cads := by
    rw [restartEffect_tail, restartTail_eq]
  have hwork : (restartRung b s).work = s.work := by rw [restartRung_eq]
  rw [hcads, cadsRestart_listeners, cadsRestart_get, hwork]
  refine ⟨rfl, ?_⟩
  split
  · rfl
  next h =>
    have h0 : (restartRung b s).cads[n].listeners = 0 := Nat.eq_zero_of_not_pos h
    unfold cadStop
    rw [h0]

/-! ### The channels (R144) -/

/-- From `s` to `t` channel `n` and what a step of it begins from stand. -/
structure ChanStands (n : Fin 4) (s t : State) : Prop where
  chan  : t.chans[n] = s.chans[n]
  work  : t.work = s.work
  rif   : t.rif = s.rif
  times : t.sampleTimes = s.sampleTimes

theorem ChanStands.trans {n : Fin 4} {s t u : State} (h : ChanStands n s t) (g : ChanStands n t u) :
    ChanStands n s u :=
  ⟨g.chan.trans h.chan, g.work.trans h.work, g.rif.trans h.rif, g.times.trans h.times⟩

theorem chanRestart_other {n m : Fin 4} (h : m ≠ n) (s : State) : ChanStands n s (chanRestart m s) := by
  have hs := chanRestart_sounds m s
  refine ⟨?_, hs.hands.work, hs.hands.rif, by unfold SoundsOnly at hs; rw [hs]⟩
  have hstop : ∀ st, (stopChan m st s).chans[n] = s.chans[n] := fun st => setChan_other' (Ne.symm h) _ s
  unfold chanRestart
  dsimp only
  split
  · split
    · exact hstop _
    · exact startChan_other (Ne.symm h) s
  · exact hstop _

theorem chansRestart_visits (n : Fin 4) (s : State) :
    ∃ a, ChanStands n s a ∧ (chansRestart s).chans[n] = (chanRestart n a).chans[n] := by
  obtain ⟨a, h1, h2⟩ := foldl_visits (f := fun t n => chanRestart n t) (Q := ChanStands n)
    (fun s => ⟨rfl, rfl, rfl, rfl⟩) ChanStands.trans (fun u y hy => chanRestart_other hy u)
    (List.nodup_finRange 4) (List.mem_finRange n) s
  exact ⟨a, h1, h2.chan⟩

/-- What a restart makes of a channel (R144). -/
structure ChanRestarted (n : Fin 4) (s : State) (c : ChanRun) : Prop where
  stays   : s.chans[n].state ≠ .running → c = (stopped s n s.chans[n].state).chans[n]
  waits   : s.chans[n].state = .running → s.work.progs[n].mode = .named .demand → s.chans[n].listeners = 0 →
    c = (stopped s n .waiting).chans[n]
  begins  : s.chans[n].state = .running → ¬(s.work.progs[n].mode = .named .demand ∧ s.chans[n].listeners = 0) →
    ChanBegun s n 0 0 c

theorem stopped_get (n : Fin 4) (st : ChanState) (s : State) : (stopped s n st).chans[n] =
    { state := st, step := 0, kind := .gap, addr := 0, remaining := 0, late := 0, owed := 0, due := false
      listeners := s.chans[n].listeners } := vector_set_self _ _ _

theorem chanRestart_restarted (n : Fin 4) (s : State) : ChanRestarted n s (chanRestart n s).chans[n] := by
  unfold chanRestart
  dsimp only
  refine ⟨fun h => ?_, fun h hm hl => ?_, fun h hn => ?_⟩
  · rw [if_neg h, stopChan_eq]
  · rw [if_pos h, if_pos ⟨hm, hl⟩, stopChan_eq]
  · rw [if_pos h, if_neg hn]
    exact startChan_begun n s

theorem ChanRestarted.of {n : Fin 4} {s a : State} {c : ChanRun} (g : ChanRestarted n a c) (hc : a.chans[n] = s.chans[n])
    (hw : a.work = s.work) (hr : a.rif.ring = s.rif.ring) (ht : a.sampleTimes = s.sampleTimes) :
    ChanRestarted n s c := by
  obtain ⟨g1, g2, g3⟩ := g
  simp only [stopped_get] at g1 g2
  rw [hc] at g1 g2 g3
  rw [hw] at g2 g3
  refine ⟨fun h => ?_, fun h hm hl => ?_, fun h hn => ?_⟩
  · rw [stopped_get]
    exact g1 h
  · rw [stopped_get]
    exact g2 h hm hl
  · have := g3 h hn
    unfold ChanBegun at this ⊢
    rw [hw, hr, ht, hc] at this
    exact this

theorem restartBegun_stands (n : Fin 4) (b : Bool) (s : State) : (restartBegun b s).chans[n] = s.chans[n] ∧
    (restartBegun b s).work = s.work ∧ (restartBegun b s).rif.ring = s.rif.ring ∧
    (restartBegun b s).sampleTimes = s.sampleTimes ∧ (restartBegun b s).cads = s.cads ∧
    (restartBegun b s).outs = s.outs := by
  have h := restartBegun_eq b s
  generalize restartBegun b s = v at h
  rw [h]
  exact ⟨rfl, rfl, rfl, rfl, rfl, rfl⟩

theorem stopChan_cads (n : Fin 4) (st : ChanState) (s : State) : (stopChan n st s).cads = s.cads := rfl

theorem chanRestart_cads (n : Fin 4) (s : State) : (chanRestart n s).cads = s.cads := by
  unfold chanRestart
  dsimp only
  split
  · split
    · rfl
    · exact startChan_cads n s
  · rfl

theorem chansRestart_cads (s : State) : (chansRestart s).cads = s.cads := by
  unfold chansRestart
  generalize List.finRange 4 = l
  induction l generalizing s with
  | nil => rfl
  | cons n l ih => exact (ih (chanRestart n s)).trans (chanRestart_cads n s)

/-- Outputs that follow the claims of a node that is not ISOLATED stay through the restart of the ring. -/
theorem restartRung_still (hf : OutputsFollow s) (hr : s.rif.ring ≠ .isolated) :
    restartRung b s = ringAnew (chansRestart (restartBegun b s)) := by
  have hs := chansRestart_sounds (restartBegun b s)
  obtain ⟨-, g2, -, -, -, g6⟩ := restartBegun_stands 0 b s
  have ho := hs.outs.trans g6
  have hw := hs.hands.work.trans g2
  unfold restartRung
  generalize chansRestart (restartBegun b s) = v at ho hw
  refine ringToOutputs_same fun z hu => ?_
  rw [show (ringAnew v).outs = s.outs from ho]
  refine hf.settled hr (by rw [(ringAnew_frame v).2.2.2.2.2.2.1]; decide) ?_
  unfold zoneInUse spk at hu ⊢
  rw [show (ringAnew v).work = s.work from hw] at hu
  exact hu

theorem restartTail_chans (v : State) :
    (supervisionRestart (wardenRestart (cadsRestart (outsRestart v)))).chans = v.chans := by
  rw [restartTail_eq]

theorem restartEffect_chans (hf : OutputsFollow s) (hr : s.rif.ring ≠ .isolated) (n : Fin 4) :
    (restartEffect b s).cads[n].listeners = s.cads[n].listeners ∧
      ChanRestarted n s (restartEffect b s).chans[n] := by
  have hv := restartRung_still (b := b) hf hr
  obtain ⟨g1, g2, g3, g4, g5, -⟩ := restartBegun_stands n b s
  obtain ⟨a, ha, hc⟩ := chansRestart_visits n (restartBegun b s)
  have hcads : (restartRung b s).cads = s.cads := by
    rw [hv, (ringAnew_frame _).2.2.2.2.2.1, chansRestart_cads, g5]
  have hchans : (restartRung b s).chans[n] = (chanRestart n a).chans[n] := by
    rw [hv, (ringAnew_frame _).2.2.2.2.1, hc]
  refine ⟨by rw [(restartEffect_cads b s n).1, hcads], ?_⟩
  rw [restartEffect_tail, restartTail_chans, hchans]
  exact (chanRestart_restarted n a).of (ha.chan.trans g1) (ha.work.trans g2)
    ((congrArg Rif.ring ha.rif).trans g3) (ha.times.trans g4)

end

end Sys2Proof.Machine

namespace Sys2Proof.Machine

/-! ## The slots of an emptied notice (R193, log entry 28) -/

section
variable {s : State} {b : Bool}

/-- A message is a SLOTS CLEARED notice. -/
def IsNotice (m : OutMsg) : Prop := ∃ c, m.content = .notice (.slotsCleared c)

theorem noticeOf_none {m : OutMsg} (h : ¬IsNotice m) : noticeOf m = none := by
  unfold noticeOf
  split
  next c hc => exact absurd ⟨c, hc⟩ h
  · rfl

theorem noticeOf_some {m : OutMsg} {c : Cleared} (h : m.content = .notice (.slotsCleared c)) :
    noticeOf m = some (c, m.named) := by
  unfold noticeOf
  rw [h]

theorem notices_none {l : List OutMsg} (h : ∀ m ∈ l, ¬IsNotice m) : l.filterMap noticeOf = [] :=
  List.filterMap_eq_nil_iff.2 fun m hm => noticeOf_none (h m hm)

theorem rejoin_all (c p : Cleared) (h : c = .all ∨ p = .all) : rejoin c p = .all := by
  rcases h with rfl | rfl
  · rfl
  · cases c with
    | all => rfl
    | labels ls =>
      show ls.foldl (fun p l => joinPending l p) .all = .all
      induction ls with
      | nil => rfl
      | cons l ls ih => exact ih

theorem rejoin_labels (ls ps : List Nat) :
    ∃ qs, rejoin (.labels ls) (.labels ps) = .labels qs ∧ ∀ x, x ∈ qs ↔ x ∈ ls ∨ x ∈ ps := by
  show ∃ qs, ls.foldl (fun p l => joinPending l p) (.labels ps) = .labels qs ∧ _
  induction ls generalizing ps with
  | nil => exact ⟨ps, rfl, fun x => by simp⟩
  | cons l ls ih =>
    obtain ⟨qs, h1, h2⟩ := ih (if ps.contains l then ps else ps ++ [l])
    refine ⟨qs, h1, fun x => ?_⟩
    rw [h2, List.mem_cons]
    split
    next hc =>
      have hl : l ∈ ps := by simpa using hc
      constructor
      · exact fun h => h.elim (fun h => .inl (.inr h)) .inr
      · rintro ((rfl | h) | h)
        · exact .inr hl
        · exact .inl h
        · exact .inr h
    · rw [List.mem_append, List.mem_singleton]
      tauto

theorem unannounce_keeps {named : List (Fin 16 × Option Nat)} {i : Fin 16} {d : DynSlot}
    (h : (∀ f, (i, f) ∉ named) ∨ d.held ≠ none ∨ d.announced = false) : unannounce named i d = d := by
  unfold unannounce
  split
  next p hp =>
    have hi : p.1 = i := by simpa using List.find?_some hp
    have hm : (i, p.2) ∈ named := hi ▸ List.mem_of_find?_eq_some hp
    refine if_neg fun hg => ?_
    obtain ⟨h1, h2⟩ := Bool.and_eq_true_iff.1 hg
    rcases h with h | h | h
    · exact h p.2 hm
    · exact h (Option.isNone_iff_eq_none.1 h1)
    · rw [h] at h2
      cases h2
  · rfl

theorem unannounce_named {named : List (Fin 16 × Option Nat)} {i : Fin 16} {d : DynSlot} {f : Option Nat}
    (h : (named.find? fun p => p.1 == i) = some (i, f)) (hh : d.held = none) (ha : d.announced = true) :
    unannounce named i d = { d with announced := false, freedFrom := f } := by
  have hg : grantable d = true := by
    unfold grantable
    rw [hh, ha]
    rfl
  unfold unannounce
  rw [h]
  exact if_pos hg

theorem takeBack_get (t : SlotTable) (c : Cleared × List (Fin 16 × Option Nat)) (i : Fin 16) :
    (takeBack t c).entries[i] = unannounce c.2 i t.entries[i] := by
  unfold takeBack
  simp

theorem restartRung_slots (b : Bool) (s : State) :
    (restartRung b s).slots = (s.outbound.filterMap noticeOf).foldl takeBack s.slots := by rw [restartRung_eq]

theorem restartTail_slots (v : State) :
    (supervisionRestart (wardenRestart (cadsRestart (outsRestart v)))).slots = v.slots := by
  rw [restartTail_eq]

theorem restartEffect_slots (b : Bool) (s : State) :
    (restartEffect b s).slots = (s.outbound.filterMap noticeOf).foldl takeBack s.slots := by
  rw [restartEffect_tail, restartTail_slots, restartRung_slots]

/-- One notice among the messages emptied. -/
theorem restartEffect_notice {before after : List OutMsg} {m : OutMsg} {c : Cleared}
    (hs : s.outbound = before ++ m :: after) (hn : ∀ x ∈ before ++ after, ¬IsNotice x)
    (hc : m.content = .notice (.slotsCleared c)) : (restartEffect b s).slots = takeBack s.slots (c, m.named) := by
  rw [restartEffect_slots, hs, List.filterMap_append,
    notices_none fun x hx => hn x (List.mem_append_left _ hx), List.nil_append,
    List.filterMap_cons_some (noticeOf_some hc), notices_none fun x hx => hn x (List.mem_append_right _ hx)]
  rfl

/-! ## Supervision anew (R174) -/

theorem restartedLines (v : Vector ZoneLines 24) :
    (updAll (updAll v freshLines) fun l => { l with a := monRestart l.a, b := l.b.map monRestart }) =
      v.map fun l => { a := freshMon true, b := l.b.map fun _ => freshMon true, lost := false } := by
  rw [updAll_map, updAll_map, Vector.map_map]
  refine congrArg (fun f => v.map f) (funext fun l => ?_)
  show ({ a := _, b := (l.b.map _).map _, lost := false } : ZoneLines) = _
  rw [Option.map_map]
  rfl

theorem restartedHealth {n : Nat} (v : Vector Health n) :
    updAll (updAll v fun h => freshHealth h.active true) healthRestart = v.map fun h => freshHealth h.active true := by
  rw [updAll_map, updAll_map, Vector.map_map]
  rfl

/-- What a RESTART that takes effect leaves of the router. -/
theorem restartEffect_whole (b : Bool) (s : State) : restartEffect b s = { s with
    cmdQueue := [], deferred := [], outbound := [], restart := none, capture := none
    reports := (restartEffect b s).reports, reportOverflow := (restartEffect b s).reportOverflow
    rif := { s.rif with
      ring := .seeking, since := s.now, run := 0, runStart := none, heard := silentSlots
      passing := false, fwd := [], returns := [], tx := none, rx := none, arrived := [] }
    slots := (restartEffect b s).slots
    isoTimer := none, isoEscalated := false, msDue := false, sampleTimes := 0
    outs := (restartEffect b s).outs, cads := (restartEffect b s).cads, chans := (restartEffect b s).chans
    phraseMissing := (restartEffect b s).phraseMissing
    serving := Vector.replicate 2 none, windowEnd := some (s.now + s.work.window)
    lines := s.lines.map fun l => { a := freshMon true, b := l.b.map fun _ => freshMon true, lost := false }
    amps := s.amps.map fun h => freshHealth h.active true
    standbyAmps := s.standbyAmps.map fun h => freshHealth h.active true
    warden := { s.warden with
      taken := false, due := none, key := .released, slot := .none
      fresh := some ⟨s.now + 50, s.pins.keyClosed⟩ } } := by
  have h := restartRung_eq b s
  have ht := restartTail_eq (restartRung b s)
  rw [← restartEffect_tail, restartedLines, restartedHealth, restartedHealth] at ht
  generalize restartRung b s = v at h ht
  generalize restartEffect b s = t at ht
  rw [ht, h]

end

/-- Settles O58: each block restarts in turn over what stays. -/
theorem restartTakesEffect : Obligations.RestartTakesEffect := by
  unfold Obligations.RestartTakesEffect
  refine ⟨fun s q h => ?_, fun s b hp hr hc => ⟨restartEffect b s, ?_, ?_⟩⟩
  · exact (commandWith_acts (s := s) (extra := noExtra) (own := noReply)
      (act := fun s => { s with restart := some s.commit.isSome }) h rfl).trans rfl
  · refine whenever_leaves (o := execRestartEffect s) rfl ?_ ?_
    · rw [State.running, hp, hr, hc]
      rfl
    · rw [hr]
      rfl
  · have hw := restartEffect_whole b s
    have hrep := restartEffect_reports b s
    have houts := restartEffect_fadesIn b s
    have hcads := fun n => (restartEffect_cads b s n).2
    have hchans := fun hf hr n => restartEffect_chans (s := s) (b := b) hf hr n
    have hslots := restartEffect_slots b s
    have hnotice := fun before after m c h1 h2 h3 =>
      restartEffect_notice (s := s) (b := b) (before := before) (after := after) (m := m) (c := c) h1 h2 h3
    generalize restartEffect b s = t at *
    have hrif := congrArg State.rif hw
    have hserv := congrArg State.serving hw
    have hend := congrArg State.windowEnd hw
    have hlines := congrArg State.lines hw
    have hamps := congrArg State.amps hw
    have hstandby := congrArg State.standbyAmps hw
    have hwarden := congrArg State.warden hw
    refine ⟨congrArg State.cmdQueue hw, congrArg State.deferred hw, congrArg State.outbound hw,
      congrArg State.restart hw, congrArg State.capture hw, hrep, hrif, congrArg State.isoTimer hw,
      congrArg State.isoEscalated hw, houts, hcads, fun hf hr n => ?_, ⟨hlines, hamps, hstandby⟩, hserv, hend, hwarden,
      ⟨fun hn => ?_, fun before after m c hout hn hm => ⟨fun ha => ?_, fun ls ps hl hps => ?_, fun i => ⟨fun hk => ?_,
        fun f hf hh ha => ?_⟩⟩⟩, ?_⟩
    · obtain ⟨h1, h2⟩ := hchans hf hr n
      exact ⟨h1, h2.stays, fun hrun => ⟨h2.waits hrun, h2.begins hrun⟩⟩
    · rw [hslots, notices_none hn]
      rfl
    · rw [hnotice before after m c hout hn hm]
      exact rejoin_all c _ ha
    · rw [hnotice before after m c hout hn hm, hl]
      show ∃ qs, rejoin (.labels ls) s.slots.pending = .labels qs ∧ _
      rw [hps]
      exact rejoin_labels ls ps
    · rw [hnotice before after m c hout hn hm, takeBack_get]
      exact unannounce_keeps hk
    · rw [hnotice before after m c hout hn hm, takeBack_get]
      exact unannounce_named hf hh ha
    · rw [hrif, hserv, hend, hlines, hamps, hstandby, hwarden]
      exact hw

end Sys2Proof.Machine

namespace Sys2Proof.Machine

/-! ## Relations that listener changes keep -/

/-- A relation that every listener change keeps: it holds where cadences, channels, tables, ring and sample
times are the same, and of a new count of a cadence and of a channel. -/
structure SoundRel (R : State → State → Prop) : Prop where
  trans : ∀ {s t u}, R s t → R t u → R s u
  same  : ∀ {s t : State}, t.work = s.work → t.rif = s.rif → t.sampleTimes = s.sampleTimes →
    t.phase = s.phase → t.cads = s.cads → t.chans = s.chans → R s t
  cad   : ∀ n f s, R s (countCad n f s)
  chan  : ∀ n k s, R s (chanCount n k s)

theorem updateLock_sampleTimes (s : State) : (updateLock s).sampleTimes = s.sampleTimes := by
  unfold updateLock
  dsimp only
  split
  · rw [abortCapture_frame]
  · rfl

namespace SoundRel
variable {R : State → State → Prop}

theorem pool (h : SoundRel R) {s t : State} (ht : PoolOnly s t) : R s t :=
  h.same (by rw [ht]) (by rw [ht]) (by rw [ht]) (by rw [ht]) (by rw [ht]) (by rw [ht])

theorem supervision (h : SoundRel R) {s t : State} (ht : SupervisionOnly s t) : R s t :=
  h.same (by rw [ht]) (by rw [ht]) (by rw [ht]) (by rw [ht]) (by rw [ht]) (by rw [ht])

theorem lock (h : SoundRel R) (s : State) : R s (updateLock s) :=
  h.same (updateLock_work s) (updateLock_rif s) (updateLock_sampleTimes s) (updateLock_phase s)
    (updateLock_cads s) (updateLock_chans s)

theorem countSource (h : SoundRel R) (src : Source) (f : Nat → Nat) (s : State) :
    R s (Machine.countSource src f s) := by
  unfold Machine.countSource
  split
  · exact h.cad _ f s
  · unfold countChan
    split
    · exact h.chan _ _ s
    · exact h.same rfl rfl rfl rfl rfl rfl
  · exact h.same rfl rfl rfl rfl rfl rfl

theorem listenerChange (h : SoundRel R) (a b : Source) (s : State) : R s (Machine.listenerChange a b s) := by
  unfold Machine.listenerChange
  split
  · exact h.same rfl rfl rfl rfl rfl rfl
  · exact h.trans (h.countSource a _ s) (h.countSource b _ _)

/-- An output record and the listener change that its new source brings. -/
theorem output (h : SoundRel R) (z : Zone) (o : ZoneOut) (a b : Source) (s : State) :
    R s (Machine.listenerChange a b (setOut z o s)) :=
  h.trans (t := setOut z o s) (h.same rfl rfl rfl rfl rfl rfl) (h.listenerChange a b _)

theorem handOver (h : SoundRel R) (z : Zone) (s : State) : R s (Machine.handOver z s) := by
  unfold Machine.handOver
  dsimp only
  split
  · exact h.trans (h.output z _ _ _ s) (h.pool (arbiter_pool _))
  · exact h.output z _ _ _ s

theorem zones (h : SoundRel R) : ZoneRel R where
  list z := {
    refl := fun _ => h.same rfl rfl rfl rfl rfl rfl
    trans := h.trans
    core := fun c s => by
      have hl := (offerCore_listOnly z c s).1
      exact h.same (by rw [hl]) (by rw [hl]) (by rw [hl]) (by rw [hl]) (by rw [hl]) (by rw [hl])
    cut := fun _ _ => h.same rfl rfl rfl rfl rfl rfl }
  hand := h.handOver
  lock := h.lock

theorem ringToOutputs (h : SoundRel R) (s : State) : R s (Machine.ringToOutputs s) := by
  refine h.zones.foldl _ (fun t z => ?_) allZones s
  unfold ringToZone
  dsimp only
  split
  · exact h.output z _ _ _ t
  · exact h.zones.refl t

theorem zoneLeaves (h : SoundRel R) (z : Zone) (s : State) : R s (Machine.zoneLeaves z s) := by
  unfold Machine.zoneLeaves
  dsimp only
  refine h.trans ?_ (h.trans (h.pool (arbiter_pool _)) (h.lock _))
  refine h.trans (t := setList z [] s) (h.same rfl rfl rfl rfl rfl rfl) ?_
  exact h.trans (h.output z mutedOut s.outs[z].effective .none _) (h.same rfl rfl rfl rfl rfl rfl)

theorem spkWritten (h : SoundRel R) (z : Zone) (a b : SpkZone) (s : State) :
    R s (Machine.spkWritten z a b s) := by
  unfold Machine.spkWritten
  split
  · exact h.zoneLeaves z s
  · exact h.same rfl rfl rfl rfl rfl rfl
  · have ht : R s (trimChange z a b s) := by
      unfold trimChange
      split <;> exact h.same rfl rfl rfl rfl rfl rfl
    exact h.trans ht (h.trans (h.supervision (lineCfgChange_supervision z a b _))
      (h.pool (eligibleChange_pool a b _)))
  · exact h.zones.refl s

end SoundRel

/-! ## A new listener count of a channel (R133, R135, R136) -/

/-- A rise of its listener count from 0 starts the channel (R133, R136). -/
def StartsOnRise (s : State) (n : Fin 4) : Prop :=
  s.work.progs[n].inUse = true ∧
    ((s.work.progs[n].mode = .named .demand ∧ s.chans[n].state ≠ .running) ∨
      (s.work.progs[n].mode = .named .once ∧ s.chans[n].state = .idle))

theorem StartsOnRise.stands {s : State} {n : Fin 4} (h : StartsOnRise s n) : s.chans[n].state ≠ .running := by
  obtain ⟨-, ⟨-, h⟩ | ⟨-, h⟩⟩ := h
  · exact h
  · rw [h]; decide

theorem chanCount_cases (n : Fin 4) (k : Nat) (s : State) :
    let u := setChan n (fun c => { c with listeners := k }) s
    (chanCount n k s = startChan n u ∧ StartsOnRise s n ∧ s.chans[n].listeners = 0 ∧ 0 < k) ∨
    (chanCount n k s = u ∧ ¬(StartsOnRise s n ∧ s.chans[n].listeners = 0 ∧ 0 < k)) := by
  intro u
  unfold chanCount
  dsimp only
  split
  next hb =>
    simp only [Bool.and_eq_true, decide_eq_true_eq] at hb
    obtain ⟨⟨hu, h0⟩, hk⟩ := hb
    split
    next hm =>
      split
      next hr =>
        refine .inr ⟨rfl, fun h => h.1.stands hr⟩
      next hr => exact .inl ⟨rfl, ⟨hu, .inl ⟨hm, hr⟩⟩, h0, hk⟩
    next hm =>
      split
      next hi => exact .inl ⟨rfl, ⟨hu, .inr ⟨hm, hi⟩⟩, h0, hk⟩
      next hi =>
        refine .inr ⟨rfl, ?_⟩
        rintro ⟨⟨-, ⟨hd, -⟩ | ⟨-, hi'⟩⟩, -⟩
        · rw [hm] at hd; cases hd
        · exact hi hi'
    next h1 h2 =>
      refine .inr ⟨rfl, ?_⟩
      rintro ⟨⟨-, ⟨hd, -⟩ | ⟨ho, -⟩⟩, -⟩
      · exact h1 hd
      · exact h2 ho
  next hb =>
    refine .inr ⟨rfl, fun h => hb ?_⟩
    simp only [Bool.and_eq_true, decide_eq_true_eq]
    exact ⟨⟨h.1.1, h.2.1⟩, h.2.2⟩

end Sys2Proof.Machine

namespace Sys2Proof.Machine

/-! ## The programs in use pass the check of R126 wherever they stand (O7) -/

section
variable {s t : State}

theorem ProgramsStand.of (h : ProgramsStand s) (hw : t.work.progs = s.work.progs) (hn : t.nv = s.nv)
    (ho : t.nvOk = s.nvOk) (hc : t.commit = s.commit) : ProgramsStand t where
  work := h.work.of_progs hw
  nv := by rw [ho, hn]; exact h.nv
  image := by rw [hc, ho]; exact h.image

theorem HandsOnly.programs (h : HandsOnly s t) (hs : ProgramsStand s) : ProgramsStand t :=
  hs.of (by rw [h]) (by rw [h]) (by rw [h]) (by rw [h])

theorem SupervisionOnly.programs (h : SupervisionOnly s t) (hs : ProgramsStand s) : ProgramsStand t :=
  hs.of (by rw [h]) (by rw [h]) (by rw [h]) (by rw [h])

theorem TableEffect.programs (h : TableEffect s t) (hs : ProgramsStand s) : ProgramsStand t := by
  have e := h.frame
  exact hs.of (by rw [e]) (by rw [e]) (by rw [e]) (by rw [e])

theorem abortCapture_programs (h : ProgramsStand s) : ProgramsStand (abortCapture s) := by
  rw [abortCapture_frame]
  exact h.of rfl rfl rfl rfl

theorem updateLock_programs (h : ProgramsStand s) : ProgramsStand (updateLock s) := by
  unfold updateLock
  dsimp only
  split
  · exact abortCapture_programs (h.of rfl rfl rfl rfl)
  · exact h.of rfl rfl rfl rfl

theorem programs_zoneRel : ZoneRel fun s t => ProgramsStand s → ProgramsStand t where
  list z := {
    refl := fun _ h => h
    trans := fun a b h => b (a h)
    core := fun c s h => by
      have hl := (offerCore_listOnly z c s).1
      exact h.of (by rw [hl]) (by rw [hl]) (by rw [hl]) (by rw [hl])
    cut := fun _ _ h => h.of rfl rfl rfl rfl }
  hand z s h := (handOver_hands z s).programs h
  lock _ h := updateLock_programs h

end

/-! ### The check of R126 -/

/-- A step stored is one that R126 admits where the step written is. -/
theorem clampStep_admitted {p : Coded PStep}
    (h : (∃ w, w ≤ 63 ∧ p = .named (.phrase w)) ∨ ∃ ms, p = .named (.gap ms)) :
    (∃ w, w ≤ 63 ∧ clampStep p = .named (.phrase w)) ∨ ∃ ms, clampStep p = .named (.gap ms) := by
  obtain ⟨w, hw, rfl⟩ | ⟨ms, rfl⟩ := h
  · exact .inl ⟨w, hw, rfl⟩
  · exact .inr ⟨_, rfl⟩

/-- A program in use that is stored has passed the check of R126, and passes it as it is stored. -/
theorem checkProgram_stands {t : Tables} {e e' : Program} (h : checkProgram e = some e') (hu : e'.inUse = true) :
    (∃ m, e'.mode = .named m) ∧ 1 ≤ e'.steps.length ∧ e'.steps.length ≤ 8 ∧
      ∀ p ∈ e'.steps, (∃ w, w ≤ 63 ∧ p = .named (.phrase w)) ∨ ∃ ms, p = .named (.gap ms) := by
  have hc : checkContents t 0 (.program e) = some (.program e') := by simp [checkContents, h]
  obtain ⟨hs, he⟩ := (checkContents_iff _ _ _ _).1 hc
  injection he with he
  subst he
  obtain ⟨hm, h1, h8, hp⟩ := hs hu
  refine ⟨hm, by simpa using h1, by simpa using h8, fun p hmem => ?_⟩
  obtain ⟨q, hq, rfl⟩ := List.mem_map.1 hmem
  exact clampStep_admitted (hp q hq)

theorem putProgram_ok {t : Tables} {n : Fin 4} {e e' : Program} (h : ProgramsOk t)
    (he : checkProgram e = some e') : ProgramsOk (putEntry n.val (.program e') t) := by
  have hp : (putEntry n.val (.program e') t).progs = t.progs.set n e' := updNat_fin t.progs n fun _ => e'
  rw [programsOk_iff] at h ⊢
  rw [hp]
  intro m
  by_cases hm : m = n
  · subst hm
    rw [vector_set_self]
    exact checkProgram_stands (t := t) he
  · rw [vector_set_other hm]
    exact h m

/-! ### Commits and loads -/

theorem getElem_nine (v : Vector Bool 12) : v[(9 : Fin 12)] = true ↔ v[9]? = some true := by simp

/-- The check of the table in its step fails (R202). -/
theorem beginTable_programs (q : Request) (k w : Nat) {s : State} (h : ProgramsStand s) :
    ProgramsStand (beginTable q k w s) where
  work := h.work
  nv := by
    rw [getElem_nine]
    show (updNat s.nvOk k fun _ => false)[9]? = some true → ProgramsOk s.nv
    rw [getElem?_updNat]
    split
    · cases s.nvOk[9]? <;> simp
    · rw [← getElem_nine]; exact h.nv
  image := by
    rintro c hc
    obtain rfl := Option.some.inj hc
    refine ⟨h.work, ?_⟩
    show (updNat s.nvOk k fun _ => false)[k]? ≠ some true
    rw [getElem?_updNat, if_pos rfl]
    cases s.nvOk[k]? <;> simp

/-- The contents of a commit reach the NV copy with the end of its table's step (R202). -/
theorem tableWritten_programs {x : Commit} {s : State} (h : ProgramsStand s) (hx : s.commit = some x) :
    ProgramsStand { tableWritten x s with commit := none } where
  work := h.work
  nv := by
    rw [getElem_nine]
    show (updNat s.nvOk x.table fun _ => true)[9]? = some true → ProgramsOk (copyTable x.table x.image s.nv)
    rw [getElem?_updNat]
    intro h9
    by_cases hk : x.table = 9
    · exact (h.image x hx).1.of_progs (by rw [copyTable_progs, if_pos hk])
    · rw [if_neg hk] at h9
      exact (h.nv ((getElem_nine _).2 h9)).of_progs (by rw [copyTable_progs, if_neg hk])
  image := fun _ hc => nomatch hc

theorem tableDone_programs {x : Commit} {s : State} (h : ProgramsStand s) (hx : s.commit = some x) :
    ProgramsStand (commitGoesOn x (tableWritten x s)) := by
  have hw := tableWritten_programs h hx
  unfold commitGoesOn
  split
  next k _ =>
    have hb := beginTable_programs x.requester k (x.written + 1) hw
    exact hb.of rfl rfl rfl rfl
  · unfold placeOrDefer
    split <;> exact hw.of rfl rfl rfl rfl

/-- The table whose step is cut short keeps a failing check (R202). -/
theorem cutCommit_programs {s : State} (h : ProgramsStand s) : ProgramsStand (cutCommit s) := by
  unfold cutCommit
  split
  next hn => exact ⟨h.work, h.nv, fun c hc => by rw [hn] at hc; cases hc⟩
  next c hc =>
    refine ⟨h.work, fun h9 => ?_, fun _ hc => nomatch hc⟩
    have hk : c.table ≠ 9 := fun e => (h.image c hc).2 (by rw [e]; exact (getElem_nine _).1 h9)
    exact (h.nv h9).of_progs (by rw [copyTable_progs, if_neg hk])

/-- The load takes the programs from an NV copy that passes its check, or from the factory default (R203). -/
theorem loadTables_programs {s : State} (h : ProgramsStand s) : ProgramsOk (loadTables s) := by
  have hs := (tableEq_iff _ _ _).1 (loadTables_source s 9)
  have hp : (loadTables s).progs = (if s.nvOk[(9 : Fin 12)] then s.nv else Config.factory).progs := by
    rw [← hs]
    exact ((copyTable_progs _ _ _).trans (if_pos rfl)).symm
  by_cases h9 : s.nvOk[(9 : Fin 12)] = true
  · rw [if_pos h9] at hp
    exact (h.nv h9).of_progs hp
  · rw [if_neg h9] at hp
    exact factory_programsOk.of_progs hp

theorem load_programs {s : State} (h : ProgramsStand s) : ProgramsStand (load s) :=
  ⟨loadTables_programs h, h.nv, h.image⟩

theorem restartEffect_programs (b : Bool) {s : State} (h : ProgramsStand s) :
    ProgramsStand (restartEffect b s) := by
  have e := restartEffect_whole b s
  exact h.of (congrArg (fun t => t.work.progs) e) ((congrArg State.nv e).trans rfl) ((congrArg State.nvOk e).trans rfl)
    ((congrArg State.commit e).trans rfl)

/-! ### Every move -/

theorem Move.programs {c : Instr} {s t : State} (hm : Move c s t) (h : ProgramsStand s) : ProgramsStand t := by
  induction hm with
  | aside ht => rw [ht]; exact h.of rfl rfl rfl rfl
  | report b s => exact (report_sounds b s).hands.programs h
  | captureBegun q p slot ms s _ _ => exact h.of rfl rfl rfl rfl
  | captureEnded s => rw [endCapture_frame]; exact h.of rfl rfl rfl rfl
  | captureSampled v s => rw [captureSample_frame]; exact h.of rfl rfl rfl rfl
  | recorded r s _ _ _ _ => exact updateLock_programs (h.of rfl rfl rfl rfl)
  | recordGone dz b s => exact updateLock_programs (h.of rfl rfl rfl rfl)
  | offer z x s _ => exact programs_zoneRel.offer z x s h
  | removal z p s => exact programs_zoneRel.removal z p s h
  | started n s _ _ => exact (startChan_sounds n s).hands.programs h
  | begun n k s _ _ _ => exact (beginStep_sounds n k s).hands.programs h
  | stopped n st s _ _ => exact (stopChan_sounds n st s).hands.programs h
  | tables w s _ h2 _ _ => exact h.of h2 rfl rfl rfl
  | zoneWritten z e s _ => exact (spkWritten_effect z _ e _).programs (h.of rfl rfl rfl rfl)
  | cadenceWritten n e s => exact h.of rfl rfl rfl rfl
  | phraseWritten p e s _ _ =>
    exact programs_zoneRel.phraseWritten (fun n st s => (stopChan_sounds n st s).hands.programs)
      (fun n k s => (beginStep_sounds n k s).hands.programs) p _ (h.of rfl rfl rfl rfl)
  | programWritten n e e' s _ he =>
    exact (progWritten_sounds n e' _).hands.programs ⟨putProgram_ok h.work he, h.nv, h.image⟩
  | commitBegun q k s _ _ _ => exact beginTable_programs q k 0 h
  | tableDone x s hx => exact tableDone_programs h hx
  | powerLost s => exact (cutCommit_programs h).of rfl rfl rfl rfl
  | windowJudged s => exact (windowVerdicts_supervision s).programs h
  | ringEntered st s _ _ => exact (ringToOutputs_hands (setRing st s)).programs (h.of rfl rfl rfl rfl)
  | ringLost s _ =>
    exact abortCapture_programs ((ringToOutputs_hands (setRing .lost (leaveLocked s))).programs
      (h.of rfl rfl rfl rfl))
  | loaded s _ => exact (ringToOutputs_hands (setRing .seeking (load s))).programs ((load_programs h).of rfl rfl rfl rfl)
  | restarted b s _ _ _ => exact restartEffect_programs b h
  | cold b s t _ ht =>
    cases ht
    exact ⟨factory_programsOk, (cutCommit_programs h).nv, fun _ hc => nomatch hc⟩
  | ticked o s _ =>
    have e := tick_eq s
    exact h.of (congrArg (fun t => t.work.progs) e) ((congrArg State.nv e).trans rfl) ((congrArg State.nvOk e).trans rfl)
      ((congrArg State.commit e).trans rfl)
  | _ => exact h.of rfl rfl rfl rfl

/-! ## The message store (O7) -/

theorem StoreOk.of {s t : State} (h : StoreOk s) (e : t.store = s.store) : StoreOk t := by
  unfold StoreOk at *
  rwa [e]

theorem storeOk_zoneRel : ZoneRel fun s t => StoreOk s → StoreOk t where
  list z := {
    refl := fun _ h => h
    trans := fun a b h => b (a h)
    core := fun c s h => h.of (by rw [(offerCore_listOnly z c s).1])
    cut := fun _ _ h => h }
  hand z s h := h.of (by rw [handOver_hands z s])
  lock s h := by
    unfold updateLock
    dsimp only
    split
    · rw [abortCapture_frame]; exact h
    · exact h

theorem captureSample_storeOk (v : Vector (Option Sample) 32) (s : State) (h : StoreOk s) :
    StoreOk (captureSample v s) := by
  unfold captureSample
  split
  · exact h
  split
  · exact h
  split
  · exact storeWrite_wf _ _ _ h
  · exact h

theorem HandsOnly.storeOk {s t : State} (h : HandsOnly s t) (hs : StoreOk s) : StoreOk t := hs.of (by rw [h])

theorem abortCapture_storeOk {s : State} (h : StoreOk s) : StoreOk (abortCapture s) := by
  rw [abortCapture_frame]
  exact h

theorem Move.storeOk {c : Instr} {s t : State} (hm : Move c s t) (h : StoreOk s) : StoreOk t := by
  induction hm with
  | aside ht => rw [ht]; exact h
  | report b s => exact (report_sounds b s).hands.storeOk h
  | captureEnded s => rw [endCapture_frame]; exact h
  | captureSampled v s => exact captureSample_storeOk v s h
  | recorded r s _ _ _ _ => exact storeOk_zoneRel.lock { s with acts := s.acts ++ [r] } h
  | recordGone dz b s =>
    exact storeOk_zoneRel.lock { s with acts := s.acts.filter fun r => r.dz != dz, overflow := b } h
  | offer z x s _ => exact storeOk_zoneRel.offer z x s h
  | removal z p s => exact storeOk_zoneRel.removal z p s h
  | started n s _ _ => exact (startChan_sounds n s).hands.storeOk h
  | begun n k s _ _ _ => exact (beginStep_sounds n k s).hands.storeOk h
  | stopped n st s _ _ => exact h
  | zoneWritten z e s _ => exact StoreOk.of (t := spkWritten z s.work.spk[z] e _) h (by
      rw [(spkWritten_effect z s.work.spk[z] e { s with work := putEntry z.val (.spkZone e) s.work }).frame])
  | phraseWritten p e s _ _ =>
    exact storeOk_zoneRel.phraseWritten (fun n st s => (stopChan_sounds n st s).hands.storeOk)
      (fun n k s => (beginStep_sounds n k s).hands.storeOk) p _ h
  | programWritten n e e' s _ _ => exact (progWritten_sounds n e' _).hands.storeOk h
  | tableDone x s _ => rw [commitGoesOn_frame]; exact h
  | powerLost s => rw [cutCommit_frame]; exact h
  | windowJudged s => rw [windowVerdicts_supervision s]; exact h
  | ringEntered st s _ _ => exact (ringToOutputs_hands (setRing st s)).storeOk h
  | ringLost s _ =>
    exact abortCapture_storeOk ((ringToOutputs_hands (setRing .lost (leaveLocked s))).storeOk h)
  | loaded s _ => exact (ringToOutputs_hands (setRing .seeking (load s))).storeOk h
  | restarted b s _ _ _ =>
    exact h.of ((congrArg State.store (restartEffect_whole b s)).trans rfl)
  | cold b s t _ ht =>
    cases ht
    exact h.of ((congrArg State.store (cutCommit_frame s)).trans rfl)
  | ticked o s _ => exact h.of ((congrArg State.store (tick_eq s)).trans rfl)
  | _ => exact h

end Sys2Proof.Machine

namespace Sys2Proof.Machine

/-! ## The steps that the channels play (O7) -/

/-- The step of a running channel is one of a program in use, and a PHRASE step plays the phrase that the
program names there (R126, R129). -/
def StepStands (w : Tables) (n : Fin 4) (c : ChanRun) : Prop :=
  w.progs[n].inUse = true ∧
  (c.kind = .phrase → ∃ (k : Nat) (p : Phrase),
    w.progs[n].steps[c.step]? = some (.named (.phrase k)) ∧ w.phrases[k]? = some p ∧ p.valid = true ∧
    p.start ≤ c.addr ∧ c.addr < p.start + p.length ∧ c.addr + c.remaining = p.start + p.length ∧
    (c.due = true → c.remaining = 1))

/-- Every running channel's step stands. -/
def StepsStand (s : State) : Prop :=
  ∀ n : Fin 4, s.chans[n].state = .running → StepStands s.work n s.chans[n]

/-- The phrase of a capture in flight is not valid (R140). -/
def CaptureApart (s : State) : Prop :=
  ∀ c p, s.capture = some c → s.work.phrases[c.phrase]? = some p → p.valid = false

/-- No channel runs and no capture is in flight while the tables load (R203). -/
def LoadSilent (s : State) : Prop :=
  s.phase = .loading → (∀ n : Fin 4, s.chans[n].state ≠ .running) ∧ s.capture = none

theorem phrasesPlay_iff (s : State) : PhrasesPlay s ↔ StepsStand s ∧ CaptureApart s ∧ LoadSilent s := Iff.rfl

/-- A channel that gives `k` sample times stays within the phrase that its step plays (R129). -/
theorem phraseGive_within {k lo hi : Nat} {c : ChanRun} (h1 : lo ≤ c.addr) (h2 : c.addr < hi)
    (h3 : c.addr + c.remaining = hi) (h4 : c.due = true → c.remaining = 1) :
    lo ≤ (phraseGive k c).addr ∧ (phraseGive k c).addr < hi ∧
      (phraseGive k c).addr + (phraseGive k c).remaining = hi ∧
      ((phraseGive k c).due = true → (phraseGive k c).remaining = 1) := by
  obtain ⟨hd, e⟩ | ⟨hd, hk, e⟩ | ⟨hd, hk, e⟩ := phraseGive_cases k c <;> rw [e]
  · exact ⟨h1, h2, h3, h4⟩
  · refine ⟨?_, ?_, ?_, fun h => by rw [hd] at h; cases h⟩ <;> dsimp only <;> omega
  · refine ⟨?_, ?_, ?_, fun _ => rfl⟩ <;> dsimp only <;> omega

theorem phraseGive_keeps (k : Nat) (c : ChanRun) : (phraseGive k c).kind = c.kind ∧
    (phraseGive k c).step = c.step ∧ (phraseGive k c).state = c.state := by
  obtain ⟨_, e⟩ | ⟨_, _, e⟩ | ⟨_, _, e⟩ := phraseGive_cases k c <;> rw [e] <;> exact ⟨rfl, rfl, rfl⟩

theorem StepStands.silent {w : Tables} {n : Fin 4} {c : ChanRun} (hu : w.progs[n].inUse = true)
    (hk : c.kind ≠ .phrase) : StepStands w n c := ⟨hu, fun h => absurd h hk⟩

/-- A step that begins in a program in use stands, but that a step which is none of R126 leaves the channel as
it is. -/
theorem beginStep_stands (n : Fin 4) (k : Nat) (s : State) (hu : s.work.progs[n].inUse = true) :
    StepStands s.work n (beginStep n k s).chans[n] ∨
      ((∀ p, s.work.progs[n].steps[k]? ≠ some (.named p)) ∧ beginStep n k s = s) := by
  have hmiss : ∀ p, (beginMissing n k p s).chans[n] =
      silentStep (samplePhase s) k .missing Config.missingMs s.chans[n] := by
    intro p
    unfold beginMissing
    rw [report_chans]
    exact upd_self _ _ _
  unfold beginStep
  split
  next w hw =>
    split
    next p hp =>
      split
      next hv =>
        simp only [Bool.and_eq_true, decide_eq_true_eq] at hv
        have hc : (beginPhrase n k p s).chans[n] = phraseStep k p s.chans[n] := upd_self _ _ _
        rw [hc]
        refine .inl ⟨hu, fun _ => ⟨w, p, ?_, hp, hv.1, ?_⟩⟩
        · unfold phraseStep
          rw [(phraseGive_keeps _ _).2.1]
          exact hw
        · exact phraseGive_within (Nat.le_refl _) (by dsimp only; omega) rfl nofun
      next => exact .inl (by rw [hmiss]; exact .silent hu nofun)
    next => exact .inl (by rw [hmiss]; exact .silent hu nofun)
  next ms _ =>
    have hc : (beginGap n k ms s).chans[n] = silentStep (samplePhase s) k .gap ms s.chans[n] := upd_self _ _ _
    exact .inl (by rw [hc]; exact .silent hu nofun)
  next h1 h2 =>
    refine .inr ⟨fun p hp => ?_, rfl⟩
    cases p with
    | phrase w => exact h1 w hp
    | gap ms => exact h2 ms hp

/-- A channel that starts runs a step that stands, or is left as it was but for the sample times owed. -/
theorem startChan_stands (n : Fin 4) (s : State) (hu : s.work.progs[n].inUse = true) :
    StepStands s.work n (startChan n s).chans[n] ∨ (startChan n s).chans[n] = { s.chans[n] with owed := 0 } := by
  obtain h | ⟨-, h⟩ := beginStep_stands n 0 (setChan n (fun c => { c with owed := 0 }) s) hu
  · exact .inl h
  · refine .inr ?_
    unfold startChan
    rw [h]
    exact setChan_self' n _ s

/-! ### What listener changes keep -/

/-- From `s` to `t` a channel that runs has its step as before, but for the listener count, or has begun a step
that stands. -/
structure StepsKept (s t : State) : Prop where
  work  : t.work = s.work
  phase : t.phase = s.phase
  step  : ∀ n : Fin 4, t.chans[n].state = .running →
    t.chans[n] = { s.chans[n] with listeners := t.chans[n].listeners } ∨ StepStands s.work n t.chans[n]

namespace StepsKept
variable {s t u : State}

theorem trans (h : StepsKept s t) (g : StepsKept t u) : StepsKept s u := by
  refine ⟨g.work.trans h.work, g.phase.trans h.phase, fun n hr => ?_⟩
  obtain e | hs := g.step n hr
  · obtain e' | hs := h.step n (by rw [e] at hr; exact hr)
    · rw [e'] at e
      exact .inl e
    · refine .inr ?_
      rw [e]
      exact hs
  · rw [h.work] at hs
    exact .inr hs

theorem same (hw : t.work = s.work) (hp : t.phase = s.phase) (hc : t.chans = s.chans) : StepsKept s t :=
  ⟨hw, hp, fun n _ => .inl (by rw [hc])⟩

/-- The steps stand afterwards where they stood before. -/
theorem stand (h : StepsKept s t) (hs : StepsStand s) : StepsStand t := by
  intro n hr
  rw [h.work]
  obtain e | hn := h.step n hr
  · have := hs n (by rw [e] at hr; exact hr)
    rw [e]
    exact this
  · exact hn

end StepsKept

theorem chanCount_steps (n : Fin 4) (k : Nat) (s : State) : StepsKept s (chanCount n k s) := by
  have hu : StepsKept s (setChan n (fun c => { c with listeners := k }) s) := by
    refine ⟨rfl, rfl, fun m _ => .inl ?_⟩
    by_cases hm : m = n
    · subst hm; rw [setChan_self']
    · rw [setChan_other' hm]
  obtain ⟨e, hr, -⟩ | ⟨e, -⟩ := chanCount_cases n k s
  · rw [e]
    refine hu.trans ⟨(startChan_sounds n _).hands.work, (startChan_sounds n _).hands.phase, fun m hm => ?_⟩
    by_cases hmn : m = n
    · subst hmn
      obtain hs | e := startChan_stands m (setChan m (fun c => { c with listeners := k }) s) hr.1
      · exact .inr hs
      · rw [e, setChan_self'] at hm
        exact absurd hm hr.stands
    · exact .inl (by rw [startChan_other hmn])
  · rw [e]
    exact hu

theorem steps_soundRel : SoundRel StepsKept where
  trans := .trans
  same hw _ _ hp _ hc := .same hw hp hc
  cad n f s := by
    unfold countCad
    split <;> exact .same rfl rfl rfl
  chan := chanCount_steps

end Sys2Proof.Machine

namespace Sys2Proof.Machine

/-! ## Steps that stand, but in some channels (O7) -/

/-- Every running channel's step stands, but perhaps in the channels `E`. -/
def StandsBut (E : Fin 4 → Prop) (s : State) : Prop :=
  ∀ n : Fin 4, s.chans[n].state = .running → ¬E n → StepStands s.work n s.chans[n]

theorem StepStands.of {w w' : Tables} {n : Fin 4} {c : ChanRun} (h : StepStands w n c)
    (hp : w'.progs[n] = w.progs[n]) (hw : w'.phrases = w.phrases) : StepStands w' n c := by
  unfold StepStands
  rw [hp, hw]
  exact h

theorem StepsStand.of {s t : State} (h : StepsStand s) (hc : t.chans = s.chans)
    (hp : t.work.progs = s.work.progs) (hw : t.work.phrases = s.work.phrases) : StepsStand t := by
  intro n hr
  rw [hc] at hr ⊢
  exact (h n hr).of (by rw [hp]) hw

namespace StandsBut
variable {E : Fin 4 → Prop} {s t : State}

theorem all (h : StandsBut E s) (hE : ∀ n, ¬E n) : StepsStand s := fun n hr => h n hr (hE n)

theorem of_all (h : StepsStand s) : StandsBut E s := fun n hr _ => h n hr

theorem mono {F : Fin 4 → Prop} (h : StandsBut E s) (hEF : ∀ n, E n → F n) : StandsBut F s :=
  fun n hr hn => h n hr fun he => hn (hEF n he)

theorem kept (h : StandsBut E s) (hk : StepsKept s t) : StandsBut E t := by
  intro n hr hn
  rw [hk.work]
  obtain e | hs := hk.step n hr
  · have := h n (by rw [e] at hr; exact hr) hn
    rw [e]
    exact this
  · exact hs

/-- A change of one channel that leaves it standing or not running. -/
theorem channel {n : Fin 4} (h : StandsBut E s) (hw : t.work = s.work)
    (ho : ∀ m, m ≠ n → t.chans[m] = s.chans[m])
    (hn : t.chans[n].state = .running → StepStands t.work n t.chans[n]) :
    StandsBut (fun m => E m ∧ m ≠ n) t := by
  intro m hr hm
  by_cases e : m = n
  · subst e; exact hn hr
  · rw [ho m e] at hr ⊢
    rw [hw]
    exact h m hr fun he => hm ⟨he, e⟩

theorem stop (h : StandsBut E s) (n : Fin 4) {st : ChanState} (hst : st ≠ .running) :
    StandsBut (fun m => E m ∧ m ≠ n) (stopChan n st s) := by
  refine h.channel rfl (fun m hm => setChan_other' hm _ _) fun hr => ?_
  rw [stopChan_eq, stopped_get] at hr
  exact absurd hr hst

/-- A step of a program in use begins. -/
theorem begins (h : StandsBut E s) {n : Fin 4} {k : Nat} (hok : ProgramsOk s.work)
    (hu : s.work.progs[n].inUse = true) (hk : k < s.work.progs[n].steps.length ∨ k = 0) :
    StandsBut (fun m => E m ∧ m ≠ n) (beginStep n k s) := by
  have hk' : k < s.work.progs[n].steps.length := by
    obtain ⟨-, h1, -, -⟩ := (programsOk_iff _).1 hok n hu
    omega
  refine h.channel (beginStep_sounds n k s).hands.work (fun m hm => beginStep_other hm k s) fun _ => ?_
  rw [(beginStep_sounds n k s).hands.work]
  obtain hs | ⟨hno, -⟩ := beginStep_stands n k s hu
  · exact hs
  · have hm := List.getElem?_eq_getElem hk'
    obtain ⟨w, -, hp⟩ | ⟨ms, hp⟩ := ((programsOk_iff _).1 hok n hu).2.2.2 _ (List.getElem_mem hk')
    all_goals
      rw [hp] at hm
      exact absurd hm (hno _)

theorem start (h : StandsBut E s) {n : Fin 4} (hok : ProgramsOk s.work) (hu : s.work.progs[n].inUse = true) :
    StandsBut (fun m => E m ∧ m ≠ n) (startChan n s) := by
  have hE : StandsBut (fun m => E m ∨ m = n) (setChan n (fun c => { c with owed := 0 }) s) := by
    intro m hr hm
    obtain ⟨hm, hne⟩ := not_or.1 hm
    rw [setChan_other' hne] at hr ⊢
    exact h m hr hm
  exact (begins hE hok hu (.inr rfl)).mono fun m hm => ⟨hm.1.resolve_right hm.2, hm.2⟩

/-- A step of a channel ends (R131, R137). -/
theorem ended (h : StandsBut E s) {n : Fin 4} (hok : ProgramsOk s.work) (hu : s.work.progs[n].inUse = true) :
    StandsBut (fun m => E m ∧ m ≠ n) (stepEnds n s) := by
  unfold stepEnds
  dsimp only
  split
  · exact h.stop n (by decide)
  split
  next hk => exact h.begins hok hu (.inl hk)
  split
  · exact (h.stop n (by decide : ChanState.ended ≠ .running)).kept (steps_soundRel.zones.removalAll _ _)
  · exact h.begins hok hu (.inr rfl)

end StandsBut

theorem stepEnds_work (n : Fin 4) (s : State) : (stepEnds n s).work = s.work :=
  stepEnds_keeps (P := fun t => t.work = s.work) (fun n st t h => (stopChan_sounds n st t).hands.work.trans h)
    (fun n k t h => (beginStep_sounds n k t).hands.work.trans h)
    (fun z p t h => (steps_soundRel.zones.removal z p t).work.trans h) n s rfl

/-- The end of the steps of the channels `f` among `l`, which alone need not stand before (R125). -/
theorem stepsEnd_stand {f : Fin 4 → Bool} (l : List (Fin 4)) (s : State) (hok : ProgramsOk s.work)
    (hu : ∀ n, f n = true → s.work.progs[n].inUse = true) (h : StandsBut (fun n => n ∈ l ∧ f n = true) s) :
    StepsStand (l.foldl (fun t n => if f n then stepEnds n t else t) s) := by
  induction l generalizing s with
  | nil => exact h.all fun n hn => nomatch hn.1
  | cons n l ih =>
    rw [List.foldl_cons]
    have hl : ∀ m, (m ∈ n :: l ∧ f m = true) ∧ m ≠ n → m ∈ l ∧ f m = true := by
      rintro m ⟨⟨hm, hf⟩, hne⟩
      exact ⟨(List.mem_cons.1 hm).resolve_left hne, hf⟩
    split
    next hf =>
      have hw := stepEnds_work n s
      exact ih _ (by rw [hw]; exact hok) (by rw [hw]; exact hu) ((h.ended hok (hu n hf)).mono hl)
    next hf =>
      exact ih s hok hu (h.mono fun m hm => hl m ⟨hm, fun e => hf (e ▸ hm.2)⟩)

/-! ## Writes of phrases and programs -/

theorem putPhrase_get {p k : Nat} (h : k ≠ p) (e : Phrase) (t : Tables) :
    (putEntry p (.phrase e) t).phrases[k]? = t.phrases[k]? := by
  show (updNat t.phrases p fun _ => e)[k]? = _
  rw [getElem?_updNat, if_neg (Ne.symm h)]

/-- A phrase's write ends the steps that play it, and leaves the others standing (R125). -/
theorem phraseWritten_stand (p : Nat) (e : Phrase) {s : State} (hok : ProgramsOk s.work) (h : StepsStand s) :
    StepsStand (phraseWritten p { s with work := putEntry p (.phrase e) s.work }) := by
  unfold phraseWritten
  refine stepsEnd_stand _ _ (hok.of_progs rfl) (fun n hn => ?_) fun n hr hn => ?_
  · exact (h n ((plays_iff _ p n).1 hn).1).1
  · obtain ⟨hu, hph⟩ := h n hr
    refine ⟨hu, fun hk => ?_⟩
    obtain ⟨k, q, h1, h2, h3⟩ := hph hk
    have hkp : k ≠ p := fun e' => hn ⟨List.mem_finRange n, (plays_iff _ p n).2 ⟨hr, hk, e' ▸ h1⟩⟩
    exact ⟨k, q, h1, (putPhrase_get hkp e s.work).trans h2, h3⟩

theorem putProgram_get (n : Fin 4) (e : Program) (t : Tables) :
    (putEntry n.val (.program e) t).progs = t.progs.set n e := updNat_fin t.progs n fun _ => e

/-- A program's write puts its channel into the state of R127, and leaves the others standing. -/
theorem progWritten_stand (n : Fin 4) {e e' : Program} {s : State} (hok : ProgramsOk s.work)
    (he : checkProgram e = some e') (h : StepsStand s) :
    StepsStand (progWritten n e' { s with work := putEntry n.val (.program e') s.work }) := by
  have hget := putProgram_get n e' s.work
  have hok' := putProgram_ok hok he (n := n)
  have hself : (putEntry n.val (.program e') s.work).progs[n] = e' := by rw [hget, vector_set_self]
  have hb : StandsBut (fun m => m = n) { s with work := putEntry n.val (.program e') s.work } := by
    intro m hr hm
    refine (h m hr).of ?_ rfl
    show (putEntry n.val (.program e') s.work).progs[m] = _
    rw [hget, vector_set_other hm]
  change ProgramsOk ({ s with work := putEntry n.val (.program e') s.work } : State).work at hok'
  change ({ s with work := putEntry n.val (.program e') s.work } : State).work.progs[n] = e' at hself
  generalize ({ s with work := putEntry n.val (.program e') s.work } : State) = w at hok' hself hb ⊢
  have stopped : ∀ st, st ≠ .running → StepsStand (stopChan n st w) := fun st hst =>
    (hb.stop n hst).all fun m hm => hm.2 hm.1
  have started : e'.inUse = true → StepsStand (startChan n w) := fun hu =>
    (hb.start hok' (by rw [hself]; exact hu)).all fun m hm => hm.2 hm.1
  unfold progWritten
  dsimp only
  split
  next => exact stopped .idle (by decide)
  next hu =>
    have hu : e'.inUse = true := by simpa using hu
    split
    · split
      · exact started hu
      · exact stopped .idle (by decide)
    · split
      · exact started hu
      · exact stopped .idle (by decide)
    · split
      · exact started hu
      · split
        · exact stopped .ended (by decide)
        · exact stopped .idle (by decide)
    next x hm =>
      -- a program in use has a mode of R126
      obtain ⟨⟨m, hm'⟩, -⟩ := checkProgram_stands (t := s.work) he hu
      rw [hm] at hm'
      cases hm'

end Sys2Proof.Machine

namespace Sys2Proof.Machine

/-! ## Sample times and milliseconds -/

theorem StepStands.gives {w : Tables} {n : Fin 4} {c : ChanRun} (h : StepStands w n c) (k : Nat) :
    StepStands w n (phraseGive k c) := by
  obtain ⟨hu, hp⟩ := h
  obtain ⟨hkind, hstep, -⟩ := phraseGive_keeps k c
  refine ⟨hu, fun hk => ?_⟩
  obtain ⟨j, p, h1, h2, h3, h4, h5, h6, h7⟩ := hp (hkind ▸ hk)
  exact ⟨j, p, hstep ▸ h1, h2, h3, phraseGive_within h4 h5 h6 h7⟩

theorem chanSamples_state (k : Nat) (c : ChanRun) : (chanSamples k c).state = c.state := by
  unfold chanSamples
  split
  · split
    · exact (phraseGive_keeps k c).2.2
    · split <;> rfl
    · split <;> rfl
  · rfl

theorem StepStands.sampled {w : Tables} {n : Fin 4} {c : ChanRun} (h : StepStands w n c) (k : Nat) :
    StepStands w n (chanSamples k c) := by
  unfold chanSamples
  split
  · split
    · exact h.gives k
    next hk => split <;> exact .silent h.1 (by simp [hk])
    next hk => split <;> exact .silent h.1 (by simp [hk])
  · exact h

theorem tickChan_state (b : Bool) (c : ChanRun) : (tickChan b c).state = c.state := by
  unfold tickChan
  split
  · rfl
  · split
    · rfl
    · exact chanSamples_state 16 c

theorem StepStands.ticked {w : Tables} {n : Fin 4} {c : ChanRun} (h : StepStands w n c) (b : Bool) :
    StepStands w n (tickChan b c) := by
  unfold tickChan
  split
  next hk => exact .silent h.1 hk.2.1
  · split
    · exact h
    · exact h.sampled 16

/-- Every channel counts on. -/
theorem StepsStand.counts {s t : State} {f : ChanRun → ChanRun} (h : StepsStand s) (hw : t.work = s.work)
    (hc : t.chans = updAll s.chans f) (hst : ∀ c, (f c).state = c.state)
    (hf : ∀ n c, StepStands s.work n c → StepStands s.work n (f c)) : StepsStand t := by
  intro n hr
  rw [hc, updAll_get] at hr ⊢
  rw [hw]
  exact hf n _ (h n (by rw [hst] at hr; exact hr))

/-! ## Captures (R140, R141) -/

theorem CaptureApart.none {s : State} (h : s.capture = none) : CaptureApart s := fun c p e => by
  rw [h] at e
  cases e

theorem captureRefusal_none {s : State} {p slot ms : Nat} (h : captureRefusal s p slot ms = none) :
    phraseInUse s p = false := by
  unfold captureRefusal at h
  split at h
  · cases h
  split at h
  · cases h
  split at h
  · cases h
  next hf => simpa using hf

theorem phraseInUse_of {s : State} {p : Nat} {n : Fin 4} {k : Nat} (hu : s.work.progs[n].inUse = true)
    (hr : s.chans[n].state = .running) (hs : s.work.progs[n].steps[k]? = some (.named (.phrase p))) :
    phraseInUse s p = true := by
  unfold phraseInUse
  rw [List.any_eq_true]
  refine ⟨n, List.mem_finRange n, ?_⟩
  rw [hu, hr, Bool.true_and, Bool.and_eq_true, List.any_eq_true]
  exact ⟨rfl, _, List.mem_of_getElem? hs, beq_self_eq_true _⟩

theorem mapPhrase_get {p k : Nat} (h : k ≠ p) (f : Phrase → Phrase) (s : State) :
    (mapPhrase p f s).work.phrases[k]? = s.work.phrases[k]? := by
  show (updNat s.work.phrases p f)[k]? = _
  rw [getElem?_updNat, if_neg (Ne.symm h)]

/-- A change of a phrase that no running channel plays. -/
theorem StepsStand.phrase {s t : State} {p : Nat} {f : Phrase → Phrase} (h : StepsStand s)
    (hc : t.chans = s.chans) (hw : t.work = (mapPhrase p f s).work)
    (hn : ∀ (n : Fin 4) (q : Phrase), s.chans[n].state = .running → s.work.progs[n].inUse = true →
      s.work.progs[n].steps[s.chans[n].step]? = some (.named (.phrase p)) →
      s.work.phrases[p]? = some q → q.valid = false) : StepsStand t := by
  intro n hr
  rw [hc] at hr ⊢
  rw [hw]
  obtain ⟨hu, hph⟩ := h n hr
  refine ⟨hu, fun hk => ?_⟩
  obtain ⟨k, q, h1, h2, h3, h4⟩ := hph hk
  have hkp : k ≠ p := by
    rintro rfl
    exact Bool.false_ne_true ((hn n q hr hu h1 h2).symm.trans h3)
  exact ⟨k, q, h1, (mapPhrase_get hkp f s).trans h2, h3, h4⟩

theorem beginCapture_plays (q : Request) {p slot ms : Nat} {s : State}
    (hr : captureRefusal s p slot ms = none) (hl : s.phase ≠ .loading) (h : StepsStand s) :
    PhrasesPlay (beginCapture q p slot ms s) := by
  have hfree := captureRefusal_none hr
  refine (phrasesPlay_iff _).2 ⟨?_, fun c x hc hx => ?_, fun e => absurd e hl⟩
  · refine h.phrase (p := p) (f := fun x => { x with valid := false }) rfl rfl fun n q hrun hu hs _ => ?_
    rw [phraseInUse_of hu hrun hs] at hfree
    cases hfree
  · obtain rfl := Option.some.inj hc
    have hx' : (updNat s.work.phrases p fun x => { x with valid := false })[p]? = some x := hx
    rw [getElem?_updNat, if_pos rfl] at hx'
    obtain ⟨y, -, rfl⟩ := Option.map_eq_some_iff.1 hx'
    rfl

theorem endCapture_plays {s : State} (hl : s.phase ≠ .loading) (h : PhrasesPlay s) :
    PhrasesPlay (endCapture s) := by
  obtain ⟨hs, ha, hq⟩ := (phrasesPlay_iff s).1 h
  unfold endCapture
  split
  · exact h
  next c hc =>
    have hp : ∀ m u, u.phase = s.phase → StepsStand u → u.capture = none →
        PhrasesPlay (placeOrDefer m u) := by
      intro m u hu hst hn
      have hq : PhrasesPlay u := (phrasesPlay_iff u).2
        ⟨hst, .none hn, fun e => absurd (hu.symm.trans e) hl⟩
      unfold placeOrDefer
      split <;> exact hq
    refine hp _ _ rfl ?_ rfl
    exact hs.phrase (p := c.phrase) (f := fun x => { x with length := c.recorded, valid := true }) rfl rfl
      fun n q _ _ _ hx => ha c q hc hx

theorem captureSample_capture (v : Vector (Option Sample) 32) (s : State) (c : Capture)
    (h : (captureSample v s).capture = some c) : ∃ d, s.capture = some d ∧ d.phrase = c.phrase := by
  unfold captureSample at h
  split at h
  next hn => rw [hn] at h; cases h
  next d hd =>
    split at h
    · exact ⟨c, h, rfl⟩
    · split at h
      · exact ⟨d, hd, by rw [← Option.some.inj h]⟩
      · exact ⟨c, h, rfl⟩

/-! ## What the zones' changes keep of a capture -/

/-- A capture in flight afterwards was in flight before. -/
def CaptureKept (s t : State) : Prop := ∀ c, t.capture = some c → s.capture = some c

theorem CaptureKept.same {s t : State} (h : t.capture = s.capture) : CaptureKept s t := fun c hc => by rwa [← h]

theorem abortCapture_kept (s : State) : CaptureKept s (abortCapture s) := fun c hc => by
  rw [abortCapture_capture] at hc
  cases hc

theorem capture_zoneRel : ZoneRel CaptureKept where
  list z := {
    refl := fun _ _ h => h
    trans := fun a b c h => a c (b c h)
    core := fun c s => .same (by rw [(offerCore_listOnly z c s).1])
    cut := fun _ _ => .same rfl }
  hand z s := .same (by rw [handOver_hands z s])
  lock s := by
    unfold updateLock
    dsimp only
    split
    · exact abortCapture_kept _
    · exact .same rfl

section
variable {s t : State}

theorem CaptureApart.of (h : CaptureApart s) (hw : t.work.phrases = s.work.phrases)
    (hc : ∀ c, t.capture = some c → ∃ d, s.capture = some d ∧ d.phrase = c.phrase) : CaptureApart t := by
  intro c p hp hx
  obtain ⟨d, hd, e⟩ := hc c hp
  rw [hw, ← e] at hx
  exact h d p hd hx

/-- A change of the sounds, under which the steps are kept, once the load has completed. -/
theorem PhrasesPlay.kept (h : PhrasesPlay s) (hk : StepsKept s t) (hc : CaptureKept s t)
    (hp : s.phase ≠ .loading) : PhrasesPlay t :=
  (phrasesPlay_iff t).2 ⟨hk.stand h.1, CaptureApart.of h.2.1 (by rw [hk.work]) fun c e => ⟨c, hc c e, rfl⟩,
    fun e => absurd (hk.phase.symm.trans e) hp⟩

/-- Nothing that the channels play has changed. -/
theorem PhrasesPlay.of (h : PhrasesPlay s) (hp : t.work.progs = s.work.progs)
    (hw : t.work.phrases = s.work.phrases) (hc : t.chans = s.chans) (hk : CaptureKept s t)
    (hph : t.phase = .loading → s.phase = .loading) : PhrasesPlay t := by
  obtain ⟨h1, h2, h3⟩ := (phrasesPlay_iff s).1 h
  refine (phrasesPlay_iff t).2 ⟨h1.of hc hp hw, h2.of hw fun c e => ⟨c, hk c e, rfl⟩, fun e => ?_⟩
  obtain ⟨ha, hb⟩ := h3 (hph e)
  refine ⟨by rw [hc]; exact ha, ?_⟩
  cases hcap : t.capture with
  | none => rfl
  | some c => rw [hk c hcap] at hb; cases hb

end

/-! ## A restart (R144) -/

theorem chanRestart_stand {n : Fin 4} {s : State} (hok : ProgramsOk s.work) (h : StepsStand s) :
    StepsStand (chanRestart n s) := by
  have stopped : ∀ st, st ≠ .running → StepsStand (stopChan n st s) := fun st hst =>
    ((StandsBut.of_all (E := fun _ => False) h).stop n hst).all fun m hm => hm.1
  unfold chanRestart
  dsimp only
  split
  next hr =>
    split
    · exact stopped .waiting (by decide)
    · exact ((StandsBut.of_all (E := fun _ => False) h).start hok (h n hr).1).all fun m hm => hm.1
  next hr => exact stopped _ hr

theorem chansRestart_stand {s : State} (hok : ProgramsOk s.work) (h : StepsStand s) :
    StepsStand (chansRestart s) := by
  have hall : ∀ (l : List (Fin 4)) (u : State), ProgramsOk u.work → StepsStand u →
      StepsStand (l.foldl (fun t n => chanRestart n t) u) := by
    intro l
    induction l with
    | nil => exact fun u _ h => h
    | cons n l ih =>
      intro u hu h
      rw [List.foldl_cons]
      refine ih (chanRestart n u) ?_ (chanRestart_stand hu h)
      rw [(chanRestart_sounds n u).hands.work]
      exact hu
  exact hall _ s hok h

theorem restartEffect_stand (b : Bool) {s : State} (hok : ProgramsOk s.work) (h : StepsStand s) :
    StepsStand (restartEffect b s) := by
  obtain ⟨-, -, hw, -, hc, -⟩ := restartBegun_frame b s
  have h2 : StepsStand (restartRung b s) := by
    unfold restartRung
    generalize restartBegun b s = u at hw hc ⊢
    have h1 : StepsStand (chansRestart u) :=
      chansRestart_stand (by rw [hw]; exact hok) (h.of hc (by rw [hw]) (by rw [hw]))
    generalize chansRestart u = v at h1 ⊢
    exact (steps_soundRel.ringToOutputs (ringAnew v)).stand (h1.of rfl rfl rfl)
  rw [restartEffect_tail]
  generalize restartRung b s = v at h2 ⊢
  have hw : (supervisionRestart (wardenRestart (cadsRestart (outsRestart v)))).work = v.work := by
    rw [restartTail_eq]
  exact h2.of (restartTail_chans v) (by rw [hw]) (by rw [hw])

end Sys2Proof.Machine

namespace Sys2Proof.Machine

/-! ## The channels' phrases, move by move (O7) -/

section
variable {s t : State}

theorem OutputsFollow.not_loading (h : OutputsFollow s) (hl : Live s) : s.phase ≠ .loading :=
  fun e => hl e (h.2 e).1

/-- A removal from a zone without claims changes nothing. -/
theorem removal_empty {z : Zone} {p : Claim → Bool} (h : s.lists[z] = []) : removal z p s = s := by
  unfold removal
  rw [h]
  rfl

theorem removal_loading (hf : OutputsFollow s) (hp : s.phase = .loading) (z : Zone) (p : Claim → Bool) :
    removal z p s = s := removal_empty ((hf.2 hp).2 z).1

/-- The steps stand once the load has completed. -/
theorem PhrasesPlay.running (hs : StepsStand t) (ha : CaptureApart t) (hp : t.phase ≠ .loading) :
    PhrasesPlay t := (phrasesPlay_iff t).2 ⟨hs, ha, fun e => absurd e hp⟩

/-- A channel's own change, which the commands that are not `byZones` alone make. -/
theorem PhrasesPlay.sounds (h : PhrasesPlay s) (ht : SoundsOnly s t) (hs : StepsStand t)
    (hp : s.phase ≠ .loading) : PhrasesPlay t :=
  .running hs (CaptureApart.of h.2.1 (by rw [ht]) fun c e => ⟨c, by rw [ht] at e; exact e, rfl⟩)
    (by rw [ht]; exact hp)

theorem hands_capture (h : HandsOnly s t) : CaptureKept s t := .same (by rw [h])

/-- A change that is none of the channels'. -/
theorem PhrasesPlay.hands (h : PhrasesPlay s) (ht : HandsOnly s t) (hc : t.chans = s.chans) : PhrasesPlay t :=
  h.of (by rw [ht.work]) (by rw [ht.work]) hc (hands_capture ht) (by rw [ht.phase]; exact id)

theorem abortCapture_plays (h : PhrasesPlay s) : PhrasesPlay (abortCapture s) :=
  h.of (by rw [abortCapture_frame]) (by rw [abortCapture_frame]) (by rw [abortCapture_frame])
    (abortCapture_kept s) (by rw [abortCapture_phase]; exact id)

theorem updateLock_plays (h : PhrasesPlay s) : PhrasesPlay (updateLock s) :=
  h.of (by rw [updateLock_work]) (by rw [updateLock_work]) (updateLock_chans s) (capture_zoneRel.lock s)
    (by rw [updateLock_phase]; exact id)

theorem captureSample_plays (v : Vector (Option Sample) 32) (h : PhrasesPlay s) :
    PhrasesPlay (captureSample v s) := by
  obtain ⟨h1, h2, h3⟩ := (phrasesPlay_iff s).1 h
  have e := captureSample_frame v s
  have hcap := captureSample_capture v s
  generalize captureSample v s = t at e hcap ⊢
  refine (phrasesPlay_iff t).2 ⟨h1.of (by rw [e]) (by rw [e]) (by rw [e]), h2.of (by rw [e]) hcap, fun hp => ?_⟩
  obtain ⟨ha, hb⟩ := h3 (by rw [e] at hp; exact hp)
  refine ⟨by rw [e]; exact ha, ?_⟩
  cases hc : t.capture with
  | none => rfl
  | some c =>
    obtain ⟨d, hd, -⟩ := hcap c hc
    rw [hb] at hd
    cases hd

theorem tick_plays (h : PhrasesPlay s) : PhrasesPlay (tick s) := by
  obtain ⟨h1, h2, h3⟩ := (phrasesPlay_iff s).1 h
  have e := tick_eq s
  have hc : (tick s).chans = updAll s.chans (tickChan s.locked) := (congrArg State.chans e).trans rfl
  have hcap : (tick s).capture = s.capture := (congrArg State.capture e).trans rfl
  refine (phrasesPlay_iff _).2 ⟨h1.counts (tick_work s) hc (tickChan_state _) fun n c hc => hc.ticked _,
    h2.of (by rw [tick_work]) fun c e => ⟨c, by rw [← hcap]; exact e, rfl⟩, fun hp => ?_⟩
  obtain ⟨ha, hb⟩ := h3 (by rw [← tick_phase]; exact hp)
  refine ⟨fun n => ?_, by rw [hcap]; exact hb⟩
  rw [hc, updAll_get, tickChan_state]
  exact ha n

theorem spkWritten_captureKept (z : Zone) (a b : SpkZone) (s : State) : CaptureKept s (spkWritten z a b s) := by
  unfold spkWritten
  split
  · unfold zoneLeaves
    dsimp only
    intro c hc
    have hc := capture_zoneRel.lock _ c hc
    rw [(arbiter_pool _).hands.capture] at hc
    have h := (listenerChange_sounds s.outs[z].effective .none (setOut z mutedOut (setList z [] s))).hands.capture
    exact h ▸ hc
  · exact .same rfl
  · have h1 : (trimChange z a b s).capture = s.capture := by
      unfold trimChange
      split <;> rfl
    have h2 := lineCfgChange_supervision z a b (trimChange z a b s)
    have h3 := eligibleChange_pool a b (lineCfgChange z a b (trimChange z a b s))
    exact .same (by rw [h3.hands.capture, h2, h1])
  · exact .same rfl

theorem ring_plays (st : RingState) (h : PhrasesPlay s) (hp : s.phase ≠ .loading) :
    PhrasesPlay (enterRing st s) := by
  have h1 : PhrasesPlay (setRing st s) := h
  exact h1.kept (steps_soundRel.ringToOutputs _) (hands_capture (ringToOutputs_hands _)) hp

theorem phraseWrite_plays (p : Nat) (e : Phrase) (hok : ProgramsOk s.work) (h : PhrasesPlay s)
    (hp : s.phase ≠ .loading) (hc : ∀ x, s.capture = some x → x.phrase ≠ p) :
    PhrasesPlay (phraseWritten p { s with work := putEntry p (.phrase e) s.work }) := by
  have hk := capture_zoneRel.phraseWritten (fun n st s => .same (by rw [stopChan_sounds n st s]))
    (fun n k s => .same (by rw [beginStep_sounds n k s])) p { s with work := putEntry p (.phrase e) s.work }
  have hz : ZoneRel fun s t : State => t.work = s.work ∧ t.phase = s.phase := {
    list := fun z => {
      refl := fun _ => ⟨rfl, rfl⟩
      trans := fun a b => ⟨b.1.trans a.1, b.2.trans a.2⟩
      core := fun c s => by rw [(offerCore_listOnly z c s).1]; exact ⟨rfl, rfl⟩
      cut := fun _ _ => ⟨rfl, rfl⟩ }
    hand := fun z s => ⟨(handOver_hands z s).work, (handOver_hands z s).phase⟩
    lock := fun s => ⟨updateLock_work s, updateLock_phase s⟩ }
  obtain ⟨hw, hph⟩ := hz.phraseWritten (fun n st s => ⟨rfl, rfl⟩)
    (fun n k s => ⟨(beginStep_sounds n k s).hands.work, (beginStep_sounds n k s).hands.phase⟩) p
    { s with work := putEntry p (.phrase e) s.work }
  refine .running (phraseWritten_stand p e hok h.1) (fun c q hq hx => ?_) (by rw [hph]; exact hp)
  have hcap : s.capture = some c := hk c hq
  rw [hw] at hx
  exact h.2.1 c q hcap ((putPhrase_get (hc c hcap) e s.work).symm.trans hx)

end

/-- Every move of a command keeps the channels in their phrases, where one that changes channels on its own
comes once the load has completed. -/
theorem Move.plays {c : Instr} {s t : State} (hm : Move c s t) (hb : byZones c = false → s.phase ≠ .loading)
    (hf : OutputsFollow s) (hg : ProgramsStand s) (h : PhrasesPlay s) : PhrasesPlay t := by
  have zones : ∀ {u : State}, StepsKept s u → CaptureKept s u → Live s → PhrasesPlay u := fun hk hc hl =>
    h.kept hk hc (hf.not_loading hl)
  have one : ∀ {u : State}, StepsStand u → SoundsOnly s u → byZones c = false → PhrasesPlay u := fun hs hu hc =>
    h.sounds hu hs (hb hc)
  have all : StandsBut (fun _ => False) s := .of_all h.1
  induction hm with
  | aside ht => rw [ht]; exact h
  | report b s => exact h.hands (report_sounds b s).hands (report_chans b s)
  | captureBegun q p slot ms s hr _ => exact beginCapture_plays q hr (hb ‹byZones c = false›) h.1
  | captureEnded s => exact endCapture_plays (hb ‹byZones c = false›) h
  | captureSampled v s => exact captureSample_plays v h
  | recorded r s hp _ _ _ =>
    exact h.kept (s := { s with acts := s.acts ++ [r] }) (steps_soundRel.lock _) (capture_zoneRel.lock _)
      (by show s.phase ≠ _; rw [hp]; decide)
  | recordGone dz b s =>
    exact updateLock_plays (s := { s with acts := s.acts.filter fun r => r.dz != dz, overflow := b }) h
  | offer z x s hl => exact zones (steps_soundRel.zones.offer z x s) (capture_zoneRel.offer z x s) hl
  | removal z p s =>
    by_cases hp : s.phase = .loading
    · rw [removal_loading hf hp]; exact h
    · exact h.kept (steps_soundRel.zones.removal z p s) (capture_zoneRel.removal z p s) hp
  | started n s hl hu =>
    exact one ((all.start hg.work hu).all fun m hm => hm.1) (startChan_sounds n s) ‹byZones c = false›
  | begun n k s hl hr hk =>
    exact one ((all.begins hg.work (h.1 n hr).1 hk).all fun m hm => hm.1) (beginStep_sounds n k s)
      ‹byZones c = false›
  | stopped n st s hs _ =>
    exact one ((all.stop n hs).all fun m hm => hm.1) (stopChan_sounds n st s) ‹byZones c = false›
  | sampled s =>
    exact one (StepsStand.counts h.1 rfl rfl (chanSamples_state 1) fun n c hc => hc.sampled 1) rfl
      ‹byZones c = false›
  | cadenceMoved n s _ => exact h
  | tables w s _ h2 _ h4 => exact h.of h2 h4 rfl (.same rfl) id
  | zoneWritten z e s hp =>
    exact PhrasesPlay.kept (s := { s with work := putEntry z.val (.spkZone e) s.work }) h
      (steps_soundRel.spkWritten z _ e _) (spkWritten_captureKept z _ e _) (by show s.phase ≠ _; rw [hp]; decide)
  | cadenceWritten n e s => exact h
  | phraseWritten p e s hp hc => exact phraseWrite_plays p e hg.work h (by rw [hp]; decide) hc
  | programWritten n e e' s hp he =>
    have hs := progWritten_sounds n e' { s with work := putEntry n.val (.program e') s.work }
    exact .running (progWritten_stand n hg.work he h.1)
      (CaptureApart.of h.2.1 (by rw [hs]; rfl) fun c e => ⟨c, by rw [hs] at e; exact e, rfl⟩)
      (by rw [hs]; show s.phase ≠ _; rw [hp]; decide)
  | tableDone x s _ => rw [commitGoesOn_frame]; exact h
  | powerLost s => rw [cutCommit_frame]; exact h.of rfl rfl rfl (.same rfl) nofun
  | windowJudged s => rw [windowVerdicts_supervision s]; exact h
  | ringEntered st s hp _ => exact ring_plays st h (by rw [hp]; decide)
  | ringLost s hp =>
    have hr : PhrasesPlay (enterRing .lost (leaveLocked s)) := ring_plays .lost h (by show s.phase ≠ _; rw [hp]; decide)
    exact abortCapture_plays hr
  | loaded s hp => exact absurd hp (hb ‹byZones c = false›)
  | restarted b s _ hp _ =>
    obtain ⟨-, -, hph, -⟩ := restartEffect_frame b s
    have hcap := (congrArg State.capture (restartEffect_whole b s)).trans rfl
    exact .running (restartEffect_stand b hg.work h.1) (.none hcap) (by rw [hph, hp]; decide)
  | cold b s t _ ht =>
    cases ht
    exact coldState_playing _ _ _ _ _ _ _
  | ticked o s _ => exact tick_plays h
  | _ => exact h

end Sys2Proof.Machine

namespace Sys2Proof.Machine

/-! ## Commands that change channels on their own (O7) -/

/-- What starts or changes channels beside the zones acts only once the load has completed, but for the load
itself and a frame of the ring. -/
theorem exec_not_running {c : Instr} {s : State} (hb : byZones c = false) (h1 : c ≠ .startUpLoadComplete)
    (h2 : ∀ f gap mic, c ≠ .ringFrameReceived f gap mic) (hp : s.phase ≠ .running) : exec c s = .next s := by
  have hr : s.running = false := by simpa [State.running] using hp
  have hc : ∀ {e : Entry} {x y : State → Nat} {f : State → State}, commandWith e x y f s = .next s := by
    intro e x y f
    have hm : ∀ n, mayBegin s n = false := fun n => by simp [mayBegin, hr]
    unfold commandWith
    split <;> exact whenever_not (by simp [hm]) _ s
  cases c with
  | startUpLoadComplete => exact absurd rfl h1
  | ringFrameReceived f gap mic => exact absurd rfl (h2 f gap mic)
  | ringLock =>
    show execRingLock s = _
    exact whenever_not (by rw [hr]; rfl) _ s
  | isolatedRelock =>
    show execIsolatedRelock s = _
    exact whenever_not (by rw [hr]; rfl) _ s
  | ringLoss =>
    show execRingLoss s = _
    exact whenever_not (by rw [hr]; rfl) _ s
  | ringIsolation =>
    show execRingIsolation s = _
    exact whenever_not (by rw [hr]; rfl) _ s
  | cadencePhaseEnd n =>
    show execCadencePhaseEnd n s = _
    exact whenever_not (by rw [hr]; rfl) _ s
  | playoutStepEnd n =>
    show execPlayoutStepEnd n s = _
    exact whenever_not (by rw [hr]; rfl) _ s
  | playStart q n => exact hc
  | playStop q n => exact hc
  | capture q p n ms => exact hc
  | captureLimit =>
    show execCaptureLimit s = _
    exact whenever_not (by rw [hr]; rfl) _ s
  | captureStop q => exact hc
  | tableWrite q t n x => exact hc
  | _ => cases hb

/-! ## A frame of the ring -/

/-- From `s` to `t` a frame of the ring has come: tables, phase, outputs and cadences are as before, and the
channels have at most given a sample time each (R129). -/
structure FrameCame (s t : State) : Prop where
  work    : t.work = s.work
  phase   : t.phase = s.phase
  lists   : t.lists = s.lists
  outs    : t.outs = s.outs
  cads    : t.cads = s.cads
  chans   : t.chans = s.chans ∨ t.chans = updAll s.chans (chanSamples 1)
  capture : ∀ c, t.capture = some c → ∃ d, s.capture = some d ∧ d.phrase = c.phrase

/-- What the RIF and the slots of the ring make of the frame is not said. -/
theorem FrameCame.rung {s t : State} (h : FrameCame s t) (x : SlotTable) (r : Rif) :
    FrameCame s { t with slots := x, rif := r } := by
  obtain ⟨h1, h2, h3, h4, h5, h6, h7⟩ := h
  exact ⟨h1, h2, h3, h4, h5, h6, h7⟩

theorem frameSampled_came (f : Frame) (gap : Bool) (s : State) : FrameCame s (frameSampled f gap s) := by
  have hn : FrameCame s (noteFrame f gap s) := ⟨rfl, rfl, rfl, rfl, rfl, .inl rfl, fun c hc => ⟨c, hc, rfl⟩⟩
  unfold frameSampled
  dsimp only
  split
  · have hv := captureSample_capture (noteFrame f gap s).rif.heard { noteFrame f gap s with
      chans := updAll (noteFrame f gap s).chans (chanSamples 1)
      sampleTimes := (noteFrame f gap s).sampleTimes + 1 }
    refine ⟨?_, ?_, ?_, ?_, ?_, .inr ?_, hv⟩ <;> rw [captureSample_frame] <;> rfl
  · exact hn

theorem exec_frame_came {f : Frame} {gap : Bool} {mic : Sample} {s t : State}
    (h : exec (.ringFrameReceived f gap mic) s = .next t) : FrameCame s t := by
  have same : FrameCame s s := ⟨rfl, rfl, rfl, rfl, rfl, .inl rfl, fun c hc => ⟨c, hc, rfl⟩⟩
  obtain ⟨-, ht⟩ | ⟨-, ht⟩ := whenever_cases (show execRingFrameReceived f gap mic s = .next t from h)
  · rw [ht]
    split
    · exact same.rung s.slots { s.rif with ringOut := some f }
    · rw [takeFrame_eq, handOn_frame, receiveControl_frame]
      have hc := frameSampled_came f gap s
      generalize frameSampled f gap s = v at hc ⊢
      exact hc.rung _ _
  · rw [ht]
    exact same

theorem FrameCame.plays {s t : State} (h : FrameCame s t) (hs : PhrasesPlay s) : PhrasesPlay t := by
  obtain ⟨h1, h2, h3⟩ := (phrasesPlay_iff s).1 hs
  have hst : ∀ n : Fin 4, t.chans[n].state = s.chans[n].state := by
    intro n
    obtain e | e := h.chans <;> rw [e]
    rw [updAll_get, chanSamples_state]
  refine (phrasesPlay_iff t).2 ⟨?_, h2.of (by rw [h.work]) h.capture, fun hp => ?_⟩
  · obtain e | e := h.chans
    · exact h1.of e (by rw [h.work]) (by rw [h.work])
    · exact h1.counts h.work e (chanSamples_state 1) fun n c hc => hc.sampled 1
  · obtain ⟨ha, hb⟩ := h3 (h.phase.symm.trans hp)
    refine ⟨fun n => by rw [hst]; exact ha n, ?_⟩
    cases hc : t.capture with
    | none => rfl
    | some c =>
      obtain ⟨d, hd, -⟩ := h.capture c hc
      rw [hb] at hd
      cases hd

/-! ## The load (R203) -/

theorem windowObserved_frame (v : State) : (windowRestart (observeKey v)).phase = v.phase ∧
    (windowRestart (observeKey v)).work = v.work ∧ (windowRestart (observeKey v)).chans = v.chans ∧
    (windowRestart (observeKey v)).capture = v.capture ∧ (windowRestart (observeKey v)).outs = v.outs ∧
    (windowRestart (observeKey v)).cads = v.cads := by
  unfold windowRestart observeKey setWarden
  exact ⟨rfl, rfl, rfl, rfl, rfl, rfl⟩

/-- What the load begins of inputs, key and window clock leaves the rest as the load made it. -/
theorem loadBegins_frame (b : ReportBody) (u : State) : ∃ v : State,
    report b (windowRestart (observeKey (startInputs u))) = v ∧ v.phase = u.phase ∧ v.work = u.work ∧
      v.chans = u.chans ∧ v.capture = u.capture ∧ v.outs = u.outs ∧ v.cads = u.cads := by
  refine ⟨_, rfl, ?_⟩
  have h := report_sounds b (windowRestart (observeKey (startInputs u)))
  have hc := report_chans b (windowRestart (observeKey (startInputs u)))
  have hd := report_cads b (windowRestart (observeKey (startInputs u)))
  obtain ⟨w1, w2, w3, w4, w5, w6⟩ := windowObserved_frame (startInputs u)
  have e := startInputs_frame u
  generalize startInputs u = v at *
  refine ⟨h.hands.phase.trans (w1.trans ?_), h.hands.work.trans (w2.trans ?_), hc.trans (w3.trans ?_),
    h.hands.capture.trans (w4.trans ?_), h.outs.trans (w5.trans ?_), hd.trans (w6.trans ?_)⟩ <;> rw [e]

/-- The load leaves the channels and a capture as they were, with the tables loaded. -/
theorem exec_load_frame {s t : State} (hp : s.phase = .loading) (ho : ∀ z : Zone, s.outs[z] = mutedOut)
    (h : exec .startUpLoadComplete s = .next t) : t.phase = .running ∧ t.work = loadTables s ∧
      t.chans = s.chans ∧ t.capture = s.capture ∧ t.outs = s.outs ∧
      t.cads = Vector.ofFn fun i => cadStop (loadTables s).cad[i].on s.cads[i] := by
  obtain ⟨v, hv, h1, h2, h3, h4, h5, h6⟩ :=
    loadBegins_frame (.coldStart (failingTables s) (loadedState s).rif.addr) (loadedState s)
  rw [exec_startUpLoadComplete hp ho, hv] at h
  injection h with h
  rw [← h]
  exact ⟨h1, h2, h3, h4, h5, h6⟩

/-- The load before its time changes nothing. -/
theorem exec_load_not {s t : State} (hp : s.phase ≠ .loading) (h : exec .startUpLoadComplete s = .next t) :
    t = s := by
  obtain ⟨hl, -⟩ | ⟨-, ht⟩ := whenever_cases (show execStartUpLoadComplete s = .next t from h)
  · exact absurd (by simpa using hl) hp
  · exact ht

theorem exec_load_plays {s t : State} (hf : OutputsFollow s) (hs : PhrasesPlay s)
    (h : exec .startUpLoadComplete s = .next t) : PhrasesPlay t := by
  by_cases hp : s.phase = .loading
  · obtain ⟨h1, -, h3, h4, -⟩ := exec_load_frame hp (fun z => ((hf.2 hp).2 z).2) h
    obtain ⟨ha, hb⟩ := hs.2.2 hp
    exact .running (fun n hr => absurd (by rw [h3] at hr; exact hr) (ha n)) (.none (h4.trans hb))
      (by rw [h1]; decide)
  · rw [exec_load_not hp h]
    exact hs

/-! ## Every step (O7) -/

/-- A command that is not the cold start does not bring the router into its load. -/
theorem Move.not_loading {c : Instr} {s t : State} (hm : Move c s t) (hc : ∀ b, c ≠ .coldStart b)
    (hp : s.phase ≠ .loading) : t.phase ≠ .loading := by
  have same : ∀ {u : State}, u.phase = s.phase → u.phase ≠ .loading := fun e => by rw [e]; exact hp
  cases hm with
  | aside ht => rw [ht]; exact hp
  | report b s => exact same (report_sounds b s).hands.phase
  | captureEnded s => rw [endCapture_frame]; exact hp
  | captureSampled v s => rw [captureSample_frame]; exact hp
  | recorded r s _ _ _ _ => exact same (updateLock_phase _)
  | recordGone dz b s => exact same (updateLock_phase _)
  | offer z x s _ => exact same (steps_soundRel.zones.offer z x s).phase
  | removal z p s => exact same (steps_soundRel.zones.removal z p s).phase
  | started n s _ _ => exact same (startChan_sounds n s).hands.phase
  | begun n k s _ _ _ => exact same (beginStep_sounds n k s).hands.phase
  | zoneWritten z e s _ =>
    exact same (steps_soundRel.spkWritten z s.work.spk[z] e
      { s with work := putEntry z.val (.spkZone e) s.work }).phase
  | phraseWritten p e s _ _ =>
    have h := (phraseWritten_onlyZones p { s with work := putEntry p (.phrase e) s.work }).phase
    exact same h
  | programWritten n e e' s _ _ =>
    exact same (progWritten_sounds n e' { s with work := putEntry n.val (.program e') s.work }).hands.phase
  | tableDone x s _ => rw [commitGoesOn_frame]; exact hp
  | powerLost s => exact nofun
  | windowJudged s => rw [windowVerdicts_supervision s]; exact hp
  | ringEntered st s _ _ => exact same (ringToOutputs_hands (setRing st s)).phase
  | ringLost s _ => exact same ((abortCapture_phase _).trans (ringToOutputs_hands (setRing .lost (leaveLocked s))).phase)
  | loaded s hl => exact absurd hl hp
  | restarted b s _ _ _ => exact same (restartEffect_frame b s).2.2.1
  | cold b s t hb _ => exact absurd hb (hc b)
  | ticked o s _ => exact same (tick_phase s)
  | _ => exact hp

/-- A command carried out keeps the channels in their phrases. -/
theorem exec_plays {c : Instr} {s t : State} (h : exec c s = .next t) (hf : OutputsFollow s)
    (hg : ProgramsStand s) (hs : PhrasesPlay s) : PhrasesPlay t := by
  have run : (byZones c = false → s.phase ≠ .loading) → PhrasesPlay t := by
    intro hb
    have hall : OutputsFollow t ∧ ProgramsStand t ∧ PhrasesPlay t ∧ (byZones c = false → t.phase ≠ .loading) := by
      have hm := exec_moves h
      clear h
      induction hm with
      | refl => exact ⟨hf, hg, hs, hb⟩
      | tail _ hm ih =>
        obtain ⟨hf, hg, hs, hb⟩ := ih
        refine ⟨hm.follow hf, hm.programs hg, hm.plays hb hf hg hs, fun e => hm.not_loading ?_ (hb e)⟩
        rintro b rfl
        cases e
    exact hall.2.2.1
  by_cases hl : c = .startUpLoadComplete
  · subst hl
    exact exec_load_plays hf hs h
  by_cases hr : ∃ f gap mic, c = .ringFrameReceived f gap mic
  · obtain ⟨f, gap, mic, rfl⟩ := hr
    exact (exec_frame_came h).plays hs
  cases hb : byZones c with
  | true => exact run fun e => by rw [hb] at e; cases e
  | false =>
    by_cases hp : s.phase = .running
    · exact run fun _ => by rw [hp]; decide
    · rw [exec_not_running hb hl (fun f gap mic e => hr ⟨f, gap, mic, e⟩) hp] at h
      injection h with h
      rw [← h]
      exact hs

/-- Settles O7: the store and the programs move by move; the channels' phrases jointly with the outputs, as
claims change channels only once the load has completed. -/
theorem storeFormKept : Obligations.StoreFormKept := by
  refine ⟨fun s t hs ht => step_keeps (P := StoreOk) (fun _ _ h => h) (fun _ _ _ hm => hm.storeOk) hs ht,
    fun s t hs ht => step_keeps (P := ProgramsStand) (fun _ _ h => h.of rfl rfl rfl rfl)
      (fun _ _ _ hm => hm.programs) hs ht, fun s t hf hg hs ht => ?_⟩
  unfold Machine.step at ht
  split at ht
  · cases ht
    exact hs
  next c rest _ =>
    exact exec_plays ht (hf.of rfl rfl rfl rfl id .inl) (hg.of rfl rfl rfl rfl) hs

end Sys2Proof.Machine

namespace Sys2Proof.Machine

/-! ## Listener counts (O12) -/

/-- The number of zones whose effective source is `x`. -/
def zonesOf (s : State) (x : Source) : Nat := (allZones.filter fun z => s.outs[z].effective == x).length

/-- One for a source that is the one counted. -/
def hits (a x : Source) : Nat := if a = x then 1 else 0

theorem listenersCounted_iff (s : State) : ListenersCounted s ↔ ∀ n : Fin 4,
    s.cads[n].listeners = zonesOf s (.tone n.val) ∧ s.chans[n].listeners = zonesOf s (.playout n.val) := Iff.rfl

/-- Two counts over a list without repetition, of conditions that agree but at one member. -/
theorem filter_length_change {α : Type} {p q : α → Bool} {z : α} (l : List α) (hl : l.Nodup) (hz : z ∈ l)
    (h : ∀ y, y ≠ z → q y = p y) :
    (l.filter q).length + (if p z = true then 1 else 0) = (l.filter p).length + if q z = true then 1 else 0 := by
  induction l with
  | nil => cases hz
  | cons y l ih =>
    obtain ⟨hy, hl⟩ := List.nodup_cons.1 hl
    by_cases e : y = z
    · subst e
      have hf : l.filter q = l.filter p := List.filter_congr fun x hx => h x fun e => hy (e ▸ hx)
      simp only [List.filter_cons, hf]
      cases p y <;> cases q y <;> simp
    · have := ih hl ((List.mem_cons.1 hz).resolve_left fun e' => e e'.symm)
      simp only [List.filter_cons, h y e]
      cases p y <;> simp <;> omega

theorem zonesOf_setOut (z : Zone) (o : ZoneOut) (s : State) (x : Source) :
    zonesOf (setOut z o s) x + hits s.outs[z].effective x = zonesOf s x + hits o.effective x := by
  have h := filter_length_change (p := fun y : Zone => s.outs[y].effective == x)
    (q := fun y : Zone => (setOut z o s).outs[y].effective == x) allZones nodup_allZones (mem_allZones z)
    fun y hy => by rw [setOut_other hy]
  simp only [setOut_self, beq_iff_eq] at h
  exact h

theorem cadCount_listeners (on n : Nat) (c : CadRun) : (cadCount on n c).listeners = n := by
  obtain e | e | e := cadCount_cases on n c <;> rw [e] <;> rfl

theorem chanCount_listeners (n m : Fin 4) (k : Nat) (s : State) :
    (chanCount n k s).chans[m].listeners = if m = n then k else s.chans[m].listeners := by
  have hu : (setChan n (fun c => { c with listeners := k }) s).chans[m].listeners =
      if m = n then k else s.chans[m].listeners := by
    split
    next e => subst e; rw [setChan_self']
    next e => rw [setChan_other' e]
  obtain ⟨e, -⟩ | ⟨e, -⟩ := chanCount_cases n k s <;> rw [e]
  · rw [startChan_listeners]; exact hu
  · exact hu

theorem chanCount_cads (n : Fin 4) (k : Nat) (s : State) : (chanCount n k s).cads = s.cads := by
  obtain ⟨e, -⟩ | ⟨e, -⟩ := chanCount_cases n k s <;> rw [e]
  · rw [startChan_cads]; rfl
  · rfl

/-- A source counted on or off changes the count of its own cadence alone. -/
theorem countSource_cad (src : Source) (f : Nat → Nat) (s : State) (n : Fin 4) :
    (countSource src f s).cads[n].listeners =
      if src = .tone n.val then f s.cads[n].listeners else s.cads[n].listeners := by
  unfold countSource
  split
  next k =>
    unfold countCad
    split
    next hk =>
      by_cases e : n = ⟨k, hk⟩
      · subst e
        rw [if_pos rfl]
        show (upd s.cads _ _)[(⟨k, hk⟩ : Fin 4)].listeners = _
        rw [upd_self, cadCount_listeners]
      · rw [if_neg fun e' => e (Fin.ext (Source.tone.inj e').symm)]
        show (upd s.cads _ _)[n].listeners = _
        rw [upd_other e]
    next hk => rw [if_neg fun e => hk (by rw [Source.tone.inj e]; exact n.isLt)]
  next k =>
    rw [if_neg nofun]
    unfold countChan
    split
    · exact congrArg (fun v : Vector CadRun 4 => v[n].listeners) (chanCount_cads _ _ s)
    · rfl
  next h1 h2 => rw [if_neg fun e => h1 _ e]

/-- A source counted on or off changes the count of its own channel alone. -/
theorem countSource_chan (src : Source) (f : Nat → Nat) (s : State) (n : Fin 4) :
    (countSource src f s).chans[n].listeners =
      if src = .playout n.val then f s.chans[n].listeners else s.chans[n].listeners := by
  unfold countSource
  split
  next k =>
    rw [if_neg nofun]
    unfold countCad
    split <;> rfl
  next k =>
    unfold countChan
    split
    next hk =>
      rw [chanCount_listeners]
      by_cases e : n = ⟨k, hk⟩
      · subst e
        rw [if_pos rfl, if_pos rfl]
        rfl
      · rw [if_neg e, if_neg fun e' => e (Fin.ext (Source.playout.inj e').symm)]
    next hk => rw [if_neg fun e => hk (by rw [Source.playout.inj e]; exact n.isLt)]
  next h1 h2 => rw [if_neg fun e => h2 _ e]

/-- A zone's source counted off `a` and on `b` gives the new number of zones. -/
theorem count_moved {a b x : Source} {k l : Nat} (hne : a ≠ b) (h : k + hits a x = l + hits b x) :
    (if b = x then (if a = x then l - 1 else l) + 1 else if a = x then l - 1 else l) = k := by
  unfold hits at h
  by_cases hb : b = x
  · have ha : a ≠ x := fun e => hne (e.trans hb.symm)
    rw [if_pos hb, if_neg ha] at *
    exact h.symm
  · by_cases ha : a = x
    · rw [if_neg hb, if_pos ha] at *
      omega
    · rw [if_neg hb, if_neg ha] at *
      exact h.symm

/-- A zone's new output, with its listener change, keeps the counts (R89, R111). -/
theorem output_counted (z : Zone) (o : ZoneOut) {s : State} (h : ListenersCounted s) :
    ListenersCounted (listenerChange s.outs[z].effective o.effective (setOut z o s)) := by
  have hz := zonesOf_setOut z o s
  have ho := (listenerChange_sounds s.outs[z].effective o.effective (setOut z o s)).outs
  rw [listenersCounted_iff] at h ⊢
  intro n
  have hx : ∀ x, zonesOf (listenerChange s.outs[z].effective o.effective (setOut z o s)) x =
      zonesOf (setOut z o s) x := fun x => by unfold zonesOf; rw [ho]
  rw [hx, hx]
  have h1 := hz (.tone n.val)
  have h2 := hz (.playout n.val)
  obtain ⟨hc, hp⟩ := h n
  generalize s.outs[z].effective = a at *
  generalize o.effective = b at *
  unfold listenerChange
  split
  next e =>
    subst e
    exact ⟨hc.trans (Nat.add_right_cancel h1).symm, hp.trans (Nat.add_right_cancel h2).symm⟩
  next e =>
    rw [countSource_cad, countSource_cad, countSource_chan, countSource_chan]
    show (if b = .tone n.val then (if a = .tone n.val then s.cads[n].listeners - 1 else s.cads[n].listeners) + 1
      else if a = .tone n.val then s.cads[n].listeners - 1 else s.cads[n].listeners) = _ ∧
      (if b = .playout n.val then
        (if a = .playout n.val then s.chans[n].listeners - 1 else s.chans[n].listeners) + 1
      else if a = .playout n.val then s.chans[n].listeners - 1 else s.chans[n].listeners) = _
    rw [hc, hp]
    exact ⟨count_moved e h1, count_moved e h2⟩

/-- The sources heard and the listener counts are the same. -/
structure SameCounts (s t : State) : Prop where
  heard : ∀ z : Zone, t.outs[z].effective = s.outs[z].effective
  cads  : ∀ n : Fin 4, t.cads[n].listeners = s.cads[n].listeners
  chans : ∀ n : Fin 4, t.chans[n].listeners = s.chans[n].listeners

namespace SameCounts
variable {s t u : State}

theorem same (ho : t.outs = s.outs) (hc : t.cads = s.cads) (hp : t.chans = s.chans) : SameCounts s t :=
  ⟨fun z => by rw [ho], fun n => by rw [hc], fun n => by rw [hp]⟩

theorem trans (h : SameCounts s t) (g : SameCounts t u) : SameCounts s u :=
  ⟨fun z => (g.heard z).trans (h.heard z), fun n => (g.cads n).trans (h.cads n),
    fun n => (g.chans n).trans (h.chans n)⟩

theorem zones (h : SameCounts s t) (x : Source) : zonesOf t x = zonesOf s x := by
  unfold zonesOf
  exact congrArg List.length (List.filter_congr fun z _ => by rw [h.heard])

theorem counted (h : SameCounts s t) (hs : ListenersCounted s) : ListenersCounted t := by
  rw [listenersCounted_iff] at hs ⊢
  intro n
  rw [h.zones, h.zones, h.cads, h.chans]
  exact hs n

theorem pool (h : PoolOnly s t) : SameCounts s t := .same (by rw [h]) (by rw [h]) (by rw [h])

theorem supervision (h : SupervisionOnly s t) : SameCounts s t := .same (by rw [h]) (by rw [h]) (by rw [h])

theorem lock (s : State) : SameCounts s (updateLock s) :=
  .same (updateLock_outs s) (updateLock_cads s) (updateLock_chans s)

theorem stopped (n : Fin 4) (st : ChanState) (s : State) : SameCounts s (stopChan n st s) := by
  refine ⟨fun z => rfl, fun m => rfl, fun m => ?_⟩
  by_cases h : m = n
  · subst h; rw [stopChan_eq, stopped_get]
  · exact congrArg ChanRun.listeners (setChan_other' h _ s)

theorem begun (n : Fin 4) (k : Nat) (s : State) : SameCounts s (beginStep n k s) :=
  ⟨fun z => by rw [(beginStep_sounds n k s).outs], fun m => by rw [beginStep_cads],
    fun m => beginStep_listeners n m k s⟩

theorem started (n : Fin 4) (s : State) : SameCounts s (startChan n s) :=
  ⟨fun z => by rw [(startChan_sounds n s).outs], fun m => by rw [startChan_cads],
    fun m => startChan_listeners n m s⟩

/-- Every channel counts on. -/
theorem counting {f : ChanRun → ChanRun} (hf : ∀ c, (f c).listeners = c.listeners)
    (ho : t.outs = s.outs) (hc : t.cads = s.cads) (hp : t.chans = updAll s.chans f) : SameCounts s t :=
  ⟨fun z => by rw [ho], fun n => by rw [hc], fun n => by rw [hp, updAll_get, hf]⟩

end SameCounts

theorem handOver_counted (z : Zone) (s : State) (h : ListenersCounted s) : ListenersCounted (handOver z s) := by
  unfold handOver
  dsimp only
  split
  · exact (SameCounts.pool (arbiter_pool _)).counted (output_counted z _ h)
  · exact output_counted z _ h

theorem counted_zoneRel : ZoneRel fun s t => ListenersCounted s → ListenersCounted t where
  list z := {
    refl := fun _ h => h
    trans := fun a b h => b (a h)
    core := fun c s h => by
      have hl := (offerCore_listOnly z c s).1
      exact (SameCounts.same (by rw [hl]) (by rw [hl]) (by rw [hl])).counted h
    cut := fun _ _ h => h }
  hand := handOver_counted
  lock s h := (SameCounts.lock s).counted h

theorem ringToOutputs_counted (s : State) (h : ListenersCounted s) : ListenersCounted (ringToOutputs s) := by
  refine counted_zoneRel.foldl _ (fun t z h => ?_) allZones s h
  unfold ringToZone
  dsimp only
  split
  · exact output_counted z _ h
  · exact h

theorem zoneLeaves_counted (z : Zone) (s : State) (h : ListenersCounted s) :
    ListenersCounted (zoneLeaves z s) := by
  have hs : ListenersCounted (setList z [] s) := h
  have ho := output_counted z mutedOut hs
  unfold zoneLeaves
  dsimp only
  refine (SameCounts.lock _).counted ((SameCounts.pool (arbiter_pool _)).counted ?_)
  exact (SameCounts.same rfl rfl rfl).counted ho

theorem spkWritten_counted (z : Zone) (a b : SpkZone) (s : State) (h : ListenersCounted s) :
    ListenersCounted (spkWritten z a b s) := by
  unfold spkWritten
  split
  · exact zoneLeaves_counted z s h
  · exact h
  · refine (SameCounts.pool (eligibleChange_pool a b _)).counted
      ((SameCounts.supervision (lineCfgChange_supervision z a b _)).counted (SameCounts.counted ⟨fun y => ?_, ?_, ?_⟩ h))
    · unfold trimChange
      split
      · rfl
      · by_cases e : y = z
        · subst e; rw [setOut_self]; rfl
        · rw [setOut_other e]
    · unfold trimChange
      split <;> exact fun _ => rfl
    · unfold trimChange
      split <;> exact fun _ => rfl
  · exact h

end Sys2Proof.Machine

namespace Sys2Proof.Machine

/-! ## Every move keeps the listener counts (O12) -/

theorem chanSamples_listeners (k : Nat) (c : ChanRun) : (chanSamples k c).listeners = c.listeners := by
  unfold chanSamples
  split
  · split
    · exact phraseGive_listeners k c
    · split <;> rfl
    · split <;> rfl
  · rfl

theorem tickChan_listeners (b : Bool) (c : ChanRun) : (tickChan b c).listeners = c.listeners := by
  unfold tickChan
  split
  · rfl
  · split
    · rfl
    · exact chanSamples_listeners 16 c

theorem SameCounts.chanRestart (n : Fin 4) (s : State) : SameCounts s (chanRestart n s) := by
  unfold Machine.chanRestart
  dsimp only
  split
  · split
    · exact .stopped n _ s
    · exact .started n s
  · exact .stopped n _ s

theorem SameCounts.foldl {α : Type} (f : State → α → State) (hf : ∀ s a, SameCounts s (f s a)) (l : List α)
    (s : State) : SameCounts s (l.foldl f s) := by
  induction l generalizing s with
  | nil => exact .same rfl rfl rfl
  | cons a l ih => exact (hf s a).trans (ih (f s a))

theorem restartBegun_counts (b : Bool) (s : State) : SameCounts s (restartBegun b s) := by
  obtain ⟨-, ho, -, -, hc, hd, -⟩ := restartBegun_frame b s
  exact .same ho hd hc

/-- The restart's last parts keep sources and counts. -/
theorem restartTail_counts (v : State) :
    SameCounts v (supervisionRestart (wardenRestart (cadsRestart (outsRestart v)))) := by
  obtain ⟨-, -, -, -, hp, ho, hc, -⟩ := restartTail_frame v
  refine ⟨fun z => ?_, fun n => ?_, fun n => by rw [hp]⟩
  · rw [ho, outsRestart_outs]
  · rw [hc]
    exact cadsRestart_listeners v n

theorem restartEffect_counted (b : Bool) {s : State} (h : ListenersCounted s) :
    ListenersCounted (restartEffect b s) := by
  rw [restartEffect_tail]
  refine (restartTail_counts _).counted ?_
  unfold restartRung
  have h0 := (restartBegun_counts b s).counted h
  generalize restartBegun b s = u at h0 ⊢
  have h1 : ListenersCounted (chansRestart u) :=
    (SameCounts.foldl (fun t n => chanRestart n t) (fun t n => .chanRestart n t) (List.finRange 4) u).counted h0
  generalize chansRestart u = v at h1 ⊢
  exact ringToOutputs_counted _ (SameCounts.counted (.same rfl rfl rfl) h1)

theorem load_counts (s : State) : SameCounts s (load s) :=
  ⟨fun z => rfl, fun n => by
    show (Vector.ofFn fun i => cadStop (loadTables s).cad[i].on s.cads[i])[n].listeners = _
    rw [Fin.getElem_fin, Vector.getElem_ofFn]
    rfl, fun n => rfl⟩

theorem tick_sameCounts (s : State) : SameCounts s (tick s) := by
  have e := tick_eq s
  have ho : (tick s).outs = updAll s.outs tickOut := (congrArg State.outs e).trans rfl
  have hc : (tick s).cads = Vector.ofFn fun i => tickCad s.work.cad[i].inUse s.cads[i] :=
    (congrArg State.cads e).trans rfl
  have hp : (tick s).chans = updAll s.chans (tickChan s.locked) := (congrArg State.chans e).trans rfl
  refine ⟨fun z => by rw [ho, updAll_get]; rfl, fun n => ?_, fun n => by rw [hp, updAll_get, tickChan_listeners]⟩
  rw [hc, Fin.getElem_fin, Vector.getElem_ofFn]
  unfold tickCad
  split <;> rfl

theorem cadWritten_counts (n : Fin 4) (e : Cadence) (s : State) : SameCounts s (cadWritten n e s) := by
  refine ⟨fun z => rfl, fun m => ?_, fun m => rfl⟩
  by_cases h : m = n
  · subst h
    refine (congrArg CadRun.listeners (upd_self s.cads m _)).trans ?_
    split <;> rfl
  · exact congrArg CadRun.listeners (upd_other h s.cads _)

theorem progWritten_counts (n : Fin 4) (e : Program) (s : State) : SameCounts s (progWritten n e s) := by
  unfold progWritten
  dsimp only
  split
  · exact .stopped n _ s
  split
  · split
    · exact .started n s
    · exact .stopped n _ s
  · split
    · exact .started n s
    · exact .stopped n _ s
  · split
    · exact .started n s
    · split <;> exact .stopped n _ s
  · exact .same rfl rfl rfl

theorem cadenceMoved_counts (n : Fin 4) (x : Cadence) (s : State) :
    SameCounts s { s with cads := upd s.cads n (cadPhaseEnd x) } := by
  refine ⟨fun z => rfl, fun m => ?_, fun m => rfl⟩
  by_cases h : m = n
  · subst h
    exact (congrArg CadRun.listeners (upd_self s.cads m (cadPhaseEnd x))).trans rfl
  · exact congrArg CadRun.listeners (upd_other h s.cads (cadPhaseEnd x))

theorem ring_counted (st : RingState) {s : State} (h : ListenersCounted s) : ListenersCounted (enterRing st s) :=
  ringToOutputs_counted (setRing st s) h

theorem Move.counted {c : Instr} {s t : State} (hm : Move c s t) (h : ListenersCounted s) :
    ListenersCounted t := by
  cases hm with
  | aside ht => rw [ht]; exact h
  | report b s => exact SameCounts.counted (.same (report_sounds b s).outs (report_cads b s) (report_chans b s)) h
  | captureEnded s => rw [endCapture_frame]; exact h
  | captureSampled v s => rw [captureSample_frame]; exact h
  | recorded r s _ _ _ _ => exact counted_zoneRel.lock { s with acts := s.acts ++ [r] } h
  | recordGone dz b s =>
    exact counted_zoneRel.lock { s with acts := s.acts.filter fun r => r.dz != dz, overflow := b } h
  | offer z x s _ => exact counted_zoneRel.offer z x s h
  | removal z p s => exact counted_zoneRel.removal z p s h
  | started n s _ _ => exact (SameCounts.started n s).counted h
  | begun n k s _ _ _ => exact (SameCounts.begun n k s).counted h
  | stopped n st s _ _ => exact (SameCounts.stopped n st s).counted h
  | sampled s =>
    exact (SameCounts.counting (s := s) (t := { s with chans := updAll s.chans (chanSamples 1) })
      (chanSamples_listeners 1) rfl rfl rfl).counted h
  | cadenceMoved n s _ => exact (cadenceMoved_counts n _ s).counted h
  | zoneWritten z e s _ => exact spkWritten_counted z _ e { s with work := putEntry z.val (.spkZone e) s.work } h
  | cadenceWritten n e s =>
    exact (cadWritten_counts n e { s with work := putEntry n.val (.cadence e) s.work }).counted h
  | phraseWritten p e s _ _ =>
    exact counted_zoneRel.phraseWritten (fun n st s => (SameCounts.stopped n st s).counted)
      (fun n k s => (SameCounts.begun n k s).counted) p { s with work := putEntry p (.phrase e) s.work } h
  | programWritten n e e' s _ _ =>
    exact (progWritten_counts n e' { s with work := putEntry n.val (.program e') s.work }).counted h
  | tableDone x s _ => rw [commitGoesOn_frame]; exact h
  | powerLost s => rw [cutCommit_frame]; exact h
  | windowJudged s => exact (SameCounts.supervision (windowVerdicts_supervision s)).counted h
  | ringEntered st s _ _ => exact ring_counted st h
  | ringLost s _ =>
    have hr := ring_counted .lost (s := leaveLocked s) h
    exact SameCounts.counted (.same (abortCapture_outs _) (by rw [abortCapture_frame]) (by rw [abortCapture_frame])) hr
  | loaded s _ => exact ring_counted .seeking ((load_counts s).counted h)
  | restarted b s _ _ _ => exact restartEffect_counted b h
  | cold b s t _ ht =>
    cases ht
    exact coldState_counted _ _ _ _ _ _ _
  | ticked o s _ => exact (tick_sameCounts s).counted h
  | _ => exact h

theorem Moves.counted {c : Instr} {s t : State} (h : Moves c s t) (hs : ListenersCounted s) :
    ListenersCounted t := by
  induction h with
  | refl => exact hs
  | tail _ hm ih => exact hm.counted ih

end Sys2Proof.Machine

namespace Sys2Proof.Machine

/-! ## What the listeners hear is served (O12) -/

/-- A cadence runs while it has listeners and only then, and stands at the start of its on-time where its entry
is not in use (R118, R119). -/
def CadServed (w : Tables) (n : Fin 4) (c : CadRun) : Prop :=
  (c.running = true ↔ 0 < c.listeners) ∧
  (w.cad[n].inUse = false → c.phase = .on ∧ c.burst = 1 ∧ c.remaining = w.cad[n].on)

/-- The channel of a DEMAND program in use runs while it has listeners (R133). -/
def ChanServed (w : Tables) (n : Fin 4) (c : ChanRun) : Prop :=
  w.progs[n].inUse = true → w.progs[n].mode = .named .demand →
    (∃ p, w.progs[n].steps[0]? = some (.named p)) → 0 < c.listeners → c.state = .running

theorem listenersServed_iff (s : State) : ListenersServed s ↔
    ∀ n : Fin 4, CadServed s.work n s.cads[n] ∧ ChanServed s.work n s.chans[n] :=
  forall_congr' fun _ => and_assoc.symm

theorem CadServed.start (w : Tables) (n : Fin 4) {c : CadRun} (h : 0 < c.listeners) :
    CadServed w n (cadStart w.cad[n].on c) := ⟨⟨fun _ => h, fun _ => rfl⟩, fun _ => ⟨rfl, rfl, rfl⟩⟩

theorem CadServed.stop (w : Tables) (n : Fin 4) {c : CadRun} (h : c.listeners = 0) :
    CadServed w n (cadStop w.cad[n].on c) :=
  ⟨⟨nofun, fun e => absurd h (Nat.ne_of_gt e)⟩, fun _ => ⟨rfl, rfl, rfl⟩⟩

/-- A new listener count keeps a cadence served (R118). -/
theorem CadServed.count {w : Tables} {n : Fin 4} {c : CadRun} (h : CadServed w n c) (k : Nat) :
    CadServed w n (cadCount w.cad[n].on k c) := by
  unfold cadCount
  split
  next hk => exact .start w n hk.2
  next h1 =>
    split
    next hk => exact .stop w n hk.2
    next h2 =>
      refine ⟨h.1.trans ?_, h.2⟩
      show 0 < c.listeners ↔ 0 < k
      omega

theorem ChanServed.running {w : Tables} {n : Fin 4} {c : ChanRun} (h : c.state = .running) : ChanServed w n c :=
  fun _ _ _ _ => h

theorem ChanServed.unheard {w : Tables} {n : Fin 4} {c : ChanRun} (h : c.listeners = 0) : ChanServed w n c :=
  fun _ _ _ hl => absurd h (Nat.ne_of_gt hl)

/-- From `s` to `t` each cadence and each channel that was served is so still. -/
structure ServedKept (s t : State) : Prop where
  work : t.work = s.work
  cad  : ∀ n : Fin 4, CadServed s.work n s.cads[n] → CadServed s.work n t.cads[n]
  chan : ∀ n : Fin 4, ChanServed s.work n s.chans[n] → ChanServed s.work n t.chans[n]

namespace ServedKept
variable {s t u : State}

theorem same (hw : t.work = s.work) (hc : t.cads = s.cads) (hp : t.chans = s.chans) : ServedKept s t :=
  ⟨hw, fun n h => by rw [hc]; exact h, fun n h => by rw [hp]; exact h⟩

theorem trans (h : ServedKept s t) (g : ServedKept t u) : ServedKept s u :=
  ⟨g.work.trans h.work, fun n hs => h.work ▸ g.cad n (h.work.symm ▸ h.cad n hs),
    fun n hs => h.work ▸ g.chan n (h.work.symm ▸ h.chan n hs)⟩

theorem served (h : ServedKept s t) (hs : ListenersServed s) : ListenersServed t := by
  rw [listenersServed_iff] at hs ⊢
  intro n
  rw [h.work]
  exact ⟨h.cad n (hs n).1, h.chan n (hs n).2⟩

/-- A change of one channel. -/
theorem channel {n : Fin 4} (hw : t.work = s.work) (hc : t.cads = s.cads)
    (ho : ∀ m, m ≠ n → t.chans[m] = s.chans[m])
    (hn : ChanServed s.work n s.chans[n] → ChanServed s.work n t.chans[n]) : ServedKept s t := by
  refine ⟨hw, fun m h => by rw [hc]; exact h, fun m h => ?_⟩
  by_cases e : m = n
  · subst e; exact hn h
  · rw [ho m e]; exact h

theorem begun (n : Fin 4) (k : Nat) (s : State) : ServedKept s (beginStep n k s) := by
  refine .channel (n := n) (beginStep_sounds n k s).hands.work (beginStep_cads n k s)
    (fun m hm => beginStep_other hm k s) fun h => ?_
  obtain ⟨c, hr, -, -, e⟩ | ⟨-, e⟩ := beginStep_chans n k s
  · rw [e, vector_set_self]
    exact .running hr
  · rw [e]
    exact h

theorem started (n : Fin 4) (s : State) : ServedKept s (startChan n s) := by
  refine .channel (n := n) (startChan_sounds n s).hands.work (startChan_cads n s)
    (fun m hm => startChan_other hm s) fun _ _ _ hp _ => startChan_running hp

theorem stopped (n : Fin 4) (st : ChanState) (s : State)
    (h : s.work.progs[n].mode = .named .demand → s.chans[n].listeners = 0) : ServedKept s (stopChan n st s) := by
  refine .channel (n := n) rfl rfl (fun m hm => setChan_other' hm _ s) fun _ _ hd _ hl => ?_
  rw [stopChan_eq, stopped_get] at hl
  exact absurd (h hd) (Nat.ne_of_gt hl)

end ServedKept

theorem countCad_served (n : Nat) (f : Nat → Nat) (s : State) : ServedKept s (countCad n f s) := by
  unfold countCad
  split
  next hn =>
    refine ⟨rfl, fun m h => ?_, fun m h => h⟩
    by_cases e : m = ⟨n, hn⟩
    · subst e
      show CadServed s.work _ (upd s.cads _ _)[(⟨n, hn⟩ : Fin 4)]
      rw [upd_self]
      exact h.count _
    · show CadServed s.work m (upd s.cads _ _)[m]
      rw [upd_other e]
      exact h
  next => exact .same rfl rfl rfl

/-- A rise of its listener count from 0 starts the channel of a DEMAND program that does not run (R133). -/
theorem chanCount_served (n : Fin 4) (k : Nat) (s : State) : ServedKept s (chanCount n k s) := by
  obtain ⟨e, -⟩ | ⟨e, hno⟩ := chanCount_cases n k s <;> rw [e]
  · refine .channel (n := n) (startChan_sounds n _).hands.work (startChan_cads n _) (fun m hm => ?_)
      fun _ _ _ hp _ => startChan_running hp
    rw [startChan_other hm, setChan_other' hm]
  · refine .channel (n := n) rfl rfl (fun m hm => setChan_other' hm _ s) fun h hu hd hp hl => ?_
    rw [setChan_self'] at hl ⊢
    by_contra hr
    by_cases h0 : 0 < s.chans[n].listeners
    · exact hr (h hu hd hp h0)
    · exact hno ⟨⟨hu, .inl ⟨hd, hr⟩⟩, Nat.eq_zero_of_not_pos h0, hl⟩

theorem served_soundRel : SoundRel ServedKept where
  trans := .trans
  same hw _ _ _ hc hp := .same hw hc hp
  cad := countCad_served
  chan := chanCount_served

/-- The end of a step leaves a DEMAND channel with listeners running (R131, R133). -/
theorem stepEnds_served (n : Fin 4) (s : State) : ServedKept s (stepEnds n s) := by
  unfold stepEnds
  dsimp only
  split
  next h => exact .stopped n _ s fun _ => h.2
  split
  · exact .begun n _ s
  split
  next ho =>
    refine (ServedKept.stopped n .ended s fun hd => ?_).trans (served_soundRel.zones.removalAll _ _)
    rw [ho] at hd
    cases hd
  · exact .begun n _ s

theorem phraseWritten_served (p : Nat) (s : State) : ServedKept s (phraseWritten p s) := by
  have hall : ∀ (l : List (Fin 4)) (u : State),
      ServedKept u (l.foldl (fun t n => if plays s p n then stepEnds n t else t) u) := by
    intro l
    induction l with
    | nil => exact fun u => .same rfl rfl rfl
    | cons n l ih =>
      intro u
      rw [List.foldl_cons]
      refine ServedKept.trans ?_ (ih _)
      split
      · exact stepEnds_served n u
      · exact .same rfl rfl rfl
  exact hall _ s

/-- A program's write starts its channel, stops it, or leaves it. -/
theorem progWritten_cases (n : Fin 4) (e : Program) (s : State) :
    progWritten n e s = s ∨ progWritten n e s = startChan n s ∨ ∃ st, progWritten n e s = stopChan n st s := by
  unfold progWritten
  dsimp only
  split
  · exact .inr (.inr ⟨_, rfl⟩)
  split
  · split
    · exact .inr (.inl rfl)
    · exact .inr (.inr ⟨_, rfl⟩)
  · split
    · exact .inr (.inl rfl)
    · exact .inr (.inr ⟨_, rfl⟩)
  · split
    · exact .inr (.inl rfl)
    · split <;> exact .inr (.inr ⟨_, rfl⟩)
  · exact .inl rfl

theorem progWritten_cads (n : Fin 4) (e : Program) (s : State) : (progWritten n e s).cads = s.cads := by
  obtain h | h | ⟨st, h⟩ := progWritten_cases n e s <;> rw [h]
  · exact startChan_cads n s
  · rfl

theorem progWritten_other {n m : Fin 4} (h : m ≠ n) (e : Program) (s : State) :
    (progWritten n e s).chans[m] = s.chans[m] := by
  obtain h' | h' | ⟨st, h'⟩ := progWritten_cases n e s <;> rw [h']
  · exact startChan_other h s
  · exact setChan_other' h _ s

/-- A program's write leaves its channel served as the new mode calls for, and the others as they were (R127). -/
theorem progWritten_served (n : Fin 4) (e : Program) {s : State} (h : ListenersServed s) :
    ListenersServed (progWritten n e { s with work := putEntry n.val (.program e) s.work }) := by
  have hget := putProgram_get n e s.work
  have hcads := progWritten_cads n e { s with work := putEntry n.val (.program e) s.work }
  have hother := fun m (hm : m ≠ n) => progWritten_other hm e { s with work := putEntry n.val (.program e) s.work }
  have hl := (progWritten_counts n e { s with work := putEntry n.val (.program e) s.work }).chans
  have hw := (progWritten_sounds n e { s with work := putEntry n.val (.program e) s.work }).hands.work
  rw [listenersServed_iff] at h ⊢
  intro m
  rw [hw, hcads]
  refine ⟨(h m).1, ?_⟩
  by_cases hm : m = n
  · subst hm
    intro hu hd hp hpos
    rw [hl] at hpos
    have hself : (putEntry m.val (.program e) s.work).progs[m] = e := by rw [hget, vector_set_self]
    have hu' : e.inUse = true := hself ▸ hu
    have hd' : e.mode = .named .demand := hself ▸ hd
    rw [progWritten_starts hu' (.inl ⟨hd', hpos⟩)]
    exact startChan_running hp
  · rw [hother m hm]
    have hkeep : (putEntry n.val (.program e) s.work).progs[m] = s.work.progs[m] := by
      rw [hget, vector_set_other hm]
    unfold ChanServed
    rw [hkeep]
    exact (h m).2

/-- A cadence's write puts it at the start of its on-time, as its listeners call for (R121). -/
theorem cadWritten_served (n : Fin 4) (e : Cadence) {s : State} (h : ListenersServed s) :
    ListenersServed (cadWritten n e { s with work := putEntry n.val (.cadence e) s.work }) := by
  have hget : (putEntry n.val (.cadence e) s.work).cad = s.work.cad.set n e := updNat_fin s.work.cad n fun _ => e
  rw [listenersServed_iff] at h ⊢
  intro m
  refine ⟨?_, (h m).2⟩
  show CadServed (putEntry n.val (.cadence e) s.work) m (upd s.cads n fun c =>
    if 0 < c.listeners then cadStart e.on c else cadStop e.on c)[m]
  by_cases hm : m = n
  · subst hm
    have hself : (putEntry m.val (.cadence e) s.work).cad[m] = e := by rw [hget, vector_set_self]
    rw [upd_self]
    generalize putEntry m.val (.cadence e) s.work = w at hself ⊢
    rw [← hself]
    split
    next hl => exact .start w m hl
    next hl => exact .stop w m (Nat.eq_zero_of_not_pos hl)
  · have hkeep : (putEntry n.val (.cadence e) s.work).cad[m] = s.work.cad[m] := by
      rw [hget, vector_set_other hm]
    rw [upd_other hm]
    unfold CadServed
    rw [hkeep]
    exact (h m).1

/-- The tables of cadences and programs are as before, and so are the run states. -/
theorem ListenersServed.of {s t : State} (h : ListenersServed s) (hc : t.cads = s.cads) (hp : t.chans = s.chans)
    (h1 : t.work.cad = s.work.cad) (h2 : t.work.progs = s.work.progs) : ListenersServed t := by
  unfold ListenersServed
  rw [hc, hp, h1, h2]
  exact h

/-! ### Sample times, milliseconds, restart and load -/

theorem counting_served {s t : State} {f : ChanRun → ChanRun} (hf : ∀ c, (f c).listeners = c.listeners)
    (hst : ∀ c, (f c).state = c.state) (hw : t.work = s.work) (hp : t.chans = updAll s.chans f) {n : Fin 4}
    (h : ChanServed s.work n s.chans[n]) : ChanServed t.work n t.chans[n] := by
  rw [hw, hp, updAll_get]
  unfold ChanServed
  rw [hf, hst]
  exact h

theorem tick_served {s : State} (h : ListenersServed s) : ListenersServed (tick s) := by
  have e := tick_eq s
  have hc : (tick s).cads = Vector.ofFn fun i => tickCad s.work.cad[i].inUse s.cads[i] :=
    (congrArg State.cads e).trans rfl
  have hp : (tick s).chans = updAll s.chans (tickChan s.locked) := (congrArg State.chans e).trans rfl
  rw [listenersServed_iff] at h ⊢
  intro n
  refine ⟨?_, counting_served (tickChan_listeners _) (tickChan_state _) (tick_work s) hp (h n).2⟩
  rw [tick_work, hc, Fin.getElem_fin, Vector.getElem_ofFn]
  obtain ⟨h1, h2⟩ := (h n).1
  unfold tickCad
  split
  next hb =>
    refine ⟨h1, fun hu => ?_⟩
    rw [Bool.and_eq_true] at hb
    exact absurd (hb.2.symm.trans hu) (by decide)
  · exact ⟨h1, h2⟩

theorem cadenceMoved_served {n : Fin 4} {s : State} (hu : s.work.cad[n].inUse = true) (h : ListenersServed s) :
    ListenersServed { s with cads := upd s.cads n (cadPhaseEnd s.work.cad[n]) } := by
  rw [listenersServed_iff] at h ⊢
  intro m
  refine ⟨?_, (h m).2⟩
  show CadServed s.work m (upd s.cads n (cadPhaseEnd s.work.cad[n]))[m]
  by_cases hm : m = n
  · subst hm
    rw [upd_self]
    exact ⟨(h m).1.1, fun e => absurd (hu.symm.trans e) (by decide)⟩
  · rw [upd_other hm]
    exact (h m).1

theorem chanRestart_served (n : Fin 4) (s : State) : ServedKept s (chanRestart n s) := by
  unfold chanRestart
  dsimp only
  split
  · split
    next hd => exact .stopped n _ s fun _ => hd.2
    · exact .started n s
  next hr =>
    refine .channel (n := n) rfl rfl (fun m hm => setChan_other' hm _ s) fun h hu hd hp hl => ?_
    rw [stopChan_eq, stopped_get] at hl ⊢
    exact absurd (h hu hd hp hl) hr

theorem chansRestart_served (s : State) : ServedKept s (chansRestart s) := by
  unfold chansRestart
  generalize List.finRange 4 = l
  induction l generalizing s with
  | nil => exact .same rfl rfl rfl
  | cons n l ih => exact (chanRestart_served n s).trans (ih (chanRestart n s))

theorem restartTail_served {v : State} (h : ListenersServed v) :
    ListenersServed (supervisionRestart (wardenRestart (cadsRestart (outsRestart v)))) := by
  obtain ⟨-, hw, -, -, hp, -, hc, -⟩ := restartTail_frame v
  rw [listenersServed_iff] at h ⊢
  intro n
  rw [hw, hp, hc, cadsRestart_get]
  refine ⟨?_, (h n).2⟩
  split
  next hl => exact .start _ n hl
  next hl => exact .stop _ n (Nat.eq_zero_of_not_pos hl)

theorem restartEffect_served (b : Bool) {s : State} (h : ListenersServed s) :
    ListenersServed (restartEffect b s) := by
  obtain ⟨-, -, hw, -, hc, hd, -⟩ := restartBegun_frame b s
  rw [restartEffect_tail]
  refine restartTail_served ?_
  unfold restartRung
  generalize restartBegun b s = u at hw hc hd ⊢
  have h1 : ListenersServed (chansRestart u) :=
    (chansRestart_served u).served (h.of hd hc (by rw [hw]) (by rw [hw]))
  generalize chansRestart u = v at h1 ⊢
  exact (served_soundRel.ringToOutputs (ringAnew v)).served (h1.of rfl rfl rfl rfl)

/-- No zone listens while the tables load (R203). -/
theorem unheard_loading {s : State} (hf : OutputsFollow s) (hc : ListenersCounted s) (hp : s.phase = .loading)
    (n : Fin 4) : s.cads[n].listeners = 0 ∧ s.chans[n].listeners = 0 := by
  have h0 : ∀ x, x ≠ .none → zonesOf s x = 0 := by
    intro x hx
    unfold zonesOf
    rw [List.length_eq_zero_iff, List.filter_eq_nil_iff]
    intro z _ e
    rw [((hf.2 hp).2 z).2, beq_iff_eq] at e
    exact hx e.symm
  obtain ⟨h1, h2⟩ := (listenersCounted_iff s).1 hc n
  exact ⟨h1.trans (h0 _ nofun), h2.trans (h0 _ nofun)⟩

theorem load_served {s : State} (hf : OutputsFollow s) (hc : ListenersCounted s) (hp : s.phase = .loading) :
    ListenersServed (load s) := by
  rw [listenersServed_iff]
  intro n
  obtain ⟨h1, h2⟩ := unheard_loading hf hc hp n
  refine ⟨?_, .unheard h2⟩
  show CadServed (loadTables s) n (Vector.ofFn fun i => cadStop (loadTables s).cad[i].on s.cads[i])[n]
  rw [Fin.getElem_fin, Vector.getElem_ofFn]
  exact .stop _ n h1

theorem ring_served (st : RingState) {s : State} (h : ListenersServed s) : ListenersServed (enterRing st s) :=
  (served_soundRel.ringToOutputs (setRing st s)).served h

theorem abortCapture_served {s : State} (h : ListenersServed s) : ListenersServed (abortCapture s) := by
  rw [abortCapture_frame]
  exact h

/-! ### Every move -/

theorem Move.served {c : Instr} {s t : State} (hm : Move c s t) (hf : OutputsFollow s) (hc : ListenersCounted s)
    (h : ListenersServed s) : ListenersServed t := by
  have kept : ∀ {u : State}, ServedKept s u → ListenersServed u := fun hk => hk.served h
  cases hm with
  | aside ht => rw [ht]; exact h
  | report b s => exact kept (.same (report_sounds b s).hands.work (report_cads b s) (report_chans b s))
  | captureEnded s => rw [endCapture_frame]; exact h
  | captureSampled v s => rw [captureSample_frame]; exact h
  | recorded r s _ _ _ _ => exact (served_soundRel.lock { s with acts := s.acts ++ [r] }).served h
  | recordGone dz b s =>
    exact (served_soundRel.lock { s with acts := s.acts.filter fun r => r.dz != dz, overflow := b }).served h
  | offer z x s _ => exact kept (served_soundRel.zones.offer z x s)
  | removal z p s => exact kept (served_soundRel.zones.removal z p s)
  | started n s _ _ => exact kept (.started n s)
  | begun n k s _ _ _ => exact kept (.begun n k s)
  | stopped n st s _ hd => exact kept (.stopped n st s hd)
  | sampled s =>
    rw [listenersServed_iff] at h ⊢
    exact fun n => ⟨(h n).1, counting_served (s := s) (t := { s with chans := updAll s.chans (chanSamples 1) })
      (chanSamples_listeners 1) (chanSamples_state 1) rfl rfl (h n).2⟩
  | cadenceMoved n s hu => exact cadenceMoved_served hu h
  | tables w s _ h2 h3 _ => exact h.of rfl rfl h3 h2
  | zoneWritten z e s _ =>
    exact (served_soundRel.spkWritten z s.work.spk[z] e
      { s with work := putEntry z.val (.spkZone e) s.work }).served h
  | cadenceWritten n e s => exact cadWritten_served n e h
  | phraseWritten p e s _ _ =>
    exact (phraseWritten_served p { s with work := putEntry p (.phrase e) s.work }).served h
  | programWritten n e e' s _ _ => exact progWritten_served n e' h
  | tableDone x s _ => rw [commitGoesOn_frame]; exact h
  | powerLost s => rw [cutCommit_frame]; exact h
  | windowJudged s => rw [windowVerdicts_supervision s]; exact h
  | ringEntered st s _ _ => exact ring_served st h
  | ringLost s _ => exact abortCapture_served (ring_served .lost (s := leaveLocked s) h)
  | loaded s hp => exact ring_served .seeking (load_served hf hc hp)
  | restarted b s _ _ _ => exact restartEffect_served b h
  | cold b s t _ ht =>
    cases ht
    exact coldState_served _ _ _ _ _ _ _
  | ticked o s _ => exact tick_served h
  | _ => exact h

end Sys2Proof.Machine

namespace Sys2Proof.Machine

/-! ## What a rise of a listener count begins (O12) -/

/-- A cadence with listeners stands at the start of ON, at its first burst (R118). -/
def FreshAt (on : Nat) (c : CadRun) : Prop :=
  0 < c.listeners → c = { listeners := c.listeners, running := true, phase := .on, burst := 1, remaining := on }

/-- A cadence without listeners does not run (R118). -/
def QuietAt (c : CadRun) : Prop := c.listeners = 0 → c.running = false

theorem FreshAt.count {on : Nat} {c : CadRun} (h : FreshAt on c) (k : Nat) : FreshAt on (cadCount on k c) := by
  intro hk
  rw [cadCount_listeners] at hk ⊢
  unfold cadCount
  by_cases h0 : c.listeners = 0
  · rw [if_pos ⟨h0, hk⟩]
    rfl
  · rw [if_neg fun e => h0 e.1, if_neg (by omega), h (Nat.pos_of_ne_zero h0)]

theorem QuietAt.count {c : CadRun} (h : QuietAt c) (on k : Nat) : QuietAt (cadCount on k c) := by
  intro hk
  rw [cadCount_listeners] at hk
  unfold cadCount
  by_cases h0 : c.listeners = 0
  · rw [if_neg (by omega), if_neg (by omega)]
    exact h h0
  · rw [if_neg fun e => h0 e.1, if_pos ⟨Nat.pos_of_ne_zero h0, hk⟩]
    rfl

/-- A channel waits for a rise that starts it, or has begun at step 0 (R129, R136). -/
def Risen (s : State) (n : Fin 4) : Prop :=
  (s.chans[n].listeners = 0 ∧ StartsOnRise s n) ∨ ChanBegun s n 0 0 s.chans[n]

/-- From `s` to `t` cadences stay fresh and quiet, and a channel that waits for its rise begins with it. -/
structure Rises (s t : State) : Prop where
  fresh : ∀ n : Fin 4, FreshAt s.work.cad[n].on s.cads[n] → FreshAt t.work.cad[n].on t.cads[n]
  quiet : ∀ n : Fin 4, QuietAt s.cads[n] → QuietAt t.cads[n]
  risen : ∀ n, Risen s n → Risen t n

theorem StartsOnRise.of {s t : State} {n : Fin 4} (h : StartsOnRise s n)
    (hp : t.work.progs[n] = s.work.progs[n]) (hc : t.chans[n].state = s.chans[n].state) : StartsOnRise t n := by
  unfold StartsOnRise
  rw [hp, hc]
  exact h

theorem Risen.of {s t : State} {n : Fin 4} (h : Risen s n) (hp : t.work.progs[n] = s.work.progs[n])
    (hw : t.work.phrases = s.work.phrases) (hr : t.rif.ring = s.rif.ring) (ht : t.sampleTimes = s.sampleTimes)
    (hc : t.chans[n] = s.chans[n]) : Risen t n := by
  obtain ⟨h0, hs⟩ | hb := h
  · exact .inl ⟨by rw [hc]; exact h0, hs.of hp (by rw [hc])⟩
  · exact .inr (hb.of hr ht hp hw (by rw [hc]))

namespace Rises
variable {s t u : State}

theorem trans (h : Rises s t) (g : Rises t u) : Rises s u :=
  ⟨fun n a => g.fresh n (h.fresh n a), fun n a => g.quiet n (h.quiet n a), fun n a => g.risen n (h.risen n a)⟩

/-- A change that touches no cadence and no channel, and nothing that their steps begin from. -/
theorem of (hc : t.cads = s.cads) (hp : t.chans = s.chans) (h1 : t.work.cad = s.work.cad)
    (h2 : t.work.progs = s.work.progs) (h3 : t.work.phrases = s.work.phrases) (hr : t.rif.ring = s.rif.ring)
    (ht : t.sampleTimes = s.sampleTimes) : Rises s t where
  fresh n h := by rw [hc, h1]; exact h
  quiet n h := by rw [hc]; exact h
  risen n h := h.of (by rw [h2]) h3 hr ht (by rw [hp])

theorem refl (s : State) : Rises s s := ⟨fun _ h => h, fun _ h => h, fun _ h => h⟩

end Rises

theorem countCad_rises (n : Nat) (f : Nat → Nat) (s : State) : Rises s (countCad n f s) := by
  unfold countCad
  split
  next hn =>
    refine ⟨fun m h => ?_, fun m h => ?_, fun m h => h⟩
    · show FreshAt s.work.cad[m].on (upd s.cads _ _)[m]
      by_cases e : m = ⟨n, hn⟩
      · subst e
        rw [upd_self]
        exact h.count _
      · rw [upd_other e]
        exact h
    · show QuietAt (upd s.cads _ _)[m]
      by_cases e : m = ⟨n, hn⟩
      · subst e
        rw [upd_self]
        exact h.count _ _
      · rw [upd_other e]
        exact h
  next => exact .refl s

/-- A new count of a channel that waits for its rise starts it (R129, R133, R136). -/
theorem chanCount_rises (n : Fin 4) (k : Nat) (s : State) : Rises s (chanCount n k s) := by
  have hcads := chanCount_cads n k s
  have hw := (chanCount_sounds n k s).hands.work
  have hrif := (chanCount_sounds n k s).hands.rif
  have htime : (chanCount n k s).sampleTimes = s.sampleTimes := by rw [chanCount_sounds n k s]
  refine ⟨fun m h => ?_, fun m h => ?_, fun m h => ?_⟩
  · rw [hcads, hw]
    exact h
  · rw [hcads]
    exact h
  · by_cases hm : m = n
    · subst hm
      obtain ⟨e, -⟩ | ⟨e, hno⟩ := chanCount_cases m k s
      · -- the rise starts the channel
        refine .inr ?_
        have hb := startChan_begun m (setChan m (fun c => { c with listeners := k }) s)
        rw [e]
        exact hb.of (by rw [(startChan_sounds m _).hands.rif]) (by rw [startChan_sounds m]) (by
          rw [(startChan_sounds m _).hands.work]) (by rw [(startChan_sounds m _).hands.work]) rfl
      · have hc : (chanCount m k s).chans[m] = { s.chans[m] with listeners := k } := by rw [e, setChan_self']
        obtain ⟨h0, hs⟩ | hb := h
        · have hk : k = 0 := by
            by_contra hk
            exact hno ⟨hs, h0, Nat.pos_of_ne_zero hk⟩
          exact .inl ⟨by rw [hc]; exact hk, hs.of (by rw [hw]) (by rw [hc])⟩
        · exact .inr (hb.of (by rw [hrif]) htime (by rw [hw]) (by rw [hw]) (by rw [hc]))
    · have hc : (chanCount n k s).chans[m] = s.chans[m] := by
        obtain ⟨e, -⟩ | ⟨e, -⟩ := chanCount_cases n k s <;> rw [e]
        · rw [startChan_other hm, setChan_other' hm]
        · exact setChan_other' hm _ s
      exact h.of (by rw [hw]) (by rw [hw]) (by rw [hrif]) htime hc

theorem rises_soundRel : SoundRel Rises where
  trans := .trans
  same hw hr ht _ hc hp := .of hc hp (by rw [hw]) (by rw [hw]) (by rw [hw]) (by rw [hr]) ht
  cad := countCad_rises
  chan := chanCount_rises

end Sys2Proof.Machine

namespace Sys2Proof.Machine

/-! ## Rises, move by move (O12) -/

/-- What a command makes of the cadence and the channel `n` as their listener counts rise from 0 or fall to 0
(R118, R129, R133, R136). -/
structure HeardAnew (s t : State) (n : Fin 4) : Prop where
  rise : s.cads[n].listeners = 0 → FreshAt t.work.cad[n].on t.cads[n]
  fall : 0 < s.cads[n].listeners → QuietAt t.cads[n]
  chan : s.chans[n].listeners = 0 → 0 < t.chans[n].listeners → StartsOnRise s n →
    ChanBegun t n 0 0 t.chans[n]

theorem Rises.anew {s t : State} (h : Rises s t) (n : Fin 4) : HeardAnew s t n where
  rise h0 := h.fresh n fun hl => absurd h0 (Nat.ne_of_gt hl)
  fall hl := h.quiet n fun h0 => absurd h0 (Nat.ne_of_gt hl)
  chan h0 hl hs := (h.risen n (.inl ⟨h0, hs⟩)).resolve_left fun e => absurd e.1 (Nat.ne_of_gt hl)

/-- Where the counts stay no rise or fall comes. -/
theorem SameCounts.anew {s t : State} (h : SameCounts s t) (n : Fin 4) : HeardAnew s t n where
  rise h0 hl := by rw [h.cads] at hl; exact absurd h0 (Nat.ne_of_gt hl)
  fall hl h0 := by rw [h.cads] at h0; exact absurd h0 (Nat.ne_of_gt hl)
  chan h0 hl := by rw [h.chans] at hl; exact absurd h0 (Nat.ne_of_gt hl)

theorem cadWritten_rises (n : Fin 4) (e : Cadence) (s : State) :
    Rises s (cadWritten n e { s with work := putEntry n.val (.cadence e) s.work }) := by
  have hget : (putEntry n.val (.cadence e) s.work).cad = s.work.cad.set n e := updNat_fin s.work.cad n fun _ => e
  refine ⟨fun m h => ?_, fun m h => ?_, fun m h => h⟩
  · show FreshAt (putEntry n.val (.cadence e) s.work).cad[m].on (upd s.cads n fun c =>
      if 0 < c.listeners then cadStart e.on c else cadStop e.on c)[m]
    rw [hget]
    by_cases hm : m = n
    · subst hm
      rw [upd_self, vector_set_self]
      split
      · exact fun _ => rfl
      next h0 => exact fun hl => absurd hl h0
    · rw [upd_other hm, vector_set_other hm]
      exact h
  · show QuietAt (upd s.cads n fun c => if 0 < c.listeners then cadStart e.on c else cadStop e.on c)[m]
    by_cases hm : m = n
    · subst hm
      rw [upd_self]
      split
      next hl => exact fun h0 => absurd h0 (Nat.ne_of_gt hl)
      · exact fun _ => rfl
    · rw [upd_other hm]
      exact h

theorem updateLock_rises (s : State) : Rises s (updateLock s) := rises_soundRel.lock s

/-- A move of a command that changes channels as offers and removals alone do. -/
theorem Move.rises {c : Instr} {s t : State} (hm : Move c s t) (hz : byZones c = true)
    (h1 : ∀ o, c ≠ .timebaseMillisecond o) (h2 : ∀ b, c ≠ .coldStart b) (h3 : c ≠ .restartEffect) :
    Rises s t := by
  have no : ∀ {p : Prop}, byZones c = false → p := fun hf => by rw [hz] at hf; cases hf
  cases hm with
  | aside ht => rw [ht]; exact .of rfl rfl rfl rfl rfl rfl rfl
  | sampleTimes => exact no ‹_›
  | report b s =>
    have h := report_sounds b s
    exact .of (report_cads b s) (report_chans b s) (by rw [h.hands.work]) (by rw [h.hands.work])
      (by rw [h.hands.work]) (by rw [h.hands.rif]) (by rw [h])
  | captureBegun => exact no ‹_›
  | captureEnded => exact no ‹_›
  | captureSampled v s => rw [captureSample_frame]; exact .of rfl rfl rfl rfl rfl rfl rfl
  | recorded r s _ _ _ _ =>
    exact Rises.trans (t := { s with acts := s.acts ++ [r] }) (.of rfl rfl rfl rfl rfl rfl rfl) (updateLock_rises _)
  | recordGone dz b s =>
    exact Rises.trans (t := { s with acts := s.acts.filter fun r => r.dz != dz, overflow := b })
      (.of rfl rfl rfl rfl rfl rfl rfl) (updateLock_rises _)
  | offer z x s _ => exact rises_soundRel.zones.offer z x s
  | removal z p s => exact rises_soundRel.zones.removal z p s
  | started => exact no ‹_›
  | begun => exact no ‹_›
  | stopped => exact no ‹_›
  | sampled => exact no ‹_›
  | cadenceMoved => exact no ‹_›
  | tables w s _ h2 h3 h4 => exact .of rfl rfl h3 h2 h4 rfl rfl
  | zoneWritten z e s _ =>
    exact Rises.trans (t := { s with work := putEntry z.val (.spkZone e) s.work })
      (.of rfl rfl rfl rfl rfl rfl rfl) (rises_soundRel.spkWritten z s.work.spk[z] e _)
  | cadenceWritten n e s => exact cadWritten_rises n e s
  | phraseWritten => exact no ‹_›
  | programWritten => exact no ‹_›
  | tableDone x s _ => rw [commitGoesOn_frame]; exact .of rfl rfl rfl rfl rfl rfl rfl
  | powerLost s => rw [cutCommit_frame]; exact .of rfl rfl rfl rfl rfl rfl rfl
  | windowJudged s => exact rises_soundRel.supervision (windowVerdicts_supervision s)
  | ringEntered => exact no ‹_›
  | ringLost => exact no ‹_›
  | loaded => exact no ‹_›
  | restarted b s hc _ _ => exact absurd hc h3
  | cold b s t hc _ => exact absurd hc (h2 b)
  | rif r s hk => exact .of rfl rfl rfl rfl rfl hk.ring rfl
  | ticked o s hc => exact absurd hc (h1 o)
  | _ => exact .of rfl rfl rfl rfl rfl rfl rfl

theorem Moves.rises {c : Instr} {s t : State} (h : Moves c s t) (hz : byZones c = true)
    (h1 : ∀ o, c ≠ .timebaseMillisecond o) (h2 : ∀ b, c ≠ .coldStart b) (h3 : c ≠ .restartEffect) :
    Rises s t := by
  induction h with
  | refl => exact .refl s
  | tail _ hm ih => exact ih.trans (hm.rises hz h1 h2 h3)

/-! ## Commands that leave the counts -/

/-- A command of the control stream keeps what its effect and its reply keep. -/
theorem commandWith_counts {e : Entry} {extra own : State → Nat} {act : State → State} {s t : State}
    (h : commandWith e extra own act s = .next t) (ha : ∀ u, SameCounts u (act u)) : SameCounts s t := by
  obtain rfl | ⟨r, -, -, -, rfl⟩ | ⟨-, -, -, rfl⟩ := commandWith_cases h
  · exact .same rfl rfl rfl
  · exact .same rfl rfl rfl
  · obtain ⟨h1, h2, h3⟩ := ha { s with cmdQueue := s.cmdQueue.tail, reserved := own s }
    exact ⟨h1, h2, h3⟩

theorem reply_counts (e : Entry) (r : Result) (d : ReplyData) (s : State) : SameCounts s (reply e r d s) :=
  .same rfl rfl rfl

theorem endCapture_counts (s : State) : SameCounts s (endCapture s) := by
  rw [endCapture_frame]
  exact .same rfl rfl rfl

theorem FrameCame.counts {s t : State} (h : FrameCame s t) : SameCounts s t := by
  obtain e | e := h.chans
  · exact .same h.outs h.cads e
  · exact .counting (chanSamples_listeners 1) h.outs h.cads e

theorem playStart_counts (n : Fin 4) (s : State) : SameCounts s (playStart n s) := by
  unfold playStart
  dsimp only
  split
  · exact .same rfl rfl rfl
  split
  · split
    · exact .started n s
    · exact .same rfl rfl rfl
  · split
    · exact .started n s
    · exact .same rfl rfl rfl
  · exact .same rfl rfl rfl

theorem playStop_counts (n : Fin 4) (s : State) : SameCounts s (playStop n s) := by
  unfold playStop
  dsimp only
  split
  · exact .same rfl rfl rfl
  split
  · split
    · exact .stopped n _ s
    · exact .same rfl rfl rfl
  · split
    · exact .stopped n _ s
    · exact .same rfl rfl rfl
  · exact .same rfl rfl rfl

/-- A program's write leaves the counts. -/
theorem programTaken_counts (table i : Nat) (e : Program) (s : State) :
    SameCounts s (writeTaken table i (.program e) s) := by
  unfold writeTaken
  split
  · exact .same rfl rfl rfl
  · show SameCounts s (atIndex i (fun n => progWritten n e) { s with work := putEntry i (.program e) s.work })
    by_cases h : i < 4
    · rw [atIndex_of _ _ h]
      exact SameCounts.trans (t := { s with work := putEntry i (.program e) s.work }) (.same rfl rfl rfl)
        (progWritten_counts ⟨i, h⟩ e { s with work := putEntry i (.program e) s.work })
    · rw [atIndex_not _ _ h]
      exact .same rfl rfl rfl

/-- Commands whose effect leaves every listener count (R132). -/
theorem exec_counts {c : Instr} {s t : State} (h : exec c s = .next t)
    (hc : (∃ f gap mic, c = .ringFrameReceived f gap mic) ∨ (∃ n, c = .cadencePhaseEnd n) ∨
      (∃ q n, c = .playStart q n) ∨ (∃ q n, c = .playStop q n) ∨ (∃ q p n ms, c = .capture q p n ms) ∨
      c = .captureLimit ∨ (∃ q, c = .captureStop q) ∨ ∃ q k i e, c = .tableWrite q k i (.program e)) :
    SameCounts s t := by
  have self : SameCounts s s := .same rfl rfl rfl
  obtain ⟨f, gap, mic, rfl⟩ | ⟨n, rfl⟩ | ⟨q, n, rfl⟩ | ⟨q, n, rfl⟩ | ⟨q, p, n, ms, rfl⟩ | rfl | ⟨q, rfl⟩ |
    ⟨q, k, i, e, rfl⟩ := hc
  · exact (exec_frame_came h).counts
  · obtain ⟨-, ht⟩ | ⟨-, ht⟩ := whenever_cases (show execCadencePhaseEnd n s = .next t from h) <;> rw [ht]
    · exact cadenceMoved_counts n _ s
    · exact self
  · refine commandWith_counts (show execPlayStart q n s = .next t from h) fun u => ?_
    split
    · exact (playStart_counts _ u).trans (reply_counts _ _ _ _)
    · exact reply_counts _ _ _ _
  · refine commandWith_counts (show execPlayStop q n s = .next t from h) fun u => ?_
    split
    · exact (playStop_counts _ u).trans (reply_counts _ _ _ _)
    · exact reply_counts _ _ _ _
  · refine commandWith_counts (show execCapture q p n ms s = .next t from h) fun u => ?_
    split
    · exact reply_counts _ _ _ _
    · exact .same rfl rfl rfl
  · obtain ⟨-, ht⟩ | ⟨-, ht⟩ := whenever_cases (show execCaptureLimit s = .next t from h) <;> rw [ht]
    · exact endCapture_counts s
    · exact self
  · exact commandWith_counts (show execCaptureStop q s = .next t from h) fun u =>
      (endCapture_counts u).trans (reply_counts _ _ _ _)
  · refine commandWith_counts (show execTableWrite q k i (.program e) s = .next t from h) fun u => ?_
    split
    · exact reply_counts _ _ _ _
    next c' hw =>
      obtain ⟨-, -, -, hck⟩ := writeOutcome_ok hw
      obtain ⟨e', -, rfl⟩ := Option.map_eq_some_iff.1 (show (checkProgram e).map Contents.program = some c' from hck)
      exact (programTaken_counts k i e' u).trans (reply_counts _ _ _ _)

end Sys2Proof.Machine

namespace Sys2Proof.Machine

/-! ## Rises under a change of the ring, of a phrase and of a step (O12) -/

/-- From `s` to `t` cadences stay fresh and quiet, and a channel that waits for its rise begins with it, but for
the channels `E`. -/
structure RisesBut (E : Fin 4 → Prop) (s t : State) : Prop where
  fresh : ∀ n : Fin 4, FreshAt s.work.cad[n].on s.cads[n] → FreshAt t.work.cad[n].on t.cads[n]
  quiet : ∀ n : Fin 4, QuietAt s.cads[n] → QuietAt t.cads[n]
  risen : ∀ n : Fin 4, ¬E n → Risen s n → Risen t n

theorem Rises.but {E : Fin 4 → Prop} {s t : State} (h : Rises s t) : RisesBut E s t :=
  ⟨h.fresh, h.quiet, fun n _ => h.risen n⟩

namespace RisesBut
variable {E : Fin 4 → Prop} {s t u : State}

theorem trans (h : RisesBut E s t) (g : RisesBut E t u) : RisesBut E s u :=
  ⟨fun n a => g.fresh n (h.fresh n a), fun n a => g.quiet n (h.quiet n a),
    fun n e a => g.risen n e (h.risen n e a)⟩

/-- A change of one channel of `E`. -/
theorem channel {n : Fin 4} (hn : E n) (hs : SoundsOnly s t) (hc : t.cads = s.cads)
    (ho : ∀ m, m ≠ n → t.chans[m] = s.chans[m]) : RisesBut E s t := by
  refine ⟨fun m h => by rw [hc, hs.hands.work]; exact h, fun m h => by rw [hc]; exact h, fun m e h => ?_⟩
  exact h.of (by rw [hs.hands.work]) (by rw [hs.hands.work]) (by rw [hs.hands.rif]) (by rw [hs])
    (ho m fun e' => e (e' ▸ hn))

/-- What comes of `t` from a state `u` that differs from `s` in no cadence and no channel. -/
theorem anew (h : RisesBut E u t) (hc : u.cads = s.cads) (hp : u.chans = s.chans)
    (hw : u.work.progs = s.work.progs) (hE : ∀ n, E n → s.chans[n].state = .running) (n : Fin 4) :
    HeardAnew s t n where
  rise h0 := h.fresh n fun hl => by rw [hc] at hl; exact absurd h0 (Nat.ne_of_gt hl)
  fall hl := h.quiet n fun h0 => by rw [hc] at h0; exact absurd h0 (Nat.ne_of_gt hl)
  chan h0 hl hs := by
    have hu : Risen u n := .inl ⟨by rw [hp]; exact h0, hs.of (by rw [hw]) (by rw [hp])⟩
    exact (h.risen n (fun e => hs.stands (hE n e)) hu).resolve_left fun e => absurd e.1 (Nat.ne_of_gt hl)

end RisesBut

/-- The end of a step of a channel of `E`. -/
theorem stepEnds_rises {E : Fin 4 → Prop} {n : Fin 4} (hn : E n) (s : State) : RisesBut E s (stepEnds n s) := by
  have stop : ∀ st, RisesBut E s (stopChan n st s) := fun st =>
    .channel hn (stopChan_sounds n st s) rfl fun m hm => setChan_other' hm _ s
  have begins : ∀ k, RisesBut E s (beginStep n k s) := fun k =>
    .channel hn (beginStep_sounds n k s) (beginStep_cads n k s) fun m hm => beginStep_other hm k s
  unfold stepEnds
  dsimp only
  split
  · exact stop _
  split
  · exact begins _
  split
  · exact (stop .ended).trans (rises_soundRel.zones.removalAll (namesChannel n) _).but
  · exact begins _

theorem phraseWritten_rises (p : Nat) (s : State) :
    RisesBut (fun n => plays s p n = true) s (phraseWritten p s) := by
  have hall : ∀ (l : List (Fin 4)) (u : State), RisesBut (fun n => plays s p n = true) u
      (l.foldl (fun t n => if plays s p n then stepEnds n t else t) u) := by
    intro l
    induction l with
    | nil => exact fun u => (Rises.refl u).but
    | cons n l ih =>
      intro u
      rw [List.foldl_cons]
      refine RisesBut.trans ?_ (ih _)
      split
      next hn => exact stepEnds_rises (E := fun n => plays s p n = true) hn u
      · exact (Rises.refl u).but
  exact hall _ s

/-! ### The ring changes -/

/-- The entry into a ring state, from a state that differs from `s` in no cadence and no channel, and what
leaves the sounds after it. -/
theorem ring_anew {s u t : State} {st : RingState} (hc : u.cads = s.cads) (hp : u.chans = s.chans)
    (hw : u.work = s.work) (ht : Rises (enterRing st u) t) (n : Fin 4) : HeardAnew s t n := by
  have hr : Rises (setRing st u) t := (rises_soundRel.ringToOutputs (setRing st u)).trans ht
  exact (Rises.but (E := fun _ => False) hr).anew hc hp (by show u.work.progs = _; rw [hw]) (fun _ e => e.elim) n

theorem announce_rises (s : State) : Rises s (announce s) := by
  rw [announce_frame]
  exact .of rfl rfl rfl rfl rfl rfl rfl

theorem abortCapture_rises (s : State) : Rises s (abortCapture s) := by
  rw [abortCapture_frame]
  exact .of rfl rfl rfl rfl rfl rfl rfl

theorem enterLocked_anew {s u : State} (hc : u.cads = s.cads) (hp : u.chans = s.chans) (hw : u.work = s.work)
    (n : Fin 4) : HeardAnew s (enterLocked u) n :=
  ring_anew (st := .locked) (u := setRif (fun r => { r with passing := true, rx := none, arrived := [] }) u)
    hc hp hw (announce_rises _) n

theorem dropInsertion_sounds (s : State) : (dropInsertion s).cads = s.cads ∧
    (dropInsertion s).chans = s.chans ∧ (dropInsertion s).work = s.work := by
  unfold dropInsertion
  split <;> exact ⟨rfl, rfl, rfl⟩

/-- What has come of the cadences and channels stands where they, their tables, the ring and the sample times
stand. -/
theorem HeardAnew.of {s t u : State} {n : Fin 4} (h : HeardAnew s t n) (hc : u.cads = t.cads)
    (hp : u.chans = t.chans) (hw : u.work = t.work) (hr : u.rif.ring = t.rif.ring)
    (ht : u.sampleTimes = t.sampleTimes) : HeardAnew s u n where
  rise h0 := by rw [hc, hw]; exact h.rise h0
  fall hl := by rw [hc]; exact h.fall hl
  chan h0 hl hs := by
    rw [hp] at hl
    exact (h.chan h0 hl hs).of hr ht (by rw [hw]) (by rw [hw]) (by rw [hp])

theorem HeardAnew.same {s : State} (n : Fin 4) : HeardAnew s s n := (SameCounts.same rfl rfl rfl).anew n

section
variable {s u : State} (hc : u.cads = s.cads) (hp : u.chans = s.chans) (hw : u.work = s.work) (n : Fin 4)
include hc hp hw

theorem relock_anew (b : ReportBody) : HeardAnew s (enterLocked (report b u)) n :=
  enterLocked_anew ((report_cads b u).trans hc) ((report_chans b u).trans hp)
    ((report_sounds b u).hands.work.trans hw) n

theorem loss_anew : HeardAnew s (abortCapture (enterRing .lost u)) n :=
  ring_anew hc hp hw (abortCapture_rises _) n

theorem isolation_anew (b : ReportBody) : HeardAnew s (enterRing .isolated (report b u)) n :=
  ring_anew ((report_cads b u).trans hc) ((report_chans b u).trans hp)
    ((report_sounds b u).hands.work.trans hw) (Rises.refl _) n

end

theorem exec_ringLock_anew {s t : State} (h : exec .ringLock s = .next t) (n : Fin 4) : HeardAnew s t n := by
  obtain ⟨-, ht⟩ | ⟨-, ht⟩ := whenever_cases (show execRingLock s = .next t from h) <;> rw [ht]
  · beta_reduce
    obtain ⟨h1, h2, h3⟩ := dropInsertion_sounds s
    split
    · exact enterLocked_anew h1 h2 h3 n
    · exact enterLocked_anew rfl rfl rfl n
  · exact .same n

theorem exec_relock_anew {s t : State} (h : exec .isolatedRelock s = .next t) (n : Fin 4) : HeardAnew s t n := by
  obtain ⟨-, ht⟩ | ⟨-, ht⟩ := whenever_cases (show execIsolatedRelock s = .next t from h) <;> rw [ht]
  · obtain ⟨h1, h2, h3⟩ := dropInsertion_sounds s
    exact relock_anew (s := s) (u := endIsolation (dropInsertion s)) h1 h2 h3 n _
  · exact .same n

theorem exec_loss_anew {s t : State} (h : exec .ringLoss s = .next t) (n : Fin 4) : HeardAnew s t n := by
  obtain ⟨-, ht⟩ | ⟨-, ht⟩ := whenever_cases (show execRingLoss s = .next t from h) <;> rw [ht]
  · exact loss_anew (s := s) (u := leaveLocked s) rfl rfl rfl n
  · exact .same n

theorem exec_isolation_anew {s t : State} (h : exec .ringIsolation s = .next t) (n : Fin 4) :
    HeardAnew s t n := by
  obtain ⟨-, ht⟩ | ⟨-, ht⟩ := whenever_cases (show execRingIsolation s = .next t from h) <;> rw [ht]
  · exact isolation_anew (s := s) (u := { setRif (fun r => { r with run := 0, runStart := none }) s with
      isoTimer := isolationTimer s.work.node.isoDelay }) rfl rfl rfl n _
  · exact .same n

/-! ### Steps and phrases -/

theorem exec_stepEnd_anew {n : Fin 4} {s t : State} (h : exec (.playoutStepEnd n) s = .next t) (m : Fin 4) :
    HeardAnew s t m := by
  obtain ⟨hp, ht⟩ | ⟨-, ht⟩ := whenever_cases (show execPlayoutStepEnd n s = .next t from h) <;> rw [ht]
  · have hr : s.chans[n].state = .running := by
      simp only [stepOver, Bool.and_eq_true, beq_iff_eq] at hp
      exact hp.2.1
    exact (stepEnds_rises (E := fun k => k = n) rfl s).anew rfl rfl rfl (fun k e => by rw [e]; exact hr) m
  · exact .same m

/-- A command of the control stream brings of the sounds what its effect brings. -/
theorem commandWith_anew {e : Entry} {extra own : State → Nat} {act : State → State} {s t : State}
    (h : commandWith e extra own act s = .next t)
    (ha : ∀ u n, u.cads = s.cads → u.chans = s.chans → u.work = s.work → HeardAnew s (act u) n) (n : Fin 4) :
    HeardAnew s t n := by
  obtain rfl | ⟨r, -, -, -, rfl⟩ | ⟨-, -, -, rfl⟩ := commandWith_cases h
  · exact .same n
  · exact HeardAnew.of (.same n) rfl rfl rfl rfl rfl
  · exact HeardAnew.of (ha { s with cmdQueue := s.cmdQueue.tail, reserved := own s } n rfl rfl rfl) rfl rfl rfl
      rfl rfl

theorem exec_phraseWrite_anew {q : Request} {k i : Nat} {e : Phrase} {s t : State}
    (h : exec (.tableWrite q k i (.phrase e)) s = .next t) (n : Fin 4) : HeardAnew s t n := by
  refine commandWith_anew (show execTableWrite q k i (.phrase e) s = .next t from h) (fun u m h1 h2 h3 => ?_) n
  have stays : HeardAnew s u m :=
    (Rises.but (E := fun _ => False) (Rises.refl u)).anew h1 h2 (by rw [h3]) (fun _ e => e.elim) m
  split
  · exact stays.of rfl rfl rfl rfl rfl
  next c' hw =>
    obtain ⟨-, -, -, hck⟩ := writeOutcome_ok hw
    obtain ⟨e', -, rfl⟩ := Option.map_eq_some_iff.1 (show (checkPhrase e).map Contents.phrase = some c' from hck)
    unfold writeTaken
    split
    · exact stays.of rfl rfl rfl rfl rfl
    · have hr := phraseWritten_rises i { u with work := putEntry i (.phrase e') u.work }
      have hz := hr.anew (s := s) h1 h2 (by show u.work.progs = _; rw [h3]) (fun j hj => by
        rw [← h2]
        exact ((plays_iff _ i j).1 hj).1) m
      exact hz.of rfl rfl rfl rfl rfl

/-! ### The restart -/

theorem chanRestart_stays {n : Fin 4} {s : State} (h : s.chans[n].state ≠ .running) :
    chanRestart n s = stopChan n s.chans[n].state s := if_neg h

theorem restartTail_times (v : State) :
    (supervisionRestart (wardenRestart (cadsRestart (outsRestart v)))).sampleTimes = v.sampleTimes := by
  rw [restartTail_eq]

theorem restartEffect_anew (b : Bool) (s : State) (n : Fin 4) : HeardAnew s (restartEffect b s) n := by
  obtain ⟨-, hcad⟩ := restartEffect_cads b s n
  have hwork : (restartEffect b s).work = s.work := (restartEffect_frame b s).2.1
  refine ⟨fun _ hl => ?_, fun _ h0 => ?_, fun h0 hl hs => ?_⟩
  · rw [if_pos hl] at hcad
    rw [hwork]
    exact hcad
  · rw [if_neg (by omega)] at hcad
    rw [hcad]
  · -- the channels are restarted, the ring enters SEEKING, and its listener changes come
    obtain ⟨g1, g2, g3, g4, -⟩ := restartBegun_stands n b s
    obtain ⟨a, ha, hc⟩ := chansRestart_visits n (restartBegun b s)
    have hwork' : (chansRestart (restartBegun b s)).work = s.work :=
      (chansRestart_sounds (restartBegun b s)).hands.work.trans g2
    have hchan : a.chans[n] = s.chans[n] := ha.chan.trans g1
    rw [chanRestart_stays (by rw [hchan]; exact hs.stands), stopChan_eq, stopped_get, hchan] at hc
    have htail := restartTail_frame (restartRung b s)
    have htimes := restartTail_times (restartRung b s)
    rw [← restartEffect_tail] at htail htimes
    obtain ⟨-, t2, -, t4, t5, -⟩ := htail
    have hrung : Risen (restartRung b s) n := by
      unfold restartRung
      generalize chansRestart (restartBegun b s) = v at hc hwork' ⊢
      refine (rises_soundRel.ringToOutputs (ringAnew v)).risen n (.inl ⟨?_, ?_⟩)
      · show v.chans[n].listeners = 0
        rw [hc]
        exact h0
      · refine hs.of ?_ ?_
        · show v.work.progs[n] = _
          rw [hwork']
        · show v.chans[n].state = _
          rw [hc]
    have ht := hrung.of (t := restartEffect b s) (by rw [t2]) (by rw [t2]) (by rw [t4]) htimes (by rw [t5])
    exact ht.resolve_left fun e => absurd e.1 (Nat.ne_of_gt hl)

end Sys2Proof.Machine

namespace Sys2Proof.Machine

/-! ## Every step keeps the listeners counted and served (O12) -/

theorem exec_cold_anew {b : BitVec 8} {s t : State} (h : exec (.coldStart b) s = .next t) (n : Fin 4) :
    HeardAnew s t n := by
  obtain ⟨hc, hp⟩ : t.cads[n] = stoppedCad Config.factory.cad[n].on ∧ t.chans[n] = idleChan := by
    cases h
    exact ⟨coldState_cad _ _ _ _ _ _ _ n, coldState_chan _ _ _ _ _ _ _ n⟩
  refine ⟨fun _ hl => ?_, fun _ _ => by rw [hc]; rfl, fun _ hl => ?_⟩
  · rw [hc] at hl
    exact absurd hl (Nat.lt_irrefl 0)
  · rw [hp] at hl
    exact absurd hl (Nat.lt_irrefl 0)

theorem exec_restart_anew {s t : State} (h : exec .restartEffect s = .next t) (n : Fin 4) : HeardAnew s t n := by
  obtain ⟨-, ht⟩ | ⟨-, ht⟩ := whenever_cases (show execRestartEffect s = .next t from h)
  · rw [ht]
    exact restartEffect_anew _ s n
  · rw [ht]
    exact .same n

theorem exec_load_counts {s t : State} (hf : OutputsFollow s) (h : exec .startUpLoadComplete s = .next t) :
    SameCounts s t := by
  by_cases hp : s.phase = .loading
  · obtain ⟨-, -, hc, -, ho, hd⟩ := exec_load_frame hp (fun z => ((hf.2 hp).2 z).2) h
    refine ⟨fun z => by rw [ho], fun n => ?_, fun n => by rw [hc]⟩
    rw [hd, Fin.getElem_fin, Vector.getElem_ofFn]
    rfl
  · rw [exec_load_not hp h]
    exact .same rfl rfl rfl

/-- Every command but the millisecond brings, with a rise or fall of a listener count, what R118, R129, R133
and R136 call for. -/
theorem exec_anew {c : Instr} {s t : State} (hms : ∀ o, c ≠ .timebaseMillisecond o) (hf : OutputsFollow s)
    (h : exec c s = .next t) (n : Fin 4) : HeardAnew s t n := by
  have moves : byZones c = true → (∀ b, c ≠ .coldStart b) → c ≠ .restartEffect → HeardAnew s t n :=
    fun hz h2 h3 => (Moves.rises (exec_moves h) hz hms h2 h3).anew n
  cases c with
  | coldStart b => exact exec_cold_anew h n
  | restartEffect => exact exec_restart_anew h n
  | startUpLoadComplete => exact (exec_load_counts hf h).anew n
  | ringFrameReceived f gap mic => exact (exec_counts h (.inl ⟨f, gap, mic, rfl⟩)).anew n
  | cadencePhaseEnd m => exact (exec_counts h (.inr (.inl ⟨m, rfl⟩))).anew n
  | playStart q m => exact (exec_counts h (.inr (.inr (.inl ⟨q, m, rfl⟩)))).anew n
  | playStop q m => exact (exec_counts h (.inr (.inr (.inr (.inl ⟨q, m, rfl⟩))))).anew n
  | capture q p m ms => exact (exec_counts h (.inr (.inr (.inr (.inr (.inl ⟨q, p, m, ms, rfl⟩)))))).anew n
  | captureLimit => exact (exec_counts h (.inr (.inr (.inr (.inr (.inr (.inl rfl))))))).anew n
  | captureStop q => exact (exec_counts h (.inr (.inr (.inr (.inr (.inr (.inr (.inl ⟨q, rfl⟩)))))))).anew n
  | ringLock => exact exec_ringLock_anew h n
  | isolatedRelock => exact exec_relock_anew h n
  | ringLoss => exact exec_loss_anew h n
  | ringIsolation => exact exec_isolation_anew h n
  | playoutStepEnd m => exact exec_stepEnd_anew h n
  | tableWrite q k i x =>
    cases x with
    | phrase e => exact exec_phraseWrite_anew h n
    | program e =>
      exact (exec_counts h (.inr (.inr (.inr (.inr (.inr (.inr (.inr ⟨q, k, i, e, rfl⟩)))))))).anew n
    | _ => exact moves rfl nofun nofun
  | timebaseMillisecond o => exact absurd rfl (hms o)
  | _ => exact moves rfl nofun nofun

/-- The outputs, the listener counts and what they serve, kept together. -/
structure Heard (s : State) : Prop where
  follow  : OutputsFollow s
  counted : ListenersCounted s
  served  : ListenersServed s

theorem Move.heard {c : Instr} {s t : State} (hm : Move c s t) (h : Heard s) : Heard t :=
  ⟨hm.follow h.follow, hm.counted h.counted, hm.served h.follow h.counted h.served⟩

/-- Settles O12: the counts move by move; what they serve jointly with the outputs, as no zone listens while the
tables load; the rises and falls command by command. -/
theorem listenersCountedKept : Obligations.ListenersCountedKept := by
  refine ⟨fun s t hs ht => step_keeps (P := ListenersCounted) (fun _ _ h => h) (fun _ _ _ hm => hm.counted) hs ht,
    fun s t hf hc hs ht => ?_, fun c s t n hms hf _ h => ?_⟩
  · exact (step_keeps (P := Heard) (fun _ _ h => ⟨h.follow.of rfl rfl rfl rfl id .inl, h.counted, h.served⟩)
      (fun _ _ _ hm => hm.heard) ⟨hf, hc, hs⟩ ht).served
  · obtain ⟨h1, h2, h3⟩ := exec_anew hms hf h n
    exact ⟨h1, h2, fun h0 hl hu hm => h3 h0 hl ⟨hu, hm⟩⟩

end Sys2Proof.Machine
